-- ==== Sys2Proof/Word.lean ====
section
/-! DEFINITION. Octets, the clamp of R2, and the two accessors through which every fixed-size table of the part is read
and written. -/

namespace Sys2Proof

/-- An octet of a line or of the settings memory. -/
abbrev Byte := BitVec 8

/-- R2: a clamp takes the nearer end of the range when the value lies outside it. -/
def clampNat (lo hi x : Nat) : Nat := max lo (min hi x)

/-- R2, for signed quantities. -/
def clampInt (lo hi x : Int) : Int := max lo (min hi x)

/-- Entry `i` of a table. -/
def Vec.pick {α : Type} {n : Nat} (v : Vector α n) (i : Fin n) : α := v[i.val]

/-- The table with entry `i` replaced. -/
def Vec.put {α : Type} {n : Nat} (v : Vector α n) (i : Fin n) (x : α) : Vector α n := v.set i.val x

/-- The table with `f` applied to every entry. -/
def Vec.map {α β : Type} {n : Nat} (f : α → β) (v : Vector α n) : Vector β n :=
  ⟨⟨v.toArray.toList.map f⟩, by simp⟩

@[simp] theorem Vec.pick_map {α β : Type} {n : Nat} (f : α → β) (v : Vector α n) (i : Fin n) :
    Vec.pick (Vec.map f v) i = f (Vec.pick v i) := by
  simp [Vec.pick, Vec.map]

@[simp] theorem Vec.pick_put_same {α : Type} {n : Nat} (v : Vector α n) (i : Fin n) (x : α) :
    Vec.pick (Vec.put v i x) i = x := by
  simp [Vec.pick, Vec.put]

@[simp] theorem Vec.pick_put_ne {α : Type} {n : Nat} (v : Vector α n) {i j : Fin n} (x : α) (h : i ≠ j) :
    Vec.pick (Vec.put v i x) j = Vec.pick v j := by
  have : i.val ≠ j.val := fun e => h (Fin.ext e)
  simp [Vec.pick, Vec.put, this]

theorem Vec.pick_put {α : Type} {n : Nat} (v : Vector α n) (i j : Fin n) (x : α) :
    Vec.pick (Vec.put v i x) j = if i = j then x else Vec.pick v j := by
  by_cases h : i = j
  · subst h; simp
  · simp [h]

@[simp] theorem Vec.put_pick_self {α : Type} {n : Nat} (v : Vector α n) (i : Fin n) :
    Vec.put v i (Vec.pick v i) = v := by
  simp [Vec.pick, Vec.put]

/-- Two tables with the same entries are the same table. -/
theorem Vec.ext_pick {α : Type} {n : Nat} {v w : Vector α n} (h : ∀ i, Vec.pick v i = Vec.pick w i) : v = w := by
  apply Vector.ext
  intro i hi
  exact h ⟨i, hi⟩

end Sys2Proof
end

