-- ==== Sys2Proof/Syntax.lean ====
section
/-! DEFINITION. The commands: one constructor of `Instr` for each row of the spec's table of operations and events. -/

namespace Sys2Proof

/-- A branch, and the bay that holds it (R1). -/
abbrev BranchNo := Fin 12
/-- A serial line: 0 to 11 the sleds, 12 the supervisor, 13 the plant (R1). -/
abbrev LineNo := Fin 14
/-- A meter channel (00, Numbering). -/
abbrev ChannelNo := Fin 26
/-- A drip strip: 0 to 11 the trays, 12 to 15 the common strips (00, Numbering). -/
abbrev StripNo := Fin 16
/-- A slot of the Incident Ring. -/
abbrev SlotNo := Fin 16

/-- The debounced state of a drip strip, and the level a sample of it is classified as (R111). -/
inductive StripState where
  | dry | wet | broken
  deriving DecidableEq, Repr

/-- A block's part of one window close. R50, R79, R102 and R120 let the parts be taken in any order. -/
inductive ClosePart where
  | dock (b : BranchNo)
  | allocator
  | valves
  | balance
  | locate
  deriving DecidableEq, Repr

/-- The commands of spec/opcode_table.json. A request row is the serving block's taking of the request that the Line
Interface handed to it (R162), so its operand is the line, where several lines may send it. -/
inductive Instr where
  /-- POWER_ON_RESET, with the two straps as sampled (R28, R156). -/
  | powerOnReset (holdStrap speedStrap : Bool)
  /-- SETTINGS_BLOCK_READ: the bus read of the next block completes, acknowledged or not. `dripFirst` is the order R142
  leaves open between the Drip Sense Unit and the Isolation Controller when this read ends the loading. -/
  | settingsBlockRead (acked dripFirst : Bool)
  | warmRstAsserted
  | warmRstNegated
  /-- STORE_WRITE_COMPLETES, with the EEPROM's acknowledgement. -/
  | storeWriteCompletes (acked : Bool)
  /-- FRAME_RECEIVED: a whole frame at the end of its CHECK octets; LEN is the length of `body` plus 2 (R157). -/
  | frameReceived (l : LineNo) (kind tag : Byte) (body : List Byte) (check : BitVec 16)
  | interOctetTimeout (l : LineNo)
  | badFrameCountReached (l : LineNo)
  | replySent (l : LineNo)
  | lineBreak (l : LineNo)
  | flowRequest (l : LineNo)
  | transfer (l : LineNo)
  | release (l : LineNo)
  | readAttn (l : LineNo)
  | clearAttn (l : LineNo)
  | setAttnMask (l : LineNo)
  | setBranch
  /-- ADMIT. -/
  | admitBay
  | isolate
  | clearCause
  | restore
  | readStrips
  | readMeters
  | readRound (l : LineNo)
  | takeIncident
  | returnIncident
  | logResume
  /-- STORE_READ, with the EEPROM's acknowledgement of the read. -/
  | storeRead (acked : Bool)
  | storeWrite
  | restart
  | budget
  | plantStop
  | plantResume
  | readDemand (l : LineNo)
  | presentCloses (b : BranchNo)
  | presentOpens (b : BranchNo)
  | latchCloses (b : BranchNo)
  | latchOpens (b : BranchNo)
  | seatSettleExpires (b : BranchNo)
  | primeTimeoutExpires (b : BranchNo)
  | closeTimeExpires (b : BranchNo)
  | closeCompletes (b : BranchNo)
  | drainLimitExpires (b : BranchNo)
  /-- WINDOW_CLOSE, with the order in which the blocks take the close. -/
  | windowClose (order : List ClosePart)
  | qerrRunReached (c : ChannelNo)
  | cleanRunReached (c : ChannelNo)
  | primeGoodCountReached (b : BranchNo)
  | adoptionGoodCountReached (b : BranchNo)
  | idleCountReached (b : BranchNo)
  | takeUpWindowsReached (b : BranchNo)
  | balanceConfirmed (b : BranchNo)
  | railBalanceConfirmed
  | locateHoldExpires
  | budgetHoldExpires
  | fallbackTimeExpires
  | periodStart
  | tripInAsserted
  | tripInNegated
  | railCloseTimeExpires
  | railOpenTimeExpires
  /-- STRIP_STATE_CHANGE: strip `n` has shown `level` for Debounce samples. -/
  | stripStateChange (n : StripNo) (level : StripState)
  /-- PICKUP_SAMPLE: the A and B levels of all 26 channels, bit c for channel c. -/
  | pickupSample (a b : BitVec 26)
  /-- OCTET_RECEIVED: an octet at its stop bit, with or without a framing error. -/
  | octetReceived (l : LineNo) (octet : Byte) (framingError : Bool)
  deriving DecidableEq, Repr

end Sys2Proof
end

