-- ==== Sys2Proof/Config.lean ====
section
/-! DEFINITION. The free values: what the spec leaves open and the part goes on after. Neither constant has a body, so
nothing can be proved of its value. -/

namespace Sys2Proof

/-- R178: after a power-on reset abandons a write, "the half concerned may then hold any mixture of old and new octets".
Draw `n`, octet `i`: whether octet `i` still holds its old value (log 12). -/
opaque Config.keepsOldOctet (n i : Nat) : Bool

/-- R178 does not state what a half-block holds when the EEPROM did not acknowledge its write. Draw `n`, octet `i`
(log 13). -/
opaque Config.failedWriteOctet (n i : Nat) : Byte

end Sys2Proof
end

