-- ==== Sys2Proof/Machine/State.lean ====
section
/-! DEFINITION. The state of the part, as plain data: the Branch Table, what each block holds, the settings memory, the
input pins and the queue of commands; and the state right after a power-on reset. -/

namespace Sys2Proof.Machine

open Sys2Proof

/-- Why the part stops with a fault. The spec names no event that stops the part, so there is no constructor (log 28). -/
inductive Fault where
  deriving DecidableEq, Repr

/-- Why a command is refused. -/
inductive Refusal where
  /-- Raised by an arm of `exec` that has no meaning yet; safe. No arm raises it now. -/
  | notModelled (mnemonic : String)
  deriving DecidableEq, Repr

/-! ## Enumerations of the Branch Table (01) -/

/-- The eleven dock states, in the order of their codes (09, 9.7). -/
inductive DockState where
  | vacant | seated | held | priming | admitted | adopting | releasing | draining | pullReady | isolating | isolated
  deriving DecidableEq, Repr

inductive LedPattern where
  | off | slow | fast | steady
  deriving DecidableEq, Repr

inductive Health where
  | healthy | degraded
  deriving DecidableEq, Repr

inductive BalanceState where
  | clear | watch | suspect | confirmed
  deriving DecidableEq, Repr

/-- The causes of a branch, in the order of their codes (07, 7.2; 09, 9.7). -/
inductive BranchCause where
  | trayWet | balance | gross | backflow | primeFail | hotPull | earlyPull | valvePassing | located | commanded | rail
  deriving DecidableEq, Repr

/-- The causes of the rail, in the order of their codes. -/
inductive RailCause where
  | railBalance | commonRail | tripLine | plantStop | commanded
  deriving DecidableEq, Repr

/-- A cause of either kind, as an incident record keeps it. -/
inductive Cause where
  | branch (c : BranchCause)
  | rail (c : RailCause)
  deriving DecidableEq, Repr

/-- What an isolation or an incident is about. -/
inductive Target where
  | branch (b : BranchNo)
  | rail
  deriving DecidableEq, Repr

/-- The rail states OPEN, CLOSING, CLOSED, OPENING. -/
inductive RailState where
  | opened | closing | closed | opening
  deriving DecidableEq, Repr

/-! ## The records of the Branch Table (01) -/

/-- The three fields the Balance Monitor owns in each record (05, 5.1). -/
structure Account where
  integrator : Nat
  state : BalanceState
  above : Nat
  deriving DecidableEq, Repr

/-- The account at 0 and CLEAR (R93, R107, R109). -/
def Account.zero : Account := ⟨0, .clear, 0⟩

/-- A branch record (01, table 1.1). The supply and return volumes, the supply rate and the meter health are read from
the snapshot, and the tray strip state from the strip (log 26). -/
structure Branch where
  dock : DockState
  /-- The present contact, as taken: true is closed. -/
  present : Bool
  /-- The latch contact, as taken: true is closed. -/
  latched : Bool
  /-- Admission hold. -/
  hold : Bool
  /-- Prime clearance. -/
  clearance : Bool
  dockTimer : Option Nat
  primeGood : Nat
  idle : Nat
  led : LedPattern
  /-- Milliseconds since the LED pattern was selected (log 23). -/
  ledPhase : Nat
  owner : Option BranchNo
  tier : Nat
  floor : Nat
  cap : Nat
  request : Nat
  grant : Nat
  restricted : Option Nat
  takeUp : Nat
  fopen : Nat
  commanded : Nat
  applied : Nat
  trim : Int
  enable : Bool
  account : Account
  /-- The isolation set, without duplicates, in the order added. -/
  causes : List BranchCause
  incident : Option SlotNo
  lost : Bool
  /-- Consecutive 10 ms samples of the present contact that differ from `present` (R6). -/
  presentRun : Nat
  /-- Consecutive 10 ms samples of the latch contact that differ from `latched` (R6). -/
  latchRun : Nat
  deriving DecidableEq, Repr

/-- The rail record (01, 1.2). -/
structure Rail where
  state : RailState
  causes : List RailCause
  timer : Option Nat
  account : Account
  incident : Option SlotNo
  lost : Bool
  deriving DecidableEq, Repr

/-! ## What the blocks hold -/

/-- A meter channel (02, 2.1). -/
structure MeterChannel where
  last : Option (Bool × Bool)
  acc : Int
  qerr : Bool
  overrange : Bool
  carry : Int
  qerrRun : Nat
  cleanRun : Nat
  health : Health
  k : Nat
  deriving DecidableEq, Repr

/-- One channel of the snapshot (02, 2.1). -/
structure SnapChannel where
  count : Int
  qerr : Bool
  overrange : Bool
  volume : Int
  rate : Int
  health : Health
  deriving DecidableEq, Repr

/-- The zero snapshot of R44. -/
def SnapChannel.zero : SnapChannel := ⟨0, false, false, 0, 0, .healthy⟩

structure Snapshot where
  seq : BitVec 16
  channels : Vector SnapChannel 26
  deriving DecidableEq, Repr

structure MeterUnit where
  channels : Vector MeterChannel 26
  snap : Snapshot
  windowTimer : Option Nat
  deriving DecidableEq, Repr

inductive AgeState where
  | fresh | stale | fallenBack
  deriving DecidableEq, Repr

/-- The round record (R61). -/
structure RoundRecord where
  seq : BitVec 16
  budget : Nat
  available : Nat
  sumFloors : Nat
  sumGrants : Nat
  residue : Nat
  bypassTarget : Nat
  p1 : BranchNo
  p0 : BranchNo
  participants : Nat
  short : Bool
  deriving DecidableEq, Repr

/-- What the Allocator holds for the rack (03, 3.1). -/
structure Allocator where
  pendingBudget : Nat
  effectiveBudget : Nat
  age : Nat
  ageState : AgeState
  suspended : Bool
  p1 : BranchNo
  p0 : BranchNo
  bypassTarget : Nat
  shortfall : Bool
  reportedDemand : Nat
  round : RoundRecord
  deriving DecidableEq, Repr

/-- What the Valve Drive Unit holds beside the branch fields (04, 4.1). Bit n of a polarity is channel n, set for
active-low. -/
structure ValveUnit where
  railCommanded : Nat
  railApplied : Nat
  railEnable : Bool
  bypassCommanded : Nat
  bypassApplied : Nat
  bypassEnable : Bool
  bypassFopen : Nat
  polarity : BitVec 14
  /-- The polarity loaded, in force from the next period start (R88). -/
  polarityNext : BitVec 14
  /-- False while the outputs are at high impedance (R88). -/
  driven : Bool
  /-- Milliseconds to the next period start. -/
  periodTimer : Nat
  deriving DecidableEq, Repr

/-- A drip strip (06, 6.1). -/
structure Strip where
  state : StripState
  candidate : Option StripState
  count : Nat
  /-- Membership in the delta set (R113). -/
  changed : Bool
  deriving DecidableEq, Repr

/-- How the last locate ended. -/
inductive LocateOutcome where
  | none | branches | rail | alarmOnly
  deriving DecidableEq, Repr

/-- The Drip Sense Unit (06, 6.1). -/
structure DripUnit where
  strips : Vector Strip 16
  running : Bool
  windowsLeft : Nat
  locateStrip : Option StripNo
  outcome : LocateOutcome
  deriving DecidableEq, Repr

/-- What the Isolation Controller holds beside the two records' fields (07, 7.1). -/
structure IsoUnit where
  tripAsserted : Bool
  tripCandidate : Nat
  tripOut : Bool
  deriving DecidableEq, Repr

inductive SlotState where
  | free | opened | closed
  deriving DecidableEq, Repr

/-- A slot of the Incident Ring with its record (08, 8.1). -/
structure Slot where
  state : SlotState
  target : Option Target
  opening : Option Cause
  causes : List Cause
  seqOpen : BitVec 16
  seqClose : Option (BitVec 16)
  integrator : Nat
  loss : Nat
  hotPull : Bool
  stillWet : Bool
  flow : Bool
  lostBefore : Bool
  deriving DecidableEq, Repr

/-- The contents of a FREE slot (08, 8.1). -/
def Slot.free : Slot := ⟨.free, none, none, [], 0, none, 0, 0, false, false, false, false⟩

structure Ring where
  slots : Vector Slot 16
  fill : SlotNo
  suspended : Bool
  deriving DecidableEq, Repr

/-- A received frame that waits (R160). -/
structure Frame where
  kind : Byte
  tag : Byte
  body : List Byte
  deriving DecidableEq, Repr

/-- A request that the Line Interface has tested, translated and handed to its serving block (R162). -/
inductive Request where
  | flowRequest (b : BranchNo) (flow : Nat)
  | transfer (i j : BranchNo) (amount : Nat)
  | release (b : BranchNo)
  | readAttn
  | clearAttn (set : BitVec 16)
  | setAttnMask (set : BitVec 16)
  | setBranch (b : BranchNo) (tier floor cap fopen : Nat) (hold : Bool)
  | admitBay (b : BranchNo)
  | isolate (t : Target)
  | clearCause (t : Target) (code : Nat)
  | restore
  | readStrips
  | readMeters (first count : Nat)
  | readRound
  | takeIncident (slot : Nat)
  | returnIncident (slot : Nat)
  | logResume
  | storeRead (block half : Nat)
  | storeWrite (block half : Nat) (octets : List Byte)
  | restart
  | budget (value : Nat) (urgent : Bool)
  | plantStop
  | plantResume
  | readDemand
  deriving DecidableEq, Repr

/-- A reply being sent (R163): its KIND, TAG and BODY. SYNC, LEN and CHECK follow from them. -/
structure Reply where
  kind : Byte
  tag : Byte
  body : List Byte
  /-- The reply to a RESTART answered OK: the warm restart begins when it has been sent or cut (R179). -/
  beginsRestart : Bool
  deriving DecidableEq, Repr

/-- The service place of a line (09, 9.3). -/
inductive Service where
  | empty
  | handed (tag : Byte) (r : Request)
  | sending (r : Reply)
  deriving DecidableEq, Repr

/-- The receiver (R158). IN_FRAME holds the octets taken after SYNC. -/
inductive Rx where
  | hunting
  | inFrame (octets : List Byte)
  deriving DecidableEq, Repr

structure Line where
  rx : Rx
  /-- The receiver waits for the input to return to the idle level (R156, R164). -/
  awaitIdle : Bool
  service : Service
  waiting : List Frame
  badCount : Nat
  deriving DecidableEq, Repr

/-- The branch window of a sled line (R165). -/
structure Window where
  base : Nat
  span : Nat
  deriving DecidableEq, Repr

inductive LineClass where
  | sled | supervisor | plant
  deriving DecidableEq, Repr

/-- The attention causes (10, 10.1). -/
inductive SledCause where
  | isolated | pullReady | restricted | admitted | grantChanged
  deriving DecidableEq, Repr

inductive SupCause where
  | tripLine | incidentClosed | logBusy | commonWet | meterDegraded | restricted | shortfall | budgetStale | lineFault
  | stripChange | settingsDone
  deriving DecidableEq, Repr

inductive PlantCause where
  | railClosed | shortfall | budgetStale | demandChanged
  deriving DecidableEq, Repr

inductive AttnCause where
  | sled (c : SledCause)
  | sup (c : SupCause)
  | plant (c : PlantCause)
  deriving DecidableEq, Repr

/-- One detail entry of a pending cause (R169). `key` is the index, slot, strip, channel, target, line or origin, and 0
for a cause without detail; `causes` serves ISOLATED and `overrun` LINE_FAULT. A cause is pending while it has an entry. -/
structure AttnEntry where
  cause : AttnCause
  key : Nat
  causes : List BranchCause
  overrun : Bool
  deriving DecidableEq, Repr

structure AttnLine where
  entries : List AttnEntry
  mask : BitVec 16
  deriving DecidableEq, Repr

inductive EndReason where
  | stop | lastBlock | badCheck | noMemory
  deriving DecidableEq, Repr

inductive WriteResult where
  | none | done | failed
  deriving DecidableEq, Repr

/-- A write to the settings memory in progress (R178). -/
structure StoreWrite where
  block : Fin 4
  half : Fin 2
  octets : List Byte
  deriving DecidableEq, Repr

/-- The Settings Loader (11, 11.1 and R179). -/
structure Loader where
  loading : Bool
  /-- The loading followed a power-on reset (R176). -/
  afterPowerOn : Bool
  /-- The next block to read. -/
  next : Fin 4
  /-- The octets of the blocks taken so far in this loading. -/
  taken : List (List Byte)
  /-- The write in progress: the store state is BUSY while there is one. -/
  store : Option StoreWrite
  blocksTaken : Nat
  endReason : EndReason
  defaulted : Bool
  lastWrite : WriteResult
  warmAsserted : Bool
  warmCandidate : Nat
  holdStrap : Bool
  speedStrap : Bool
  deriving DecidableEq, Repr

inductive ParkMode where
  | bypass | last | fixed
  deriving DecidableEq, Repr

inductive WetAction where
  | alarm | locate | rail
  deriving DecidableEq, Repr

/-- The parameters in force that no other field holds (11, 11.4), each in the unit of that table. -/
structure Params where
  windowLength : Nat
  quantum : Nat
  bypassMinimum : Nat
  parkMode : ParkMode
  parkBranch : BranchNo
  fallbackBudget : Nat
  budgetHold : Nat
  fallbackTime : Nat
  primeFlow : Nat
  primeReturn : Nat
  primeTimeout : Nat
  seatSettle : Nat
  closeTime : Nat
  drainTime : Nat
  drainLimit : Nat
  drainResidual : Nat
  railCloseTime : Nat
  railOpenTime : Nat
  deadband : Nat
  slip : Nat
  decayShift : Nat
  tripThreshold : Nat
  confirmCount : Nat
  grossLimit : Nat
  backflowLimit : Nat
  railDeadband : Nat
  railSlip : Nat
  railThreshold : Nat
  takeUpShare : Nat
  takeUpWindows : Nat
  debounce : Nat
  wetAction : WetAction
  locateHold : Nat
  deriving DecidableEq, Repr

/-- The defaults of 11.4. -/
def Params.default : Params where
  windowLength := 1000
  quantum := 50
  bypassMinimum := 100
  parkMode := .bypass
  parkBranch := 0
  fallbackBudget := 1800
  budgetHold := 30
  fallbackTime := 300
  primeFlow := 300
  primeReturn := 700
  primeTimeout := 60
  seatSettle := 2
  closeTime := 4
  drainTime := 5
  drainLimit := 30
  drainResidual := 2
  railCloseTime := 8
  railOpenTime := 8
  deadband := 4
  slip := 15
  decayShift := 4
  tripThreshold := 120
  confirmCount := 2
  grossLimit := 200
  backflowLimit := 20
  railDeadband := 10
  railSlip := 10
  railThreshold := 400
  takeUpShare := 500
  takeUpWindows := 5
  debounce := 5
  wetAction := .locate
  locateHold := 5

/-- The levels at a strip's two comparators (R111). -/
structure StripPins where
  whole : Bool
  wet : Bool
  deriving DecidableEq, Repr

/-- The input pins the part samples (00, Pin summary; log 9). Contacts: true is closed; bit c of `pickA`, `pickB` is
channel c. -/
structure Pins where
  present : Vector Bool 12
  latched : Vector Bool 12
  strips : Vector StripPins 16
  /-- TRIP_IN at its low, asserted level. -/
  trip : Bool
  /-- WARM_RST at its low, asserted level. -/
  warm : Bool
  pickA : BitVec 26
  pickB : BitVec 26
  deriving DecidableEq, Repr

/-- The settings memory: the octets that differ from the blank value, by rising address (log 11). -/
abbrev Memory := List Host.Cell

/-- The state of the part. -/
structure State where
  branches : Vector Branch 12
  rail : Rail
  meter : MeterUnit
  alloc : Allocator
  valves : ValveUnit
  drip : DripUnit
  iso : IsoUnit
  ring : Ring
  lines : Vector Line 14
  windows : Vector Window 12
  attn : Vector AttnLine 14
  loader : Loader
  params : Params
  eeprom : Memory
  pins : Pins
  /-- Milliseconds to the next 10 ms sample of the contacts and the strips (R6, R111). -/
  sampleTimer : Nat
  /-- How many free values have been drawn (log 14). -/
  freeCount : Nat
  /-- The commands that wait, first in, first out (log 1). -/
  pending : List Instr
  deriving DecidableEq, Repr

/-! ## The state right after a power-on reset -/

/-- A branch record after power-on reset (01, 1.3; R28, R74, R90, R109, R142, R154, R168); tier, floor, cap and Fopen at
their defaults (log 15). -/
def Branch.reset (b : BranchNo) (holdStrap : Bool) : Branch where
  dock := .vacant
  present := false
  latched := false
  hold := holdStrap
  clearance := false
  dockTimer := none
  primeGood := 0
  idle := 0
  led := .off
  ledPhase := 0
  owner := some b
  tier := 0
  floor := 150
  cap := 2500
  request := 150
  grant := 0
  restricted := none
  takeUp := 0
  fopen := 3000
  commanded := 0
  applied := 0
  trim := 0
  enable := false
  account := Account.zero
  causes := []
  incident := none
  lost := false
  presentRun := 0
  latchRun := 0

/-- R142, R109, R154. -/
def Rail.reset : Rail := ⟨.closed, [], none, Account.zero, none, false⟩

/-- R44, with K at its default (log 15). -/
def MeterChannel.reset : MeterChannel := ⟨none, 0, false, false, 0, 0, 0, .healthy, 2400⟩

/-- R44. -/
def MeterUnit.reset : MeterUnit :=
  ⟨Vector.replicate 26 MeterChannel.reset, ⟨0, Vector.replicate 26 SnapChannel.zero⟩, none⟩

/-- R74: "the round record to all zeros". -/
def RoundRecord.zero : RoundRecord := ⟨0, 0, 0, 0, 0, 0, 0, 0, 0, 0, false⟩

/-- R74. -/
def Allocator.reset : Allocator := ⟨0, 0, 0, .fresh, false, 0, 0, 0, false, 0, RoundRecord.zero⟩

/-- R90: the applied duty of channel 13 stands at its inactive value 1000, and the first period starts at the reset. -/
def ValveUnit.reset : ValveUnit := ⟨0, 0, false, 0, 1000, false, 3000, 0, 0, false, 20⟩

/-- R123. -/
def Strip.reset : Strip := ⟨.dry, none, 0, false⟩

/-- R123. -/
def DripUnit.reset : DripUnit := ⟨Vector.replicate 16 Strip.reset, false, 0, none, .none⟩

/-- R142. -/
def IsoUnit.reset : IsoUnit := ⟨false, 0, false⟩

/-- R154. -/
def Ring.reset : Ring := ⟨Vector.replicate 16 Slot.free, 0, false⟩

/-- R168. -/
def Line.reset : Line := ⟨.hunting, false, .empty, [], 0⟩

/-- R168: sled line n has base n and span 1. -/
def windowsReset : Vector Window 12 :=
  #v[⟨0, 1⟩, ⟨1, 1⟩, ⟨2, 1⟩, ⟨3, 1⟩, ⟨4, 1⟩, ⟨5, 1⟩, ⟨6, 1⟩, ⟨7, 1⟩, ⟨8, 1⟩, ⟨9, 1⟩, ⟨10, 1⟩, ⟨11, 1⟩]

/-- The class of a line (00, Numbering). -/
def lineClass (l : LineNo) : LineClass :=
  if l.val < 12 then .sled else if l.val = 12 then .supervisor else .plant

/-- Every cause of a class, as the bits of a mask (R174). -/
def LineClass.allCauses : LineClass → BitVec 16
  | .sled => 0x001F
  | .supervisor => 0x07FF
  | .plant => 0x000F

/-- R174: sled lines 0 to 11, then the supervisor, then the plant. -/
def attnReset : Vector AttnLine 14 :=
  #v[⟨[], 0x001F⟩, ⟨[], 0x001F⟩, ⟨[], 0x001F⟩, ⟨[], 0x001F⟩, ⟨[], 0x001F⟩, ⟨[], 0x001F⟩, ⟨[], 0x001F⟩, ⟨[], 0x001F⟩,
    ⟨[], 0x001F⟩, ⟨[], 0x001F⟩, ⟨[], 0x001F⟩, ⟨[], 0x001F⟩, ⟨[], 0x07FF⟩, ⟨[], 0x000F⟩]

/-- R178, R179, R175: loading begins. -/
def Loader.reset (holdStrap speedStrap : Bool) : Loader where
  loading := true
  afterPowerOn := true
  next := 0
  taken := []
  store := none
  blocksTaken := 0
  endReason := .stop
  defaulted := false
  lastWrite := .none
  warmAsserted := false
  warmCandidate := 0
  holdStrap := holdStrap
  speedStrap := speedStrap

/-- The twelve branch records after power-on reset. -/
def branchesReset (holdStrap : Bool) : Vector Branch 12 :=
  #v[Branch.reset 0 holdStrap, Branch.reset 1 holdStrap, Branch.reset 2 holdStrap, Branch.reset 3 holdStrap,
    Branch.reset 4 holdStrap, Branch.reset 5 holdStrap, Branch.reset 6 holdStrap, Branch.reset 7 holdStrap,
    Branch.reset 8 holdStrap, Branch.reset 9 holdStrap, Branch.reset 10 holdStrap, Branch.reset 11 holdStrap]

/-- The pins at `State.reset` (log 9): contacts open, strips whole and dry, TRIP_IN and WARM_RST negated, pickups low. -/
def Pins.reset : Pins :=
  ⟨Vector.replicate 12 false, Vector.replicate 12 false, Vector.replicate 16 ⟨true, false⟩, false, false, 0, 0⟩

/-- The state right after a power-on reset, no strap fitted (log 16), nothing in the queue. -/
def State.reset : State where
  branches := branchesReset false
  rail := Rail.reset
  meter := MeterUnit.reset
  alloc := Allocator.reset
  valves := ValveUnit.reset
  drip := DripUnit.reset
  iso := IsoUnit.reset
  ring := Ring.reset
  lines := Vector.replicate 14 Line.reset
  windows := windowsReset
  attn := attnReset
  loader := Loader.reset false false
  params := Params.default
  eeprom := []
  pins := Pins.reset
  sampleTimer := 10
  freeCount := 0
  pending := []

end Sys2Proof.Machine
end

