-- ==== Sys2Proof/WellFormed.lean ====
section
/-! DEFINITION. Which commands the outside can send: an order of the window close names every part once, and a frame's
BODY has at most 48 octets (R157). Every other operand is well formed by its type. -/

namespace Sys2Proof

/-- Every block's part of a window close, in the order used where a command leaves a part out (log 7): each Dock
Controller, then the Allocator, the Valve Drive Unit, the Balance Monitor and the locate. -/
def ClosePart.all : List ClosePart :=
  [.dock 0, .dock 1, .dock 2, .dock 3, .dock 4, .dock 5, .dock 6, .dock 7, .dock 8, .dock 9, .dock 10, .dock 11,
    .allocator, .valves, .balance, .locate]

/-- A command the outside can send. -/
def Instr.wf : Instr → Bool
  | .powerOnReset _ _ => true
  | .settingsBlockRead _ _ => true
  | .warmRstAsserted => true
  | .warmRstNegated => true
  | .storeWriteCompletes _ => true
  | .frameReceived _ _ _ body _ => decide (body.length ≤ 48)
  | .interOctetTimeout _ => true
  | .badFrameCountReached _ => true
  | .replySent _ => true
  | .lineBreak _ => true
  | .flowRequest _ => true
  | .transfer _ => true
  | .release _ => true
  | .readAttn _ => true
  | .clearAttn _ => true
  | .setAttnMask _ => true
  | .setBranch => true
  | .admitBay => true
  | .isolate => true
  | .clearCause => true
  | .restore => true
  | .readStrips => true
  | .readMeters => true
  | .readRound _ => true
  | .takeIncident => true
  | .returnIncident => true
  | .logResume => true
  | .storeRead _ => true
  | .storeWrite => true
  | .restart => true
  | .budget => true
  | .plantStop => true
  | .plantResume => true
  | .readDemand _ => true
  | .presentCloses _ => true
  | .presentOpens _ => true
  | .latchCloses _ => true
  | .latchOpens _ => true
  | .seatSettleExpires _ => true
  | .primeTimeoutExpires _ => true
  | .closeTimeExpires _ => true
  | .closeCompletes _ => true
  | .drainLimitExpires _ => true
  | .windowClose order => order.isPerm ClosePart.all
  | .qerrRunReached _ => true
  | .cleanRunReached _ => true
  | .primeGoodCountReached _ => true
  | .adoptionGoodCountReached _ => true
  | .idleCountReached _ => true
  | .takeUpWindowsReached _ => true
  | .balanceConfirmed _ => true
  | .railBalanceConfirmed => true
  | .locateHoldExpires => true
  | .budgetHoldExpires => true
  | .fallbackTimeExpires => true
  | .periodStart => true
  | .tripInAsserted => true
  | .tripInNegated => true
  | .railCloseTimeExpires => true
  | .railOpenTimeExpires => true
  | .stripStateChange _ _ => true
  | .pickupSample _ _ => true
  | .octetReceived _ _ _ => true

end Sys2Proof
end

