-- ==== Sys2Proof/Machine/Ops.lean ====
section
/-! DEFINITION. The named operations through which every other file reads and writes the state: one accessor and one
update for each table and each unit, the views of the Branch Table, and the settings memory. -/

namespace Sys2Proof.Machine

open Sys2Proof

/-! ## Accessors and updates -/

/-- Branch record `b`. -/
def State.br (s : State) (b : BranchNo) : Branch := Vec.pick s.branches b

/-- The state with branch record `b` changed. -/
def State.updBranch (s : State) (b : BranchNo) (f : Branch → Branch) : State :=
  { s with branches := Vec.put s.branches b (f (s.br b)) }

/-- The state with every branch record changed. -/
def State.mapBranches (s : State) (f : Branch → Branch) : State :=
  { s with branches := Vec.map f s.branches }

/-- The state with the rail record changed. -/
def State.updRail (s : State) (f : Rail → Rail) : State := { s with rail := f s.rail }

/-- The state with the Meter Unit changed. -/
def State.updMeter (s : State) (f : MeterUnit → MeterUnit) : State := { s with meter := f s.meter }

/-- The state with the Allocator changed. -/
def State.updAlloc (s : State) (f : Allocator → Allocator) : State := { s with alloc := f s.alloc }

/-- The state with the Valve Drive Unit changed. -/
def State.updValves (s : State) (f : ValveUnit → ValveUnit) : State := { s with valves := f s.valves }

/-- The state with the Drip Sense Unit changed. -/
def State.updDrip (s : State) (f : DripUnit → DripUnit) : State := { s with drip := f s.drip }

/-- The state with the Isolation Controller's own items changed. -/
def State.updIso (s : State) (f : IsoUnit → IsoUnit) : State := { s with iso := f s.iso }

/-- The state with the Incident Ring changed. -/
def State.updRing (s : State) (f : Ring → Ring) : State := { s with ring := f s.ring }

/-- The state with the Settings Loader changed. -/
def State.updLoader (s : State) (f : Loader → Loader) : State := { s with loader := f s.loader }

/-- The state with the input pins changed. -/
def State.updPins (s : State) (f : Pins → Pins) : State := { s with pins := f s.pins }

/-- Line `l`. -/
def State.line (s : State) (l : LineNo) : Line := Vec.pick s.lines l

/-- The state with line `l` changed. -/
def State.updLine (s : State) (l : LineNo) (f : Line → Line) : State :=
  { s with lines := Vec.put s.lines l (f (s.line l)) }

/-- The branch window of sled line `l`. -/
def State.window (s : State) (l : BranchNo) : Window := Vec.pick s.windows l

/-- The state with the branch window of sled line `l` replaced. -/
def State.setWindow (s : State) (l : BranchNo) (w : Window) : State :=
  { s with windows := Vec.put s.windows l w }

/-- The attention set and mask of line `l`. -/
def State.attnOf (s : State) (l : LineNo) : AttnLine := Vec.pick s.attn l

/-- The state with the attention set and mask of line `l` changed. -/
def State.updAttn (s : State) (l : LineNo) (f : AttnLine → AttnLine) : State :=
  { s with attn := Vec.put s.attn l (f (s.attnOf l)) }

/-- Slot `k` of the Incident Ring. -/
def State.slot (s : State) (k : SlotNo) : Slot := Vec.pick s.ring.slots k

/-- The state with slot `k` changed. -/
def State.updSlot (s : State) (k : SlotNo) (f : Slot → Slot) : State :=
  { s with ring := { s.ring with slots := Vec.put s.ring.slots k (f (s.slot k)) } }

/-- Strip `n`. -/
def State.strip (s : State) (n : StripNo) : Strip := Vec.pick s.drip.strips n

/-- The state with strip `n` changed. -/
def State.updStrip (s : State) (n : StripNo) (f : Strip → Strip) : State :=
  { s with drip := { s.drip with strips := Vec.put s.drip.strips n (f (s.strip n)) } }

/-- Meter channel `c`. -/
def State.channel (s : State) (c : ChannelNo) : MeterChannel := Vec.pick s.meter.channels c

/-- The state with meter channel `c` changed. -/
def State.updChannel (s : State) (c : ChannelNo) (f : MeterChannel → MeterChannel) : State :=
  { s with meter := { s.meter with channels := Vec.put s.meter.channels c (f (s.channel c)) } }

/-- Channel `c` of the snapshot. -/
def State.snapChannel (s : State) (c : ChannelNo) : SnapChannel := Vec.pick s.meter.snap.channels c

/-! ## Enumerations of the like objects -/

/-- The twelve branches in rising number. -/
def allBranches : List BranchNo := [0, 1, 2, 3, 4, 5, 6, 7, 8, 9, 10, 11]

/-- The sixteen strips in rising number. -/
def allStrips : List StripNo := [0, 1, 2, 3, 4, 5, 6, 7, 8, 9, 10, 11, 12, 13, 14, 15]

/-- The 26 meter channels in rising number. -/
def allChannels : List ChannelNo :=
  [0, 1, 2, 3, 4, 5, 6, 7, 8, 9, 10, 11, 12, 13, 14, 15, 16, 17, 18, 19, 20, 21, 22, 23, 24, 25]

/-- The fourteen lines in rising number. -/
def allLines : List LineNo := [0, 1, 2, 3, 4, 5, 6, 7, 8, 9, 10, 11, 12, 13]

/-- `f` applied for every branch, in rising number. -/
def forBranches (f : BranchNo → State → State) (s : State) : State :=
  allBranches.foldl (fun s b => f b s) s

/-- The sum of a quantity over the twelve branches. -/
def sumBranches (f : BranchNo → Nat) : Nat := (allBranches.map f).sum

/-- The sum of a signed quantity over the twelve branches. -/
def sumBranchesInt (f : BranchNo → Int) : Int := (allBranches.map f).sum

/-- The sled line of that number. -/
def sledLine (b : BranchNo) : LineNo := ⟨b.val, by omega⟩

/-- The supervisor line. -/
def supLine : LineNo := 12

/-- The plant line. -/
def plantLine : LineNo := 13

/-- The tray strip of branch `b`. -/
def trayStrip (b : BranchNo) : StripNo := ⟨b.val, by omega⟩

/-- Channel 2b, the supply meter of branch b. -/
def supplyChannel (b : BranchNo) : ChannelNo := ⟨2 * b.val, by omega⟩

/-- Channel 2b+1, the return meter of branch b. -/
def returnChannel (b : BranchNo) : ChannelNo := ⟨2 * b.val + 1, by omega⟩

/-! ## Views of the Branch Table (R37, log 26) -/

/-- The supply volume field of branch `b`. -/
def supplyVolume (s : State) (b : BranchNo) : Int := (s.snapChannel (supplyChannel b)).volume

/-- The return volume field of branch `b`. -/
def returnVolume (s : State) (b : BranchNo) : Int := (s.snapChannel (returnChannel b)).volume

/-- The supply rate field of branch `b`. -/
def supplyRate (s : State) (b : BranchNo) : Int := (s.snapChannel (supplyChannel b)).rate

/-- The supply meter health field of branch `b` is HEALTHY. -/
def supplyHealthy (s : State) (b : BranchNo) : Bool := (s.snapChannel (supplyChannel b)).health = .healthy

/-- The return meter health field of branch `b` is HEALTHY. -/
def returnHealthy (s : State) (b : BranchNo) : Bool := (s.snapChannel (returnChannel b)).health = .healthy

/-- The inlet volume field of the rail. -/
def inletVolume (s : State) : Int := (s.snapChannel 24).volume

/-- The outlet volume field of the rail. -/
def outletVolume (s : State) : Int := (s.snapChannel 25).volume

/-- The tray strip state field of branch `b`. -/
def trayState (s : State) (b : BranchNo) : StripState := (s.strip (trayStrip b)).state

/-- The tray strip of branch `b` is WET. -/
def trayWet (s : State) (b : BranchNo) : Bool := trayState s b = .wet

/-- PRIMING, ADMITTED and ADOPTING: the states of the participants (R20, R52). -/
def DockState.participating : DockState → Bool
  | .priming | .admitted | .adopting => true
  | .vacant | .seated | .held | .releasing | .draining | .pullReady | .isolating | .isolated => false

/-- R41: a meter of the branch is DEGRADED and its tray strip is BROKEN. -/
def unprotected (s : State) (b : BranchNo) : Bool :=
  (!supplyHealthy s b || !returnHealthy s b) && trayState s b = .broken

/-- R115: strips 12 to 15, and the tray strip of a VACANT bay, act as common. -/
def actsCommon (s : State) (n : StripNo) : Bool :=
  if h : n.val < 12 then (s.br ⟨n.val, h⟩).dock = .vacant else true

/-- R118: admissions are frozen while a strip acting as common is WET. -/
def frozen (s : State) : Bool := allStrips.any fun n => actsCommon s n && (s.strip n).state = .wet

/-! ## The settings memory (11.1, R177, R178) -/

/-- What an octet that nothing has written reads as (log 11). -/
def Memory.blank : Byte := 0xFF

/-- The canonical form: addresses of the 2 KiB memory, strictly rising, and no octet equal to the blank one. -/
def Memory.wf (m : Memory) : Bool :=
  (m.map (·.1)).Pairwise (· < ·) && m.all (fun c => c.1 < 2048 && c.2 != Memory.blank)

/-- The octet at an address. -/
def Memory.read : Memory → Nat → Byte
  | [], _ => Memory.blank
  | (a, x) :: rest, i => if a = i then x else Memory.read rest i

/-- The memory with the octet at an address replaced, in canonical form. -/
def Memory.write : Memory → Nat → Byte → Memory
  | [], i, x => if x = Memory.blank then [] else [(i, x)]
  | (a, y) :: rest, i, x =>
    if a < i then (a, y) :: Memory.write rest i x
    else if a = i then (if x = Memory.blank then rest else (i, x) :: rest)
    else if x = Memory.blank then (a, y) :: rest else (i, x) :: (a, y) :: rest

/-- The memory with the octets from an address replaced. -/
def Memory.writeAll : Memory → Nat → List Byte → Memory
  | m, _, [] => m
  | m, i, x :: xs => Memory.writeAll (Memory.write m i x) (i + 1) xs

/-- `n` octets from an address. -/
def Memory.readAll (m : Memory) (i : Nat) : Nat → List Byte
  | 0 => []
  | n + 1 => Memory.read m i :: Memory.readAll m (i + 1) n

/-- The first address of a half-block: blocks of 64 octets, halves of 32 (11.2). -/
def halfAddress (block : Fin 4) (half : Fin 2) : Nat := 64 * block.val + 32 * half.val

/-- The state with the 32 octets of a half-block stored, octet `i` being `octet i`. -/
def State.storeHalf (s : State) (block : Fin 4) (half : Fin 2) (octet : Nat → Byte) : State :=
  { s with eeprom := Memory.writeAll s.eeprom (halfAddress block half) ((List.range 32).map octet) }

end Sys2Proof.Machine
end

