-- ==== Sys2Proof/Machine/Flags.lean ====
section
/-! DEFINITION. The flags of the part: the attention causes of each line, how one is raised, merged and removed, and the
ATTN output (10). -/

namespace Sys2Proof.Machine

open Sys2Proof

/-- A sled cause's number is its place in the table of 10.1. -/
def SledCause.number : SledCause → Nat
  | .isolated => 0
  | .pullReady => 1
  | .restricted => 2
  | .admitted => 3
  | .grantChanged => 4

/-- A supervisor cause's number (10.1). -/
def SupCause.number : SupCause → Nat
  | .tripLine => 0
  | .incidentClosed => 1
  | .logBusy => 2
  | .commonWet => 3
  | .meterDegraded => 4
  | .restricted => 5
  | .shortfall => 6
  | .budgetStale => 7
  | .lineFault => 8
  | .stripChange => 9
  | .settingsDone => 10

/-- A plant cause's number (10.1). -/
def PlantCause.number : PlantCause → Nat
  | .railClosed => 0
  | .shortfall => 1
  | .budgetStale => 2
  | .demandChanged => 3

/-- The number of a cause in the table of its class. -/
def AttnCause.number : AttnCause → Nat
  | .sled c => c.number
  | .sup c => c.number
  | .plant c => c.number

/-- Causes whose raising carries no detail entry (10.1). -/
def AttnCause.plain : AttnCause → Bool
  | .sled _ => false
  | .sup c => c = .tripLine || c = .shortfall || c = .budgetStale || c = .stripChange
  | .plant _ => true

/-- An entry of a cause without further contents. -/
def AttnEntry.of (cause : AttnCause) (key : Nat) : AttnEntry := ⟨cause, key, [], false⟩

/-- R169: the entry of the same cause and key keeps its place and takes the new causes and the overrun flag. -/
def AttnEntry.merge (old new : AttnEntry) : AttnEntry :=
  { old with
    causes := old.causes ++ new.causes.filter (fun c => !old.causes.contains c)
    overrun := old.overrun || new.overrun }

/-- R169: raising merges into the entry of the same cause and key, or appends at the end. -/
def addEntry : List AttnEntry → AttnEntry → List AttnEntry
  | [], e => [e]
  | x :: xs, e => if x.cause = e.cause ∧ x.key = e.key then x.merge e :: xs else x :: addEntry xs e

/-- R169: raise a cause on a line. -/
def raise (l : LineNo) (e : AttnEntry) (s : State) : State :=
  s.updAttn l fun a => { a with entries := addEntry a.entries e }

/-- Raise a supervisor cause. -/
def raiseSup (c : SupCause) (key : Nat) (s : State) : State := raise supLine (.of (.sup c) key) s

/-- Raise a plant cause. -/
def raisePlant (c : PlantCause) (s : State) : State := raise plantLine (.of (.plant c) 0) s

/-- R167: the local index of a branch in the window of its owner line. -/
def localIndex (s : State) (o b : BranchNo) : Nat := b.val - (s.window o).base

/-- R167: raise a sled cause for a branch on its owner line; a branch with no owner raises nothing. -/
def raiseOwner (b : BranchNo) (c : SledCause) (added : List BranchCause) (s : State) : State :=
  match (s.br b).owner with
  | none => s
  | some o => raise (sledLine o) ⟨.sled c, localIndex s o b, added, false⟩ s

/-- A cause is pending on a line. -/
def isPending (a : AttnLine) (c : AttnCause) : Bool := a.entries.any fun e => e.cause = c

/-- The detail list of a cause, in order of raising. -/
def detailList (a : AttnLine) (c : AttnCause) : List AttnEntry := a.entries.filter fun e => e.cause = c

/-- The bit of a cause number in a two-octet set (10.1). -/
def causeBit (n : Nat) : BitVec 16 := 1#16 <<< n

/-- The pending set as bits (R170). -/
def pendingBits (a : AttnLine) : BitVec 16 :=
  a.entries.foldl (fun acc e => acc ||| causeBit e.cause.number) 0

/-- R169: ATTN is asserted while a pending cause is in the mask. -/
def attnAsserted (s : State) (l : LineNo) : Bool := pendingBits (s.attnOf l) &&& (s.attnOf l).mask != 0

/-- The causes of a class from the highest priority to the lowest (10.1). -/
def LineClass.causes : LineClass → List AttnCause
  | .sled => [.sled .isolated, .sled .pullReady, .sled .restricted, .sled .admitted, .sled .grantChanged]
  | .supervisor =>
    [.sup .tripLine, .sup .incidentClosed, .sup .logBusy, .sup .commonWet, .sup .meterDegraded, .sup .restricted,
      .sup .shortfall, .sup .budgetStale, .sup .lineFault, .sup .stripChange, .sup .settingsDone]
  | .plant => [.plant .railClosed, .plant .shortfall, .plant .budgetStale, .plant .demandChanged]

/-- R170: the highest-priority pending cause that is in the mask. -/
def highestCause (cls : LineClass) (a : AttnLine) : Option AttnCause :=
  cls.causes.find? fun c => isPending a c && a.mask.getLsbD c.number

/-- Remove a cause with its whole detail list. -/
def dropCause (l : LineNo) (c : AttnCause) (s : State) : State :=
  s.updAttn l fun a => { a with entries := a.entries.filter fun e => e.cause ≠ c }

/-- R171: CLEAR_ATTN leaves STRIP_CHANGE, and TRIP_LINE while the trip level is ASSERTED. -/
def clearable (tripAsserted : Bool) (c : AttnCause) : Bool :=
  match c with
  | .sup .stripChange => false
  | .sup .tripLine => !tripAsserted
  | .sup _ | .sled _ | .plant _ => true

/-- R171: remove every named cause that may be removed. -/
def clearCauses (l : LineNo) (set : BitVec 16) (s : State) : State :=
  s.updAttn l fun a =>
    { a with entries := a.entries.filter fun e => !(set.getLsbD e.cause.number && clearable s.iso.tripAsserted e.cause) }

end Sys2Proof.Machine
end

