-- ==== Sys2Proof/Machine/Operands.lean ====
section
/-! DEFINITION. The octets of the lines and of the settings blocks: byte order, the CRC-16, the KINDs and their bodies,
the translation of an index through a branch window, and the codes of 9.7. -/

namespace Sys2Proof.Machine

open Sys2Proof

/-! ## Byte order: most significant octet first (R157, 9.7) -/

/-- One octet of a number. -/
def octet (n : Nat) : Byte := BitVec.ofNat 8 n

/-- A number in `k` octets, most significant first. -/
def toOctets : Nat → Nat → List Byte
  | 0, _ => []
  | k + 1, n => octet (n / 256 ^ k) :: toOctets k n

/-- A signed number in `k` octets, two's complement. -/
def toOctetsInt (k : Nat) (n : Int) : List Byte := toOctets k (n % (256 ^ k : Nat)).toNat

/-- Octet `i` of a body, 0 beyond its end. -/
def octetAt (body : List Byte) (i : Nat) : Nat := (body.getD i 0).toNat

/-- A number of `k` octets at offset `i` of a body. -/
def numberAt (body : List Byte) (i : Nat) : Nat → Nat
  | 0 => 0
  | k + 1 => octetAt body i * 256 ^ k + numberAt body (i + 1) k

/-- A two-octet set of causes at offset `i`. -/
def setAt (body : List Byte) (i : Nat) : BitVec 16 := BitVec.ofNat 16 (numberAt body i 2)

/-! ## CRC-16 (R157): polynomial 0x1021, initial value 0xFFFF, most significant bit first, no inversion -/

/-- One bit of the CRC. -/
def crcShift (c : BitVec 16) : BitVec 16 := if c.getLsbD 15 then (c <<< 1) ^^^ 0x1021#16 else c <<< 1

/-- One octet of the CRC. -/
def crcOctet (c : BitVec 16) (x : Byte) : BitVec 16 :=
  crcShift (crcShift (crcShift (crcShift (crcShift (crcShift (crcShift (crcShift (c ^^^ (x.setWidth 16 <<< 8)))))))))

/-- The CRC-16 of a run of octets. -/
def crc16 (xs : List Byte) : BitVec 16 := xs.foldl crcOctet 0xFFFF#16

/-- The CHECK of a frame: over LEN through the end of BODY (R157). -/
def frameCheck (kind tag : Byte) (body : List Byte) : BitVec 16 :=
  crc16 (octet (body.length + 2) :: kind :: tag :: body)

/-! ## KINDs (R161) -/

inductive Kind where
  | readBranch | flowRequest | transfer | release | readAttn | clearAttn | setAttnMask | setWindow | setBranch | admitBay
  | isolate | clearCause | restore | readStrips | readMeters | readRound | takeIncident | returnIncident | logResume
  | storeRead | storeWrite | restart | budget | plantStop | plantResume | readDemand
  deriving DecidableEq, Repr

/-- R161: the defined KINDs. -/
def Kind.ofOctet (x : Byte) : Option Kind :=
  match x.toNat with
  | 0x01 => some .readBranch
  | 0x02 => some .flowRequest
  | 0x03 => some .transfer
  | 0x04 => some .release
  | 0x05 => some .readAttn
  | 0x06 => some .clearAttn
  | 0x07 => some .setAttnMask
  | 0x10 => some .setWindow
  | 0x11 => some .setBranch
  | 0x12 => some .admitBay
  | 0x13 => some .isolate
  | 0x14 => some .clearCause
  | 0x15 => some .restore
  | 0x16 => some .readStrips
  | 0x17 => some .readMeters
  | 0x18 => some .readRound
  | 0x19 => some .takeIncident
  | 0x1A => some .returnIncident
  | 0x1B => some .logResume
  | 0x1C => some .storeRead
  | 0x1D => some .storeWrite
  | 0x1E => some .restart
  | 0x20 => some .budget
  | 0x21 => some .plantStop
  | 0x22 => some .plantResume
  | 0x23 => some .readDemand
  | _ => none

/-- The octet of a KIND (R161). -/
def Kind.code : Kind → Byte
  | .readBranch => 0x01
  | .flowRequest => 0x02
  | .transfer => 0x03
  | .release => 0x04
  | .readAttn => 0x05
  | .clearAttn => 0x06
  | .setAttnMask => 0x07
  | .setWindow => 0x10
  | .setBranch => 0x11
  | .admitBay => 0x12
  | .isolate => 0x13
  | .clearCause => 0x14
  | .restore => 0x15
  | .readStrips => 0x16
  | .readMeters => 0x17
  | .readRound => 0x18
  | .takeIncident => 0x19
  | .returnIncident => 0x1A
  | .logResume => 0x1B
  | .storeRead => 0x1C
  | .storeWrite => 0x1D
  | .restart => 0x1E
  | .budget => 0x20
  | .plantStop => 0x21
  | .plantResume => 0x22
  | .readDemand => 0x23

/-- R161: the classes of line a KIND is taken on. -/
def Kind.takenOn : Kind → LineClass → Bool
  | .readBranch, _ | .readAttn, _ | .clearAttn, _ | .setAttnMask, _ => true
  | .flowRequest, c | .transfer, c | .release, c => c != .plant
  | .setWindow, c | .setBranch, c | .admitBay, c | .isolate, c | .clearCause, c | .restore, c | .readStrips, c
  | .readMeters, c | .takeIncident, c | .returnIncident, c | .logResume, c | .storeRead, c | .storeWrite, c
  | .restart, c => c == .supervisor
  | .readRound, c | .readDemand, c => c != .sled
  | .budget, c | .plantStop, c | .plantResume, c => c == .plant

/-- 9.7: the length of the BODY a KIND requires. -/
def Kind.bodyLength : Kind → Nat
  | .readBranch | .release | .admitBay | .isolate | .takeIncident | .returnIncident => 1
  | .flowRequest | .setWindow | .budget => 3
  | .transfer => 4
  | .clearAttn | .setAttnMask | .clearCause | .readMeters | .storeRead => 2
  | .setBranch => 9
  | .storeWrite => 34
  | .readAttn | .restore | .readStrips | .readRound | .logResume | .restart | .plantStop | .plantResume
  | .readDemand => 0

/-- The status codes of R163. -/
inductive Status where
  | ok | busy | noTarget | notServed | overlap | notReady | stillWet | incidentOpen | tripAsserted | noSlot | wrongLine
  | unknownKind
  deriving DecidableEq, Repr

/-- R163: the code of a status. -/
def Status.code : Status → Byte
  | .ok => 0x00
  | .busy => 0x01
  | .noTarget => 0x02
  | .notServed => 0x03
  | .overlap => 0x04
  | .notReady => 0x05
  | .stillWet => 0x06
  | .incidentOpen => 0x07
  | .tripAsserted => 0x08
  | .noSlot => 0x09
  | .wrongLine => 0x0A
  | .unknownKind => 0x0B

/-! ## Translation of an index (R165) -/

inductive IndexResult where
  | branch (b : BranchNo)
  | rail
  | outside
  deriving DecidableEq, Repr

/-- The branch of that number, when there is one. -/
def branchOf (n : Nat) : IndexResult := if h : n < 12 then .branch ⟨n, h⟩ else .outside

/-- R165: an index as the window in force translates it. -/
def translate (s : State) (l : LineNo) (i : Nat) : IndexResult :=
  if h : l.val < 12 then
    let w := s.window ⟨l.val, h⟩
    if i < w.span then branchOf (w.base + i) else .outside
  else if l.val = 12 then (if i = 0xFF then .rail else branchOf i)
  else (if i = 0xFF then .rail else .outside)

/-- A request that takes only a branch. -/
def forBranch (r : IndexResult) (f : BranchNo → Request) : Option Request :=
  match r with
  | .branch b => some (f b)
  | .rail | .outside => none

/-- A request that takes a branch or the rail. -/
def forTarget (r : IndexResult) (f : Target → Request) : Option Request :=
  match r with
  | .branch b => some (f (.branch b))
  | .rail => some (f .rail)
  | .outside => none

/-- R162, test 5, and the layouts of 9.7: the translated request, or none where an index fails. READ_BRANCH and
SET_WINDOW are served by the Line Interface and give none here. -/
def parseRequest (s : State) (l : LineNo) (k : Kind) (body : List Byte) : Option Request :=
  let index := translate s l (octetAt body 0)
  match k with
  | .readBranch => none
  | .flowRequest => forBranch index fun b => .flowRequest b (numberAt body 1 2)
  | .transfer =>
    match index, translate s l (octetAt body 1) with
    | .branch i, .branch j => some (.transfer i j (numberAt body 2 2))
    | _, _ => none
  | .release => forBranch index .release
  | .readAttn => some .readAttn
  | .clearAttn => some (.clearAttn (setAt body 0))
  | .setAttnMask => some (.setAttnMask (setAt body 0))
  | .setWindow => none
  | .setBranch =>
    forBranch index fun b =>
      .setBranch b (octetAt body 1) (numberAt body 2 2) (numberAt body 4 2) (numberAt body 6 2) (octetAt body 8 != 0)
  | .admitBay => forBranch index .admitBay
  | .isolate => forTarget index .isolate
  | .clearCause => forTarget index fun t => .clearCause t (octetAt body 1)
  | .restore => some .restore
  | .readStrips => some .readStrips
  | .readMeters => some (.readMeters (octetAt body 0) (octetAt body 1))
  | .readRound => some .readRound
  | .takeIncident => some (.takeIncident (octetAt body 0))
  | .returnIncident => some (.returnIncident (octetAt body 0))
  | .logResume => some .logResume
  | .storeRead => some (.storeRead (octetAt body 0) (octetAt body 1))
  | .storeWrite => some (.storeWrite (octetAt body 0) (octetAt body 1) ((body.drop 2).take 32))
  | .restart => some .restart
  | .budget => some (.budget (numberAt body 0 2) ((body.getD 2 0).getLsbD 0))
  | .plantStop => some .plantStop
  | .plantResume => some .plantResume
  | .readDemand => some .readDemand

/-! ## Codes of 9.7 -/

/-- The code of a dock state in a reply. -/
def DockState.code : DockState → Nat
  | .vacant => 0
  | .seated => 1
  | .held => 2
  | .priming => 3
  | .admitted => 4
  | .adopting => 5
  | .releasing => 6
  | .draining => 7
  | .pullReady => 8
  | .isolating => 9
  | .isolated => 10

/-- The code of a rail state. -/
def RailState.code : RailState → Nat
  | .opened => 0
  | .closing => 1
  | .closed => 2
  | .opening => 3

/-- The code of an LED pattern. -/
def LedPattern.code : LedPattern → Nat
  | .off => 0
  | .slow => 1
  | .fast => 2
  | .steady => 3

/-- The code of a strip state. -/
def stripCode : StripState → Nat
  | .dry => 0
  | .wet => 1
  | .broken => 2

/-- The code of a balance state. -/
def BalanceState.code : BalanceState → Nat
  | .clear => 0
  | .watch => 1
  | .suspect => 2
  | .confirmed => 3

/-- The code of a branch cause. -/
def BranchCause.code : BranchCause → Nat
  | .trayWet => 0
  | .balance => 1
  | .gross => 2
  | .backflow => 3
  | .primeFail => 4
  | .hotPull => 5
  | .earlyPull => 6
  | .valvePassing => 7
  | .located => 8
  | .commanded => 9
  | .rail => 10

/-- The branch cause of a code. -/
def BranchCause.ofCode (n : Nat) : Option BranchCause :=
  match n with
  | 0 => some .trayWet
  | 1 => some .balance
  | 2 => some .gross
  | 3 => some .backflow
  | 4 => some .primeFail
  | 5 => some .hotPull
  | 6 => some .earlyPull
  | 7 => some .valvePassing
  | 8 => some .located
  | 9 => some .commanded
  | 10 => some .rail
  | _ => none

/-- The code of a rail cause. -/
def RailCause.code : RailCause → Nat
  | .railBalance => 0
  | .commonRail => 1
  | .tripLine => 2
  | .plantStop => 3
  | .commanded => 4

/-- The rail cause of a code. -/
def RailCause.ofCode (n : Nat) : Option RailCause :=
  match n with
  | 0 => some .railBalance
  | 1 => some .commonRail
  | 2 => some .tripLine
  | 3 => some .plantStop
  | 4 => some .commanded
  | _ => none

/-- The code of a cause of either kind. -/
def Cause.code : Cause → Nat
  | .branch c => c.code
  | .rail c => c.code

/-- A branch set with one bit per cause at the bit of its code. -/
def branchSetBits (cs : List BranchCause) : Nat := (cs.foldl (fun acc c => acc ||| causeBit c.code) 0).toNat

/-- A rail set with one bit per cause at the bit of its code. -/
def railSetBits (cs : List RailCause) : Nat := (cs.foldl (fun acc c => acc ||| causeBit c.code) 0).toNat

/-- The code of an age state. -/
def AgeState.code : AgeState → Nat
  | .fresh => 0
  | .stale => 1
  | .fallenBack => 2

/-- The code of a slot state. -/
def SlotState.code : SlotState → Nat
  | .free => 0
  | .opened => 1
  | .closed => 2

/-- The code of a locate outcome. -/
def LocateOutcome.code : LocateOutcome → Nat
  | .none => 0
  | .branches => 1
  | .rail => 2
  | .alarmOnly => 3

/-- The code of a load's end reason. -/
def EndReason.code : EndReason → Nat
  | .stop => 0
  | .lastBlock => 1
  | .badCheck => 2
  | .noMemory => 3

/-- The code of a write result. -/
def WriteResult.code : WriteResult → Nat
  | .none => 0
  | .done => 1
  | .failed => 2

/-- A flag at bit `n`. -/
def flagBit (b : Bool) (n : Nat) : Nat := if b then 2 ^ n else 0

/-- A number that may be absent, with its code for absent. -/
def orCode (o : Option Nat) (absent : Nat) : Nat := o.getD absent

/-- The octet of an incident target: branch, 0xFF the rail (9.7). -/
def Target.code : Target → Nat
  | .branch b => b.val
  | .rail => 0xFF

/-! ## Replies (R163) -/

/-- The KIND octet of a reply: the request's KIND with its most significant bit set. -/
def replyKind (kind : Byte) : Byte := kind ||| 0x80

/-- Put a reply into the service place of a line: its transmission begins (R163). -/
def startReply (l : LineNo) (kind tag : Byte) (st : Status) (rest : List Byte) (s : State) : State :=
  s.updLine l fun ln => { ln with service := .sending ⟨replyKind kind, tag, st.code :: rest, false⟩ }

/-- The octets of a reply frame as they leave the part (R157). -/
def replyOctets (r : Reply) : List Byte :=
  0xC3 :: octet (r.body.length + 2) :: r.kind :: r.tag :: r.body ++ toOctets 2 (frameCheck r.kind r.tag r.body).toNat

end Sys2Proof.Machine
end

