-- ==== Sys2Proof/Machine/Dock.lean ====
section
/-! DEFINITION. What a dock transition does to its own branch record: the LED, the valve duty, the zeroing at the exits
from the participating states, and the entry actions of each dock state (01, 04). -/

namespace Sys2Proof.Machine

open Sys2Proof

/-! ## Valve duty of a branch (R78) -/

/-- R78: the feed-forward duty. -/
def feedForward (grant fopen : Nat) : Nat := min 1000 (grant * 1000 / fopen)

/-- R78: the commanded duty of a branch valve; 0 while the branch does not participate, holds a cause, or has no grant. -/
def Branch.duty (br : Branch) : Nat :=
  if br.dock.participating && br.causes.isEmpty && br.grant != 0 then
    (clampInt 0 1000 (feedForward br.grant br.fopen + br.trim)).toNat
  else 0

/-- R78, R80: recompute the commanded duty; with a grant of 0 the trim is 0. -/
def Branch.redrive (br : Branch) : Branch :=
  { br with commanded := br.duty, trim := if br.grant = 0 then 0 else br.trim }

/-! ## Dock state and LED (R7) -/

/-- R7: the LED pattern of a dock state. -/
def DockState.led : DockState → LedPattern
  | .vacant | .priming | .admitted | .adopting | .releasing | .draining => .off
  | .seated | .held => .slow
  | .pullReady => .steady
  | .isolating | .isolated => .fast

/-- Enter a dock state: the LED pattern changes at the same event, and a new pattern starts with its active half. -/
def Branch.enter (d : DockState) (br : Branch) : Branch :=
  { br with dock := d, led := d.led, ledPhase := if d.led = br.led then br.ledPhase else 0 }

/-- R20, R62, R78: what leaving the participating states sets to 0 or removes. -/
def Branch.zeroed (br : Branch) : Branch :=
  { br with grant := 0, restricted := none, takeUp := 0, trim := 0, commanded := 0 }

/-- R93: the account at 0 and CLEAR. -/
def Branch.clearAccount (br : Branch) : Branch := { br with account := Account.zero }

/-! ## Entry actions -/

/-- R9: entry into VACANT. -/
def Branch.toVacant (br : Branch) : Branch :=
  { br.enter .vacant with
    dockTimer := none
    clearance := false
    primeGood := 0
    idle := 0
    request := br.floor
    restricted := none
    takeUp := 0
    trim := 0
    account := Account.zero }

/-- R10: entry into SEATED. -/
def Branch.toSeated (br : Branch) : Branch :=
  { br.enter .seated with dockTimer := none, clearance := false, account := Account.zero }

/-- R11: entry into HELD. An ADMIT sets the clearance at entry; a Seat Settle of 0 expires at the entry event. -/
def Branch.toHeld (seatSettle : Nat) (byAdmit : Bool) (br : Branch) : Branch :=
  { br.enter .held with
    clearance := byAdmit || (!br.hold && seatSettle == 0)
    primeGood := 0
    idle := 0
    account := Account.zero
    dockTimer := if byAdmit || br.hold || seatSettle == 0 then none else some (seatSettle * 1000) }

/-- R15, R80, R93: entry into PRIMING. From ADOPTING the grant is lowered to the least of itself, Prime Flow and the cap,
and both counts are 0 (R19). -/
def Branch.toPriming (p : Params) (br : Branch) : Branch :=
  ({ br.enter .priming with
    dockTimer := some (p.primeTimeout * 1000)
    primeGood := 0
    idle := if br.dock = DockState.adopting then 0 else br.idle
    clearance := false
    trim := 0
    account := Account.zero
    grant := if br.dock = DockState.adopting then min br.grant (min p.primeFlow br.cap) else br.grant }).redrive

/-- R16, R18, R19: entry into ADMITTED. -/
def Branch.toAdmitted (br : Branch) : Branch :=
  { br.enter .admitted with dockTimer := none, primeGood := 0, idle := 0 }

/-- R21: entry into RELEASING. -/
def Branch.toReleasing (p : Params) (br : Branch) : Branch :=
  { (br.zeroed).enter .releasing with dockTimer := some (p.closeTime * 1000) }

/-- R22: entry into DRAINING. -/
def Branch.toDraining (p : Params) (br : Branch) : Branch :=
  { br.enter .draining with dockTimer := some (p.drainLimit * 1000) }

/-- R24, R14: entry into PULL_READY. -/
def Branch.toPullReady (br : Branch) : Branch := { br.enter .pullReady with dockTimer := none }

/-- R27: entry into ISOLATED. -/
def Branch.toIsolated (br : Branch) : Branch :=
  { br.enter .isolated with dockTimer := none, account := Account.zero }

/-- R25: the response to a cause added to the set. `close` is the full Close Time, or none during loading, when the timer
stays stopped (R29). -/
def Branch.respond (close : Option Nat) (br : Branch) : Branch :=
  match br.dock with
  | .priming | .admitted | .adopting => { (br.zeroed).enter .isolating with dockTimer := close }
  | .releasing => br.enter .isolating
  | .vacant | .seated | .held | .draining | .pullReady => br.toIsolated
  | .isolating | .isolated => br

/-- The full Close Time as a dock timer is started with it; stopped during loading (R29). -/
def closeTimer (s : State) : Option Nat := if s.loader.loading then none else some (s.params.closeTime * 1000)

end Sys2Proof.Machine
end

