-- ==== Sys2Proof/Machine/Incidents.lean ====
section
/-! DEFINITION. The Incident Ring: how a leak-class cause opens a record, joins one or is lost, and how a record grows and
closes (08). -/

namespace Sys2Proof.Machine

open Sys2Proof

/-- R124, 7.2: the leak-class causes of a branch. -/
def BranchCause.leak : BranchCause → Bool
  | .commanded | .rail => false
  | .trayWet | .balance | .gross | .backflow | .primeFail | .hotPull | .earlyPull | .valvePassing | .located => true

/-- R150, 7.2: the leak-class causes of the rail. -/
def RailCause.leak : RailCause → Bool
  | .railBalance | .commonRail | .tripLine => true
  | .plantStop | .commanded => false

/-- The incident reference of a target. -/
def incidentOf (s : State) : Target → Option SlotNo
  | .branch b => (s.br b).incident
  | .rail => s.rail.incident

/-- The lost flag of a target. -/
def lostOf (s : State) : Target → Bool
  | .branch b => (s.br b).lost
  | .rail => s.rail.lost

/-- The integrator of a target. -/
def integratorOf (s : State) : Target → Nat
  | .branch b => (s.br b).account.integrator
  | .rail => s.rail.account.integrator

/-- Set the incident reference and the lost flag of a target. -/
def setIncident (t : Target) (ref : Option SlotNo) (lost : Bool) (s : State) : State :=
  match t with
  | .branch b => s.updBranch b fun br => { br with incident := ref, lost := lost }
  | .rail => s.updRail fun r => { r with incident := ref, lost := lost }

/-- R145: the target stands in ISOLATED, or the rail in CLOSED. -/
def standsClosed (s : State) : Target → Bool
  | .branch b => (s.br b).dock = .isolated
  | .rail => s.rail.state = .closed

/-- R149, R150: STILL_WET_AT_CLOSE. -/
def wetAtClose (s : State) : Target → Bool
  | .branch b => trayWet s b
  | .rail => frozen s

/-- R149, R150: FLOW_AT_CLOSE. -/
def flowAtClose (s : State) : Target → Bool
  | .branch b => supplyVolume s b != 0
  | .rail => inletVolume s != 0

/-- R149, R150: the slot whose OPEN record is the target's. -/
def openSlot (s : State) (t : Target) : Option SlotNo :=
  match incidentOf s t with
  | none => none
  | some k => if (s.slot k).state = .opened then some k else none

/-- R149, R150: close the target's OPEN record, when there is one, and raise INCIDENT_CLOSED. -/
def closeRecord (t : Target) (s : State) : State :=
  match openSlot s t with
  | none => s
  | some k =>
    raiseSup .incidentClosed k.val
      (s.updSlot k fun r =>
        { r with
          state := .closed
          seqClose := some s.meter.snap.seq
          stillWet := wetAtClose s t
          flow := flowAtClose s t })

/-- The record R145 writes at an opening. -/
def openedSlot (s : State) (t : Target) (c : Cause) (byContact : Bool) : Slot where
  state := .opened
  target := some t
  opening := some c
  causes := [c]
  seqOpen := s.meter.snap.seq
  seqClose := none
  integrator := integratorOf s t
  loss := 0
  hotPull := byContact
  stillWet := false
  flow := false
  lostBefore := lostOf s t

/-- R145: open a record into the slot at the Fill Index; a target that already stands closed has it closed at once. -/
def openRecord (t : Target) (c : Cause) (byContact : Bool) (s : State) : State :=
  let k := s.ring.fill
  let r := openedSlot s t c byContact
  let s := s.updSlot k fun _ => r
  let s := s.updRing fun g => { g with fill := g.fill + 1 }
  let s := setIncident t (some k) false s
  if standsClosed s t then closeRecord t s else s

/-- R146: a lost incident. `suspend` is whether it came from an absent reference. -/
def loseIncident (t : Target) (suspend : Bool) (s : State) : State :=
  let s := setIncident t (incidentOf s t) true s
  let s := s.updRing fun g => { g with suspended := g.suspended || suspend }
  raiseSup .logBusy t.code s

/-- R147: a cause joins a record once; the opening of a contact sets the HOT_PULL flag. -/
def Slot.join (c : Cause) (byContact : Bool) (r : Slot) : Slot :=
  { r with
    causes := if r.causes.contains c then r.causes else r.causes ++ [c]
    hotPull := r.hotPull || byContact }

/-- R144: the ring's four cases for a leak-class cause added to a target. -/
def ringAdd (t : Target) (c : Cause) (byContact : Bool) (s : State) : State :=
  match incidentOf s t with
  | some k =>
    match (s.slot k).state with
    | .opened => s.updSlot k (Slot.join c byContact)
    | .closed | .free => loseIncident t false s
  | none =>
    if !s.ring.suspended && (s.slot s.ring.fill).state = .free then openRecord t c byContact s
    else loseIncident t true s

/-- R147: a contact of the branch opens while its record is OPEN. -/
def markHotPull (b : BranchNo) (s : State) : State :=
  match openSlot s (.branch b) with
  | none => s
  | some k => s.updSlot k fun r => { r with hotPull := true }

/-- R148: the positive part of an imbalance is added to the estimated loss of the target's OPEN record. -/
def addLoss (t : Target) (d : Int) (s : State) : State :=
  match openSlot s t with
  | none => s
  | some k => s.updSlot k fun r => { r with loss := min 16777215 (r.loss + d.toNat) }

end Sys2Proof.Machine
end

