-- ==== Sys2Proof/Machine/Isolation.lean ====
section
/-! DEFINITION. Causes entering and leaving the isolation sets, the admission gate, the common role of the strips, and the
rail states: the one place where a cause is added or removed (01, 06, 07). -/

namespace Sys2Proof.Machine

open Sys2Proof

/-! ## The admission gate (R13, R118) -/

/-- R13: the conditions on which a bay in HELD enters PRIMING. -/
def gateOpen (s : State) (b : BranchNo) : Bool :=
  (s.br b).dock = .held && (s.br b).clearance && s.rail.state = .opened && !s.loader.loading &&
    (s.br b).causes.isEmpty && !frozen s

/-- R15: entry into PRIMING. -/
def enterPriming (b : BranchNo) (s : State) : State := s.updBranch b (Branch.toPriming s.params)

/-- R13: the gate of one bay, tested at the setting of its clearance. -/
def gate (b : BranchNo) (s : State) : State := if gateOpen s b then enterPriming b s else s

/-- R13, R118: the gate of every bay, tested at the end of a freeze and at the end of loading. -/
def gateAll (s : State) : State := forBranches gate s

/-! ## Causes of a branch (R124, R25) -/

/-- R124: add a cause to a branch: the Dock Controller responds, ISOLATED is raised on the owner line, and a leak-class
cause goes to the Incident Ring. A cause already in the set changes nothing. -/
def addCauseCore (b : BranchNo) (c : BranchCause) (byContact : Bool) (s : State) : State :=
  if (s.br b).causes.contains c then s
  else
    let s := s.updBranch b fun br => Branch.respond (closeTimer s) { br with causes := br.causes ++ [c] }
    let s := raiseOwner b .isolated [c] s
    if c.leak then ringAdd (.branch b) (.branch c) byContact s else s

/-- R5, R126, R115, R118: a bay has left VACANT. While the rail is not OPEN it receives RAIL; its tray strip gives up the
common role, which may end the freeze. -/
def leftVacant (b : BranchNo) (s : State) : State :=
  let s := if s.rail.state = .opened then s else addCauseCore b .rail false s
  gateAll s

/-- R124, R126: add a cause to a branch; one added in VACANT takes the bay out of VACANT. -/
def addBranchCause (b : BranchNo) (c : BranchCause) (byContact : Bool) (s : State) : State :=
  let t := addCauseCore b c byContact s
  if (s.br b).dock = .vacant && (t.br b).dock != .vacant then leftVacant b t else t

/-! ## Causes of the rail (R124, R130 to R133, R141) -/

/-- The cause RAIL for every occupied branch, in rising branch number (R126). -/
def addRailToOccupied (s : State) : State :=
  forBranches (fun b s => if (s.br b).dock = .vacant then s else addCauseCore b .rail false s) s

/-- R82, R130, R133: entry into CLOSING. The timer is not started during loading (R143). -/
def enterClosing (s : State) : State :=
  let s := s.updRail fun r =>
    { r with
      state := .closing
      timer := if s.loader.loading then none else some (s.params.railCloseTime * 1000) }
  s.updValves fun v => { v with railCommanded := 0 }

/-- R82, R133: entry into OPENING. The timer is not started during loading (R143). -/
def enterOpening (s : State) : State :=
  let s := s.updRail fun r =>
    { r with
      state := .opening
      timer := if s.loader.loading then none else some (s.params.railOpenTime * 1000) }
  s.updValves fun v => { v with railCommanded := 1000 }

/-- R141: TRIP_OUT is asserted while the rail set holds RAIL_BALANCE or COMMON_RAIL. -/
def tripOutOf (cs : List RailCause) : Bool := cs.contains .railBalance || cs.contains .commonRail

/-- R141: bring TRIP_OUT into line with the rail set. -/
def driveTripOut (s : State) : State := s.updIso fun i => { i with tripOut := tripOutOf s.rail.causes }

/-- R130, R133: what an added cause does to the rail state. -/
def railRespond (s : State) : State :=
  match s.rail.state with
  | .opened => addRailToOccupied (enterClosing s)
  | .opening => enterClosing s
  | .closing | .closed => s

/-- R124: add a cause to the rail: the rail responds, TRIP_OUT follows, and a leak-class cause goes to the Incident Ring. -/
def addRailCause (c : RailCause) (s : State) : State :=
  if s.rail.causes.contains c then s
  else
    let s := s.updRail fun r => { r with causes := r.causes ++ [c] }
    let s := driveTripOut (railRespond s)
    if c.leak then ringAdd .rail (.rail c) false s else s

/-! ## The common strips (R115, R117, R119) -/

/-- R117, R119: start or restart the locate. -/
def startLocate (n : StripNo) (s : State) : State :=
  s.updDrip fun d => { d with running := true, windowsLeft := s.params.locateHold, locateStrip := some n }

/-- R117: a strip acting as common enters WET, or takes the common role while WET. -/
def commonWet (n : StripNo) (s : State) : State :=
  let s := raiseSup .commonWet n.val s
  match s.params.wetAction with
  | .alarm => s
  | .locate => startLocate n s
  | .rail => addRailCause .commonRail s

/-! ## Entries that reach beyond the branch record -/

/-- R9, R115: entry into VACANT; a WET tray strip takes the common role. -/
def enterVacant (b : BranchNo) (s : State) : State :=
  let s := s.updBranch b Branch.toVacant
  if trayWet s b && !s.loader.loading then commonWet (trayStrip b) s else s

/-- R10: entry into SEATED. -/
def enterSeated (b : BranchNo) (s : State) : State := s.updBranch b Branch.toSeated

/-- R11, R13: entry into HELD, and the gate when the clearance is set at entry. -/
def enterHeld (b : BranchNo) (byAdmit : Bool) (s : State) : State :=
  let s := s.updBranch b (Branch.toHeld s.params.seatSettle byAdmit)
  if (s.br b).clearance then gate b s else s

/-- R24: entry into PULL_READY raises PULL_READY on the owner line. -/
def enterPullReady (b : BranchNo) (s : State) : State :=
  raiseOwner b .pullReady [] (s.updBranch b Branch.toPullReady)

/-- R18: entry into ADMITTED raises ADMITTED on the owner line. -/
def enterAdmitted (b : BranchNo) (s : State) : State :=
  raiseOwner b .admitted [] (s.updBranch b Branch.toAdmitted)

/-- R27, R28: HELD, SEATED or VACANT by the contacts. -/
def enterByContacts (b : BranchNo) (s : State) : State :=
  if !(s.br b).present then enterVacant b s
  else if (s.br b).latched then enterHeld b false s
  else enterSeated b s

/-! ## Removal (R125 to R133) -/

/-- R125: remove a cause from a branch; the last one takes a bay in ISOLATED out by R27. -/
def removeBranchCause (b : BranchNo) (c : BranchCause) (s : State) : State :=
  if (s.br b).causes.contains c then
    let s := s.updBranch b fun br => { br with causes := br.causes.filter (· ≠ c) }
    if (s.br b).causes.isEmpty && (s.br b).dock = .isolated then enterByContacts b s else s
  else s

/-- R125, R132: remove a cause from the rail; the last one takes a CLOSED rail to OPENING. -/
def removeRailCause (c : RailCause) (s : State) : State :=
  if s.rail.causes.contains c then
    let s := driveTripOut (s.updRail fun r => { r with causes := r.causes.filter (· ≠ c) })
    if s.rail.causes.isEmpty && s.rail.state = .closed then enterOpening s else s
  else s

/-- R132: entry into CLOSED, and on to OPENING when the set is empty. -/
def enterClosed (s : State) : State :=
  let s := s.updRail fun r => { r with state := .closed, timer := none, account := Account.zero }
  let s := closeRecord .rail s
  let s := raisePlant .railClosed s
  if s.rail.causes.isEmpty then enterOpening s else s

/-- R126, R133: entry into OPEN; RAIL leaves every set that holds it, in rising branch number, while the rail stays OPEN
(log 19). -/
def enterOpened (s : State) : State :=
  let s := s.updRail fun r => { r with state := .opened, timer := none }
  forBranches (fun b s => if s.rail.state = .opened then removeBranchCause b .rail s else s) s

/-! ## A contact that opens (R17 to R26) -/

/-- R17, R18, R19, R21, R23, R26: the cause a contact opening adds in the dock states that answer it with one. -/
def contactCause (d : DockState) : Option BranchCause :=
  match d with
  | .priming | .admitted | .adopting | .releasing | .isolating => some .hotPull
  | .draining => some .earlyPull
  | .vacant | .seated | .held | .pullReady | .isolated => none

/-- A contact of an occupied bay opens: the cause it adds, and the HOT_PULL flag of an OPEN record (R147). -/
def contactOpened (b : BranchNo) (s : State) : State :=
  match contactCause (s.br b).dock with
  | some c => markHotPull b (addBranchCause b c true s)
  | none => markHotPull b s

end Sys2Proof.Machine
end

