-- ==== Sys2Proof/Machine/Meter.lean ====
section
/-! DEFINITION. The Meter Unit: counting of pickup edges, the capture and conversion of a window, and channel health (02). -/

namespace Sys2Proof.Machine

open Sys2Proof

/-- What a sample shows against the last one (R30). -/
inductive Edge where
  | same | forward | reverse | invalid
  deriving DecidableEq, Repr

/-- R30: the table of the level pairs AB. -/
def classify (last now : Bool × Bool) : Edge :=
  match last, now with
  | (false, false), (true, false) => .forward
  | (true, false), (true, true) => .forward
  | (true, true), (false, true) => .forward
  | (false, true), (false, false) => .forward
  | (false, false), (false, true) => .reverse
  | (false, true), (true, true) => .reverse
  | (true, true), (true, false) => .reverse
  | (true, false), (false, false) => .reverse
  | (false, false), (true, true) => .invalid
  | (true, true), (false, false) => .invalid
  | (true, false), (false, true) => .invalid
  | (false, true), (true, false) => .invalid
  | (false, false), (false, false) => .same
  | (true, false), (true, false) => .same
  | (true, true), (true, true) => .same
  | (false, true), (false, true) => .same

/-- R30, R31, R32: one edge into the accumulator, held within -32767 to 32767. -/
def MeterChannel.count (ch : MeterChannel) (e : Edge) : MeterChannel :=
  match e with
  | .same => ch
  | .forward => if ch.acc = 32767 then { ch with overrange := true } else { ch with acc := ch.acc + 1 }
  | .reverse => if ch.acc = -32767 then { ch with overrange := true } else { ch with acc := ch.acc - 1 }
  | .invalid => { ch with qerr := true }

/-- R30, R33: one sample of a channel; before counting starts nothing is compared. -/
def MeterChannel.sample (now : Bool × Bool) (ch : MeterChannel) : MeterChannel :=
  match ch.last with
  | none => ch
  | some last => { ch.count (classify last now) with last := some now }

/-- The level pair of channel `c`. -/
def pairAt (a b : BitVec 26) (c : ChannelNo) : Bool × Bool := (a.getLsbD c.val, b.getLsbD c.val)

/-- A table of the 26 channels. -/
def channelTable {α : Type} (f : ChannelNo → α) : Vector α 26 :=
  #v[f 0, f 1, f 2, f 3, f 4, f 5, f 6, f 7, f 8, f 9, f 10, f 11, f 12, f 13, f 14, f 15, f 16, f 17, f 18, f 19, f 20,
    f 21, f 22, f 23, f 24, f 25]

/-- R30: one sample of all 26 channels together. -/
def samplePickups (a b : BitVec 26) (s : State) : State :=
  let s := s.updPins fun p => { p with pickA := a, pickB := b }
  s.updMeter fun m => { m with channels := channelTable fun c => (Vec.pick m.channels c).sample (pairAt a b c) }

/-! ## Conversion and health at a window close -/

/-- R35: the volume of a window. -/
def windowVolume (ch : MeterChannel) : Int := (ch.acc * 1000 + ch.carry).tdiv ch.k

/-- R35: the carry after a window. -/
def windowCarry (ch : MeterChannel) : Int := (ch.acc * 1000 + ch.carry) - windowVolume ch * ch.k

/-- R36: the rate of a volume. -/
def rateOf (windowLength : Nat) (volume : Int) : Int := clampInt (-32768) 32767 ((volume * 6000).tdiv windowLength)

/-- R38: entry into DEGRADED. -/
def MeterChannel.degrade (ch : MeterChannel) : MeterChannel :=
  { ch with health := .degraded, qerrRun := 0, cleanRun := 0 }

/-- R39: the return to HEALTHY. -/
def MeterChannel.heal (ch : MeterChannel) : MeterChannel :=
  { ch with health := .healthy, qerrRun := 0, cleanRun := 0 }

/-- R38, R39: the health after the flags of a window. -/
def MeterChannel.judge (qerr overrange : Bool) (ch : MeterChannel) : MeterChannel :=
  match ch.health with
  | .healthy =>
    if overrange then ch.degrade
    else if qerr then (if ch.qerrRun + 1 ≥ 3 then ch.degrade else { ch with qerrRun := ch.qerrRun + 1 })
    else { ch with qerrRun := 0 }
  | .degraded =>
    if qerr || overrange then { ch with cleanRun := 0 }
    else if ch.cleanRun + 1 ≥ 10 then ch.heal
    else { ch with cleanRun := ch.cleanRun + 1 }

/-- R34, R35, R38, R39: a channel after a window close. -/
def MeterChannel.close (ch : MeterChannel) : MeterChannel :=
  { ch.judge ch.qerr ch.overrange with acc := 0, qerr := false, overrange := false, carry := windowCarry ch }

/-- R34 to R38: what a window close captures of a channel. -/
def MeterChannel.capture (windowLength : Nat) (ch : MeterChannel) : SnapChannel where
  count := ch.acc
  qerr := ch.qerr
  overrange := ch.overrange
  volume := windowVolume ch
  rate := rateOf windowLength (windowVolume ch)
  health := (ch.judge ch.qerr ch.overrange).health

/-- A channel degrades at the close of the window it holds. -/
def MeterChannel.degrades (ch : MeterChannel) : Bool :=
  ch.health = .healthy && (ch.judge ch.qerr ch.overrange).health = .degraded

/-- R40: METER_DEGRADED for every channel of a list. -/
def raiseDegraded (cs : List ChannelNo) (s : State) : State :=
  cs.foldl (fun s c => raiseSup .meterDegraded c.val s) s

/-- R34 to R40, R159: the Meter Unit's part of a window close, and the bad-frame counts of the lines. -/
def closeMeters (s : State) : State :=
  let m := s.meter
  let degraded := allChannels.filter fun c => (Vec.pick m.channels c).degrades
  let s := s.updMeter fun _ =>
    { channels := channelTable fun c => (Vec.pick m.channels c).close
      snap :=
        { seq := m.snap.seq + 1
          channels := channelTable fun c => (Vec.pick m.channels c).capture s.params.windowLength }
      windowTimer := some s.params.windowLength }
  let s := { s with lines := Vec.map (fun ln => { ln with badCount := 0 }) s.lines }
  raiseDegraded degraded s

/-- R33: counting starts at the end of loading, from the levels then at the pickups. -/
def startCounting (s : State) : State :=
  s.updMeter fun m =>
    { m with
      channels := channelTable fun c =>
        { Vec.pick m.channels c with
          acc := 0
          qerr := false
          overrange := false
          last := some (pairAt s.pins.pickA s.pins.pickB c) }
      windowTimer := some s.params.windowLength }

/-- R45: the Meter Unit at a warm restart; the sequence number and K are kept. -/
def MeterUnit.warm (m : MeterUnit) : MeterUnit where
  channels := channelTable fun c => { MeterChannel.reset with k := (Vec.pick m.channels c).k }
  snap := { seq := m.snap.seq, channels := Vector.replicate 26 SnapChannel.zero }
  windowTimer := none

/-! ## The threshold events of a channel (log 8) -/

/-- R38: the window just closed was the third QERR window in a row. -/
def qerrRunReaches (s : State) (c : ChannelNo) : Bool :=
  (s.channel c).health = .healthy && (s.snapChannel c).qerr && (s.channel c).qerrRun + 1 ≥ 3

/-- R39: the window just closed was the tenth clean window in a row. -/
def cleanRunReaches (s : State) (c : ChannelNo) : Bool :=
  (s.channel c).health = .degraded && !(s.snapChannel c).qerr && !(s.snapChannel c).overrange &&
    (s.channel c).cleanRun + 1 ≥ 10

/-- Set the health of a channel and of its place in the snapshot. -/
def setHealth (c : ChannelNo) (f : MeterChannel → MeterChannel) (s : State) : State :=
  let s := s.updChannel c f
  s.updMeter fun m =>
    { m with
      snap :=
        { m.snap with
          channels := Vec.put m.snap.channels c { Vec.pick m.snap.channels c with health := (s.channel c).health } } }

/-- PICKUP_SAMPLE (R30). -/
def execPickupSample (a b : BitVec 26) (s : State) : Host.Outcome State Fault Refusal := .next (samplePickups a b s)

/-- QERR_RUN_REACHED (R38, R40). -/
def execQerrRunReached (c : ChannelNo) (s : State) : Host.Outcome State Fault Refusal :=
  .next (if qerrRunReaches s c then raiseSup .meterDegraded c.val (setHealth c MeterChannel.degrade s) else s)

/-- CLEAN_RUN_REACHED (R39). -/
def execCleanRunReached (c : ChannelNo) (s : State) : Host.Outcome State Fault Refusal :=
  .next (if cleanRunReaches s c then setHealth c MeterChannel.heal s else s)

end Sys2Proof.Machine
end

