-- ==== Sys2Proof/Machine/Allocation.lean ====
section
/-! DEFINITION. The Allocator: the round and its stages, the take-up check, the budget age, and the sums it reports (03). -/

namespace Sys2Proof.Machine

open Sys2Proof

/-- A table of the twelve branches. -/
def branchTable {α : Type} (f : BranchNo → α) : Vector α 12 :=
  #v[f 0, f 1, f 2, f 3, f 4, f 5, f 6, f 7, f 8, f 9, f 10, f 11]

/-- The branches from `p` on, in rising number, wrapping from 11 to 0 (R56). -/
def branchesFrom (p : BranchNo) : List BranchNo := allBranches.map fun k => p + k

/-! ## Participants and demand (R52, R53) -/

/-- R52: the floor of a PRIMING or ADMITTED participant; 0 for any other branch. -/
def roundFloor (s : State) (b : BranchNo) : Nat :=
  match (s.br b).dock with
  | .priming => min s.params.primeFlow (s.br b).cap
  | .admitted => (s.br b).floor
  | .vacant | .seated | .held | .adopting | .releasing | .draining | .pullReady | .isolating | .isolated => 0

/-- R53: the demand of an ADMITTED participant. -/
def demand (s : State) (b : BranchNo) : Nat :=
  let br := s.br b
  if unprotected s b then br.floor else min br.request (min (br.restricted.getD br.cap) br.cap)

/-- The branch is an ADMITTED participant of that tier (R56). -/
def inTier (s : State) (tierOne : Bool) (b : BranchNo) : Bool :=
  (s.br b).dock = .admitted && ((s.br b).tier != 0) == tierOne

/-! ## Sharing by tier (R56) -/

/-- The sharing as it stands: the grants built so far, Rm, the tier-0 cursor, and the last branch given a step in each
tier and in either. -/
structure Share where
  given : Vector Nat 12
  rm : Nat
  cursor : BranchNo
  last1 : Option BranchNo
  last0 : Option BranchNo
  last : Option BranchNo
  deriving DecidableEq, Repr

/-- R53: the unmet demand of a participant. -/
def unmet (s : State) (sh : Share) (b : BranchNo) : Nat := demand s b - Vec.pick sh.given b

/-- R56: a branch that a step of that tier may serve now. -/
def wantsStep (s : State) (tierOne : Bool) (sh : Share) (b : BranchNo) : Bool :=
  inTier s tierOne b && unmet s sh b != 0

/-- R56: one step of size min(q, u, Rm). -/
def giveStep (s : State) (sh : Share) (b : BranchNo) : Share :=
  let n := min s.params.quantum (min (unmet s sh b) sh.rm)
  { sh with given := Vec.put sh.given b (Vec.pick sh.given b + n), rm := sh.rm - n, last := some b }

/-- R56, 1: a visit of a pass. -/
def passVisit (s : State) (sh : Share) (b : BranchNo) : Share :=
  if sh.rm != 0 && wantsStep s true sh b then { giveStep s sh b with last1 := some b } else sh

/-- R56, 1: a pass from the tier-1 pointer. -/
def pass (s : State) (sh : Share) : Share := (branchesFrom s.alloc.p1).foldl (passVisit s) sh

/-- R56, 2: a tier-0 step from the cursor. -/
def tierZeroStep (s : State) (sh : Share) : Share :=
  match (branchesFrom sh.cursor).find? (wantsStep s false sh) with
  | none => sh
  | some b => if sh.rm = 0 then sh else { giveStep s sh b with last0 := some b, cursor := b + 1 }

/-- R56, 4: some participant still has unmet demand. -/
def anyUnmet (s : State) (sh : Share) : Bool :=
  allBranches.any fun b => wantsStep s true sh b || wantsStep s false sh b

/-- R56: a pass and then a tier-0 step, over and over, until Rm is 0 or no demand is unmet. Each turn gives at least one
step, of at least 1 fu while the Quantum is above 0, so Rm turns are enough. -/
def shareLoop (s : State) : Nat → Share → Share
  | 0, sh => sh
  | n + 1, sh => if sh.rm = 0 || !anyUnmet s sh then sh else shareLoop s n (tierZeroStep s (pass s sh))

/-! ## The round (R51 to R61) -/

/-- R51: the flow available to the branches. -/
def afterReserve (s : State) (b : Nat) : Nat := b - s.params.bypassMinimum

/-- R52: the sum of the ADOPTING grants. -/
def adoptingSum (s : State) : Nat :=
  sumBranches fun b => if (s.br b).dock = .adopting then (s.br b).grant else 0

/-- R52: the grant an ADOPTING branch keeps. -/
def adoptedGrant (s : State) (p : Nat) (b : BranchNo) : Nat :=
  if (s.br b).dock = .adopting then
    (if adoptingSum s ≤ p then (s.br b).grant else (s.br b).grant * p / adoptingSum s)
  else 0

/-- R54, R55: the sum of the floors. -/
def floorSum (s : State) : Nat := sumBranches (roundFloor s)

/-- R54, R55: the floor given, scaled in a short round. -/
def givenFloor (s : State) (p : Nat) (b : BranchNo) : Nat :=
  if floorSum s ≤ p then roundFloor s b else roundFloor s b * p / floorSum s

/-- What a round works out. -/
structure RoundPlan where
  given : Vector Nat 12
  available : Nat
  residue : Nat
  bypassTarget : Nat
  p1 : BranchNo
  p0 : BranchNo
  short : Bool
  deriving DecidableEq, Repr

/-- R58: the branch the residue is offered to. -/
def parkTarget (s : State) (sh : Share) : Option BranchNo :=
  match s.params.parkMode with
  | .bypass => none
  | .last => sh.last
  | .fixed => if (s.br s.params.parkBranch).dock = .admitted then some s.params.parkBranch else none

/-- R58: the parked part of the residue. -/
def parkedAmount (s : State) (sh : Share) (residue : Nat) : Nat :=
  match parkTarget s sh with
  | none => 0
  | some b => min residue ((s.br b).cap - Vec.pick sh.given b)

/-- R58: the grants with the parked amount. -/
def parkedGrants (s : State) (sh : Share) (amount : Nat) : Vector Nat 12 :=
  match parkTarget s sh with
  | none => sh.given
  | some b => Vec.put sh.given b (Vec.pick sh.given b + amount)

/-- R57: the pointer after the last branch of its tier that was given a step. -/
def pointerAfter (old : BranchNo) (last : Option BranchNo) : BranchNo :=
  match last with
  | none => old
  | some b => b + 1

/-- R54 to R56: the sharing of a round with `p` left after the ADOPTING deduction and `p0` before it. -/
def shareStart (s : State) (p0 p : Nat) : Share where
  given := branchTable fun b => adoptedGrant s p0 b + givenFloor s p b
  rm := if floorSum s ≤ p then p - floorSum s else 0
  cursor := s.alloc.p0
  last1 := none
  last0 := none
  last := none

/-- R51 to R59: the round on an effective budget. -/
def planRound (s : State) (budget : Nat) : RoundPlan :=
  let p0 := afterReserve s budget
  let p := p0 - adoptingSum s
  let start := shareStart s p0 p
  let sh := shareLoop s start.rm start
  let overAdopting := if adoptingSum s ≤ p0 then 0 else p0 - sumBranches (adoptedGrant s p0)
  let overFloors := if floorSum s ≤ p then 0 else p - sumBranches (givenFloor s p)
  let residue := sh.rm + overFloors + overAdopting
  let parked := parkedAmount s sh residue
  { given := parkedGrants s sh parked
    available := p
    residue := residue
    bypassTarget := min s.params.bypassMinimum budget + (residue - parked)
    p1 := pointerAfter s.alloc.p1 sh.last1
    p0 := pointerAfter s.alloc.p0 sh.last0
    short := !decide (floorSum s ≤ p) }

/-- The sum of all twelve grants (R61, R71). -/
def grantSum (s : State) : Nat := sumBranches fun b => (s.br b).grant

/-- R71: the sum of the requests of the branches in ADMITTED. -/
def requestSum (s : State) : Nat :=
  sumBranches fun b => if (s.br b).dock = .admitted then (s.br b).request else 0

/-- R61: the participant count. -/
def participantCount (s : State) : Nat :=
  sumBranches fun b => if (s.br b).dock.participating then 1 else 0

/-- Two amounts differ by q or more, in either direction (R60, R65, R72). -/
def movedBy (q old new : Nat) : Bool := decide (q ≤ (new - old) + (old - new))

/-- R60: GRANT_CHANGED for a branch whose grant moved by q or more. -/
def raiseGrantChanged (b : BranchNo) (old : Nat) (s : State) : State :=
  if movedBy s.params.quantum old (s.br b).grant then raiseOwner b .grantChanged [] s else s

/-- R81: the commanded duty of the bypass valve. -/
def bypassDuty (target fopen : Nat) : Nat := min 1000 (target * 1000 / fopen)

/-- R81: recompute the bypass duty. -/
def driveBypass (s : State) : State :=
  s.updValves fun v => { v with bypassCommanded := bypassDuty s.alloc.bypassTarget v.bypassFopen }

/-- R60: every participant's new grant replaces its grant at once, and its duty is recomputed. -/
def publishGrants (given : Vector Nat 12) (s : State) : State :=
  { s with
    branches := branchTable fun b =>
      if (s.br b).dock.participating then { s.br b with grant := Vec.pick given b }.redrive else s.br b }

/-- R55, R57, R59, R61: what a round leaves in the Allocator. -/
def recordRound (s : State) (budget : Nat) (plan : RoundPlan) (sumGrants : Nat) (a : Allocator) : Allocator :=
  { a with
    effectiveBudget := budget
    p1 := plan.p1
    p0 := plan.p0
    bypassTarget := plan.bypassTarget
    shortfall := plan.short
    round :=
      { seq := a.round.seq + 1
        budget := budget
        available := plan.available
        sumFloors := floorSum s
        sumGrants := sumGrants
        residue := plan.residue
        bypassTarget := plan.bypassTarget
        p1 := plan.p1
        p0 := plan.p0
        participants := participantCount s
        short := plan.short } }

/-- R55: SHORTFALL on the plant line and on the supervisor line. -/
def raiseShortfall (s : State) : State := raiseSup .shortfall 0 (raisePlant .shortfall s)

/-- R72: DEMAND_CHANGED when the request sum has moved by q or more from the reported demand. -/
def raiseDemandChanged (s : State) : State :=
  if movedBy s.params.quantum s.alloc.reportedDemand (requestSum s) then raisePlant .demandChanged s else s

/-- R50 to R61, R72: one allocation round. -/
def runRound (s : State) : State :=
  let budget := s.alloc.pendingBudget
  let plan := planRound s budget
  let t := publishGrants plan.given s
  let t := t.updAlloc (recordRound s budget plan (grantSum t))
  let t := driveBypass t
  let t := if plan.short && !s.alloc.shortfall then raiseShortfall t else t
  let t := forBranches (fun b u => if (s.br b).dock.participating then raiseGrantChanged b (s.br b).grant u else u) t
  raiseDemandChanged t

/-! ## Take-up restriction (R68, R69) -/

/-- R68: the branch falls short of take-up. -/
def fallsShort (s : State) (b : BranchNo) : Bool :=
  (s.br b).commanded = 1000 && supplyRate s b < ((s.br b).grant * s.params.takeUpShare / 1000 : Nat)

/-- R69: the restricted cap for a supply rate. -/
def restrictedValue (q floor cap : Nat) (rate : Int) : Nat :=
  min cap (max floor ((rate.toNat + q - 1) / q * q))

/-- R69: set the restricted cap of a branch. -/
def restrict (b : BranchNo) (s : State) : State :=
  let br := s.br b
  let v := restrictedValue s.params.quantum br.floor br.cap (supplyRate s b)
  let t := s.updBranch b fun br => { br with restricted := some v, takeUp := 0 }
  if br.restricted = some v then t else raiseSup .restricted b.val (raiseOwner b .restricted [] t)

/-- R68: the take-up check of a branch. -/
def takeUpCheck (b : BranchNo) (s : State) : State :=
  if (s.br b).dock = .admitted && supplyHealthy s b then
    if fallsShort s b then
      if (s.br b).takeUp + 1 ≥ s.params.takeUpWindows then restrict b s
      else s.updBranch b fun br => { br with takeUp := br.takeUp + 1 }
    else s.updBranch b fun br => { br with takeUp := 0 }
  else s

/-- R50: the Allocator's part of a window close. -/
def closeAllocator (s : State) : State := runRound (forBranches takeUpCheck s)

/-- R69: the check of the window just closed brings the take-up count to Take-up Windows. -/
def takeUpReaches (s : State) (b : BranchNo) : Bool :=
  (s.br b).dock = .admitted && supplyHealthy s b && fallsShort s b && (s.br b).takeUp + 1 ≥ s.params.takeUpWindows

/-- TAKE_UP_WINDOWS_REACHED (R69). -/
def execTakeUpWindowsReached (b : BranchNo) (s : State) : Host.Outcome State Fault Refusal :=
  .next (if takeUpReaches s b then restrict b s else s)

/-! ## The budget age (R48) -/

/-- R48: BUDGET_STALE on the plant line and on the supervisor line. -/
def raiseStale (s : State) : State := raiseSup .budgetStale 0 (raisePlant .budgetStale s)

/-- R48: FALLEN_BACK, with the pending budget at Fallback Budget. -/
def fallBack (s : State) : State :=
  s.updAlloc fun a => { a with ageState := .fallenBack, pendingBudget := s.params.fallbackBudget }

/-- R48: the age reaches Budget Hold. -/
def becomeStale (s : State) : State :=
  let t := raiseStale (s.updAlloc fun a => { a with ageState := .stale })
  if s.params.fallbackTime ≤ s.params.budgetHold then fallBack t else t

/-- The budget age counts: loading has ended and the suspension is off (R48, R49, R74). -/
def ageRuns (s : State) : Bool := !s.loader.loading && !s.alloc.suspended

end Sys2Proof.Machine
end

