-- ==== Sys2Proof/Machine/Balance.lean ====
section
/-! DEFINITION. The Balance Monitor, the locate of the Drip Sense Unit, the trim of the Valve Drive Unit and the checks of
the Dock Controllers: each block's part of a window close, and the threshold events that stand inside them (01, 04, 05,
06). -/

namespace Sys2Proof.Machine

open Sys2Proof

/-! ## The account of a branch or of the rail (R94 to R96, R105, R106) -/

/-- R94, R105: the tolerance for a volume. -/
def tolerance (deadband slip : Nat) (volume : Int) : Int := deadband + (volume.natAbs * slip / 1000 : Nat)

/-- R95: the new integrator. -/
def nextIntegrator (decayShift : Nat) (a : Nat) (excess : Int) : Nat :=
  (clampInt 0 65535 ((a : Int) - (a / 2 ^ decayShift : Nat) + excess)).toNat

/-- R96: the balance state and the above count from the new integrator. -/
def judgeAccount (threshold confirm above a : Nat) : Account :=
  if a < threshold / 2 then ⟨a, .clear, 0⟩
  else if a < threshold then ⟨a, .watch, 0⟩
  else
    let n := min 8 (above + 1)
    if n < confirm then ⟨a, .suspect, n⟩ else ⟨a, .confirmed, n⟩

/-- R95, R96: an account after a balanced window. -/
def Account.step (decayShift threshold confirm : Nat) (excess : Int) (x : Account) : Account :=
  judgeAccount threshold confirm x.above (nextIntegrator decayShift x.integrator excess)

/-! ## The branch balance -/

/-- R92: the branches that are balanced. -/
def balanced (s : State) (b : BranchNo) : Bool :=
  ((s.br b).dock = .admitted || (s.br b).dock = .adopting) && supplyHealthy s b && returnHealthy s b

/-- R94: the imbalance of a branch. -/
def imbalance (s : State) (b : BranchNo) : Int := supplyVolume s b - returnVolume s b

/-- R94: the excess of a branch. -/
def excess (s : State) (b : BranchNo) : Int :=
  imbalance s b - tolerance s.params.deadband s.params.slip (supplyVolume s b)

/-- R95, R96: the branch's account after this window. -/
def newAccount (s : State) (b : BranchNo) : Account :=
  (s.br b).account.step s.params.decayShift s.params.tripThreshold s.params.confirmCount (excess s b)

/-- R97 to R101: the causes the Balance Monitor hands for a balanced branch, in the order GROSS, BACKFLOW, BALANCE. -/
def balanceCauses (s : State) (b : BranchNo) (x : Account) : List BranchCause :=
  (if imbalance s b ≥ s.params.grossLimit then [.gross] else []) ++
    (if supplyVolume s b ≤ -(s.params.backflowLimit : Int) then [.backflow] else []) ++
      (if x.state = .confirmed || (x.integrator ≥ s.params.tripThreshold && trayWet s b) then [.balance] else [])

/-- Causes handed for a branch, one after the other (R124). -/
def addBranchCauses (b : BranchNo) (cs : List BranchCause) (s : State) : State :=
  cs.foldl (fun s c => addBranchCause b c false s) s

/-- R92 to R101: the balance of one branch. -/
def balanceBranch (b : BranchNo) (s : State) : State :=
  if balanced s b then
    let x := newAccount s b
    addBranchCauses b (balanceCauses s b x) (s.updBranch b fun br => { br with account := x })
  else s

/-! ## The rail balance -/

/-- R104: the conditions on meter health. -/
def railMetersHealthy (s : State) : Bool :=
  (s.snapChannel 24).health = .healthy && (s.snapChannel 25).health = .healthy &&
    allBranches.all fun b => (s.br b).dock = .vacant || (supplyHealthy s b && returnHealthy s b)

/-- R105: the rail imbalance. -/
def railImbalance (s : State) : Int := inletVolume s - outletVolume s - sumBranchesInt (imbalance s)

/-- R105: the rail excess. -/
def railExcess (s : State) : Int :=
  railImbalance s - tolerance s.params.railDeadband s.params.railSlip (inletVolume s)

/-- R106: the rail account after this window. -/
def newRailAccount (s : State) : Account :=
  s.rail.account.step s.params.decayShift s.params.railThreshold s.params.confirmCount (railExcess s)

/-- R104, R106: the rail balance. -/
def balanceRail (s : State) : State :=
  if s.rail.state = .opened && railMetersHealthy s then
    let x := newRailAccount s
    let t := s.updRail fun r => { r with account := x }
    if x.state = .confirmed then addRailCause .railBalance t else t
  else s

/-- R103, R148: the imbalances handed to the Incident Ring. -/
def handLosses (s : State) : State :=
  let s := forBranches (fun b s =>
    if supplyHealthy s b && returnHealthy s b then addLoss (.branch b) (imbalance s b) s else s) s
  if railMetersHealthy s then addLoss .rail (railImbalance s) s else s

/-- R102: the Balance Monitor's part of a window close. It reads the dock states and the sets as they stand when it is
taken, and R101, R106 and R124 give no order between the branches and the rail. DEDUCED, log 25: the branches by rising
number, each with its causes, then the rail with RAIL_BALANCE, whose RAIL causes would else keep branches from the balance
of this same close; then the losses (R103). -/
def closeBalance (s : State) : State := handLosses (balanceRail (forBranches balanceBranch s))

/-- R97: the account of a balanced branch stands at the threshold and the count reaches Confirm Count (log 8). -/
def balanceReaches (s : State) (b : BranchNo) : Bool :=
  balanced s b && (s.br b).account.integrator ≥ s.params.tripThreshold &&
    (s.br b).account.above + 1 ≥ s.params.confirmCount

/-- The account at a count that has reached Confirm Count (R96). -/
def Account.confirm (x : Account) : Account := ⟨x.integrator, .confirmed, min 8 (x.above + 1)⟩

/-- BALANCE_CONFIRMED (R97). -/
def execBalanceConfirmed (b : BranchNo) (s : State) : Host.Outcome State Fault Refusal :=
  .next
    (if balanceReaches s b then
      addBranchCause b .balance false (s.updBranch b fun br => { br with account := br.account.confirm })
    else s)

/-- R106: the rail account stands at the threshold and the count reaches Confirm Count (log 8). -/
def railBalanceReaches (s : State) : Bool :=
  s.rail.state = .opened && railMetersHealthy s && s.rail.account.integrator ≥ s.params.railThreshold &&
    s.rail.account.above + 1 ≥ s.params.confirmCount

/-- RAIL_BALANCE_CONFIRMED (R106). -/
def execRailBalanceConfirmed (s : State) : Host.Outcome State Fault Refusal :=
  .next
    (if railBalanceReaches s then
      addRailCause .railBalance (s.updRail fun r => { r with account := r.account.confirm })
    else s)

/-! ## The locate (R119) -/

/-- A balance state of WATCH, SUSPECT or CONFIRMED. -/
def BalanceState.atWatch : BalanceState → Bool
  | .clear => false
  | .watch | .suspect | .confirmed => true

/-- R119, 1: the branch qualifies. -/
def qualifies (s : State) (b : BranchNo) : Bool :=
  (s.br b).dock.participating && (s.br b).account.state.atWatch

/-- R119, 3: the locate ends with an outcome; the locate strip is kept. -/
def endLocate (o : LocateOutcome) (s : State) : State :=
  s.updDrip fun d => { d with running := false, windowsLeft := 0, outcome := o }

/-- R119: the evaluation of a running locate. -/
def closeLocate (s : State) : State :=
  if s.drip.running then
    let found := allBranches.filter (qualifies s)
    if !found.isEmpty then
      endLocate .branches (found.foldl (fun s b => addBranchCause b .located false s) s)
    else if s.rail.account.state.atWatch then endLocate .rail (addRailCause .commonRail s)
    else if s.drip.windowsLeft ≤ 1 then endLocate .alarmOnly s
    else s.updDrip fun d => { d with windowsLeft := d.windowsLeft - 1 }
  else s

/-- R119, 4: an evaluation now would bring windows left to 0 with no cause handed. -/
def locateHoldReaches (s : State) : Bool :=
  s.drip.running && !allBranches.any (qualifies s) && !s.rail.account.state.atWatch && s.drip.windowsLeft ≤ 1

/-- LOCATE_HOLD_EXPIRES (R119). -/
def execLocateHoldExpires (s : State) : Host.Outcome State Fault Refusal :=
  .next (if locateHoldReaches s then endLocate .alarmOnly s else s)

/-! ## The trim (R79) -/

/-- R79: the trim after a window. -/
def nextTrim (br : Branch) (rate : Int) : Int :=
  clampInt (-250) 250 (br.trim + ((((br.grant : Int) - rate) * 1000).tdiv br.fopen).tdiv 4)

/-- R79: the branches whose trim is updated. -/
def trims (s : State) (b : BranchNo) : Bool :=
  ((s.br b).dock = .admitted || (s.br b).dock = .adopting) && (s.br b).grant != 0 && supplyHealthy s b

/-- R79: the trim of one branch. -/
def trimBranch (b : BranchNo) (s : State) : State :=
  if trims s b then s.updBranch b fun br => { br with trim := nextTrim br (supplyRate s b) }.redrive else s

/-- R79: the Valve Drive Unit's part of a window close. -/
def closeValves (s : State) : State := forBranches trimBranch s

/-! ## The checks of a Dock Controller (R16, R19, R22) -/

/-- R16: the window is good. -/
def primeGoodWindow (s : State) (b : BranchNo) : Bool :=
  supplyVolume s b > 0 && returnVolume s b ≥ (supplyVolume s b * s.params.primeReturn).tdiv 1000

/-- R16: the priming check. -/
def primingCheck (b : BranchNo) (s : State) : State :=
  if supplyHealthy s b && returnHealthy s b then
    if primeGoodWindow s b then
      if (s.br b).primeGood + 1 ≥ 3 then enterAdmitted b s
      else s.updBranch b fun br => { br with primeGood := br.primeGood + 1 }
    else s.updBranch b fun br => { br with primeGood := 0 }
  else s

/-- R19: the adoption check. -/
def adoptionCheck (b : BranchNo) (s : State) : State :=
  if supplyHealthy s b then
    if supplyVolume s b > 0 then
      if (s.br b).primeGood + 1 ≥ 2 then enterAdmitted b s
      else s.updBranch b fun br => { br with primeGood := br.primeGood + 1, idle := 0 }
    else if supplyVolume s b = 0 then
      if (s.br b).idle + 1 ≥ 2 then enterPriming b s
      else s.updBranch b fun br => { br with idle := br.idle + 1, primeGood := 0 }
    else s.updBranch b fun br => { br with primeGood := 0, idle := 0 }
  else s

/-- R22: the drain has settled. -/
def settled (s : State) (b : BranchNo) : Bool :=
  match (s.br b).dockTimer with
  | none => false
  | some r => s.params.drainTime * 1000 ≤ s.params.drainLimit * 1000 - r

/-- R22: the drain check. -/
def drainCheck (b : BranchNo) (s : State) : State :=
  if settled s b && returnHealthy s b && returnVolume s b ≤ s.params.drainResidual then enterPullReady b s else s

/-- R8: the check of a Dock Controller at a window close. -/
def closeDock (b : BranchNo) (s : State) : State :=
  match (s.br b).dock with
  | .priming => primingCheck b s
  | .adopting => adoptionCheck b s
  | .draining => drainCheck b s
  | .vacant | .seated | .held | .admitted | .releasing | .pullReady | .isolating | .isolated => s

/-- R16: the check of the window just closed brings the prime-good count to 3. -/
def primeGoodReaches (s : State) (b : BranchNo) : Bool :=
  (s.br b).dock = .priming && supplyHealthy s b && returnHealthy s b && primeGoodWindow s b && (s.br b).primeGood + 1 ≥ 3

/-- PRIME_GOOD_COUNT_REACHED (R16). -/
def execPrimeGoodCountReached (b : BranchNo) (s : State) : Host.Outcome State Fault Refusal :=
  .next (if primeGoodReaches s b then enterAdmitted b s else s)

/-- R19: the check of the window just closed brings the prime-good count to 2. -/
def adoptionGoodReaches (s : State) (b : BranchNo) : Bool :=
  (s.br b).dock = .adopting && supplyHealthy s b && supplyVolume s b > 0 && (s.br b).primeGood + 1 ≥ 2

/-- ADOPTION_GOOD_COUNT_REACHED (R19). -/
def execAdoptionGoodCountReached (b : BranchNo) (s : State) : Host.Outcome State Fault Refusal :=
  .next (if adoptionGoodReaches s b then enterAdmitted b s else s)

/-- R19: the check of the window just closed brings the idle count to 2. -/
def idleReaches (s : State) (b : BranchNo) : Bool :=
  (s.br b).dock = .adopting && supplyHealthy s b && supplyVolume s b = 0 && (s.br b).idle + 1 ≥ 2

/-- IDLE_COUNT_REACHED (R19). -/
def execIdleCountReached (b : BranchNo) (s : State) : Host.Outcome State Fault Refusal :=
  .next (if idleReaches s b then enterPriming b s else s)

/-! ## The whole close (R34, R37, R50) -/

/-- One block's part of a window close. -/
def takePart (s : State) (p : ClosePart) : State :=
  match p with
  | .dock b => closeDock b s
  | .allocator => closeAllocator s
  | .valves => closeValves s
  | .balance => closeBalance s
  | .locate => closeLocate s

/-- The order of the parts: as given, each once, and any part left out after the others (log 7). -/
def closeOrder (order : List ClosePart) : List ClosePart :=
  order.dedup ++ ClosePart.all.filter fun p => !order.contains p

/-- R34, R37: the Meter Unit publishes the snapshot, and then the blocks act on it. -/
def closeWindow (order : List ClosePart) (s : State) : State := (closeOrder order).foldl takePart (closeMeters s)

end Sys2Proof.Machine
end

