-- ==== Sys2Proof/Machine/Clock.lean ====
section
/-! DEFINITION. Time: the passing of milliseconds, the debounced sampling of the contacts, the strips, TRIP_IN and
WARM_RST, the events that fall due, and the events that stand for a timer running out (logs 2, 3, 9, 10). -/

namespace Sys2Proof.Machine

open Sys2Proof

/-! ## The passing of time -/

/-- A branch record `ms` later: the dock timer counts down (R8) and the blink clock runs on (R7). -/
def Branch.elapse (ms : Nat) (br : Branch) : Branch :=
  { br with dockTimer := br.dockTimer.map (· - ms), ledPhase := br.ledPhase + ms }

/-- The state `ms` later: every running timer counts down, and the budget age counts up while it runs (R48). -/
def elapse (ms : Nat) (s : State) : State :=
  { s with
    branches := Vec.map (Branch.elapse ms) s.branches
    rail := { s.rail with timer := s.rail.timer.map (· - ms) }
    meter := { s.meter with windowTimer := s.meter.windowTimer.map (· - ms) }
    alloc := { s.alloc with age := if ageRuns s then s.alloc.age + ms else s.alloc.age }
    valves := { s.valves with periodTimer := s.valves.periodTimer - ms } }

/-- The dock timer of a bay runs out: its remaining time passes, and the timer is absent (R8, log 3). -/
def dockTimerRunsOut (b : BranchNo) (left : Nat) (s : State) : State :=
  (elapse left s).updBranch b fun br => { br with dockTimer := none }

/-! ## Sampling (R6, R111, R112, R137, R179) -/

/-- R6, R137: the run of samples that differ from the level taken, to at most 3. -/
def nextRun (level taken : Bool) (run : Nat) : Nat := if level = taken then 0 else min 3 (run + 1)

/-- R137, R179: the 1 ms sample of TRIP_IN and WARM_RST. -/
def sampleInputs (s : State) : State :=
  let s := s.updIso fun i => { i with tripCandidate := nextRun s.pins.trip i.tripAsserted i.tripCandidate }
  s.updLoader fun d => { d with warmCandidate := nextRun s.pins.warm d.warmAsserted d.warmCandidate }

/-- R6: the 10 ms sample of both contacts of a bay. -/
def sampleContacts (b : BranchNo) (s : State) : State :=
  s.updBranch b fun br =>
    { br with
      presentRun := nextRun (Vec.pick s.pins.present b) br.present br.presentRun
      latchRun := nextRun (Vec.pick s.pins.latched b) br.latched br.latchRun }

/-- R111: the level a sample of the two comparators shows. -/
def StripPins.level (p : StripPins) : StripState :=
  if !p.whole then .broken else if p.wet then .wet else .dry

/-- R112: one sample of a strip, short of the change of state. -/
def Strip.sample (debounce : Nat) (level : StripState) (x : Strip) : Strip :=
  if level = x.state then { x with candidate := none, count := 0 }
  else if x.candidate = some level then { x with count := min debounce (x.count + 1) }
  else { x with candidate := some level, count := 1 }

/-- R111: the 10 ms sample of a strip. -/
def sampleStrip (n : StripNo) (s : State) : State :=
  s.updStrip n (Strip.sample s.params.debounce (Vec.pick s.pins.strips n).level)

/-- R6, R111: the 10 ms samples fall due in the millisecond that passes. -/
def samplesDue (s : State) : Bool := s.sampleTimer ≤ 1

/-- R6, R111: the 10 ms samples, when they fall due. -/
def sampleSlow (s : State) : State :=
  if samplesDue s then
    let s := { s with sampleTimer := 10 }
    allStrips.foldl (fun s n => sampleStrip n s) (forBranches sampleContacts s)
  else { s with sampleTimer := s.sampleTimer - 1 }

/-! ## What falls due -/

/-- R137, R179: the changes of TRIP_IN and WARM_RST that three samples have shown. -/
def dueInputs (s : State) : List Instr :=
  (if s.iso.tripCandidate ≥ 3 then [if s.iso.tripAsserted then .tripInNegated else .tripInAsserted] else []) ++
    (if s.loader.warmCandidate ≥ 3 then [if s.loader.warmAsserted then .warmRstNegated else .warmRstAsserted] else [])

/-- R6: the contact changes of a bay that three samples have shown. -/
def dueContacts (s : State) (b : BranchNo) : List Instr :=
  let br := s.br b
  (if br.presentRun ≥ 3 then [if br.present then .presentOpens b else .presentCloses b] else []) ++
    (if br.latchRun ≥ 3 then [if br.latched then .latchOpens b else .latchCloses b] else [])

/-- R112: the strip change that Debounce samples have shown. -/
def dueStrip (s : State) (n : StripNo) : List Instr :=
  match (s.strip n).candidate with
  | none => []
  | some level => if (s.strip n).count ≥ s.params.debounce then [.stripStateChange n level] else []

/-- R8: the expiry of a dock timer, by dock state. -/
def dueDock (s : State) (b : BranchNo) : List Instr :=
  if (s.br b).dockTimer = some 0 then
    match (s.br b).dock with
    | .held => [.seatSettleExpires b]
    | .priming => [.primeTimeoutExpires b]
    | .releasing => [.closeTimeExpires b]
    | .isolating => [.closeCompletes b]
    | .draining => [.drainLimitExpires b]
    | .vacant | .seated | .admitted | .adopting | .pullReady | .isolated => []
  else []

/-- R131, R133: the expiry of the rail timer, by rail state. -/
def dueRail (s : State) : List Instr :=
  if s.rail.timer = some 0 then
    match s.rail.state with
    | .closing => [.railCloseTimeExpires]
    | .opening => [.railOpenTimeExpires]
    | .opened | .closed => []
  else []

/-- R48: the thresholds of the budget age. -/
def dueBudget (s : State) : List Instr :=
  if !ageRuns s then []
  else
    match s.alloc.ageState with
    | .fresh => if s.alloc.age ≥ s.params.budgetHold * 1000 then [.budgetHoldExpires] else []
    | .stale => if s.alloc.age ≥ s.params.fallbackTime * 1000 then [.fallbackTimeExpires] else []
    | .fallenBack => []

/-- R34, R77: the window close and the period start. -/
def dueClocks (s : State) : List Instr :=
  (if s.meter.windowTimer = some 0 then [.windowClose ClosePart.all] else []) ++
    (if s.valves.periodTimer = 0 then [.periodStart] else [])

/-- R6, R112: the changes that a sample of the contacts and strips has just shown. A change is taken at a sample alone: a
loading that lowers Debounce to a count already reached brings no change before the next sample (R122). -/
def dueSamples (s : State) : List Instr :=
  allBranches.flatMap (dueContacts s) ++ allStrips.flatMap (dueStrip s)

/-- Every event that falls due now, in the order the queue takes them (log 2); `sampled` is whether the contacts and
strips have been sampled in this millisecond. The changes that the sample shows come first: R112 has a strip change at its
sample, so a warm restart due in the same millisecond, which sets the strips back to DRY (R123), comes after them. -/
def dueEvents (sampled : Bool) (s : State) : List Instr :=
  (if sampled then dueSamples s else []) ++ dueInputs s ++ dueRail s ++ allBranches.flatMap (dueDock s) ++ dueBudget s ++
    dueClocks s

/-- One millisecond with nothing in the queue (log 2). -/
def tick (s : State) : State :=
  let t := sampleSlow (sampleInputs (elapse 1 s))
  { t with pending := t.pending ++ dueEvents (samplesDue s) t }

/-! ## Events of the timers -/

/-- R11: the expiry of the Seat Settle. -/
def seatSettled (b : BranchNo) (s : State) : State :=
  if (s.br b).hold then s else gate b (s.updBranch b fun br => { br with clearance := true })

/-- SEAT_SETTLE_EXPIRES (R11). -/
def execSeatSettleExpires (b : BranchNo) (s : State) : Host.Outcome State Fault Refusal :=
  match (s.br b).dock, (s.br b).dockTimer with
  | .held, some left => .next (seatSettled b (dockTimerRunsOut b left s))
  | _, _ => .next s

/-- PRIME_TIMEOUT_EXPIRES (R17). -/
def execPrimeTimeoutExpires (b : BranchNo) (s : State) : Host.Outcome State Fault Refusal :=
  match (s.br b).dock, (s.br b).dockTimer with
  | .priming, some left => .next (addBranchCause b .primeFail false (dockTimerRunsOut b left s))
  | _, _ => .next s

/-- CLOSE_TIME_EXPIRES (R21). -/
def execCloseTimeExpires (b : BranchNo) (s : State) : Host.Outcome State Fault Refusal :=
  match (s.br b).dock, (s.br b).dockTimer with
  | .releasing, some left => .next ((dockTimerRunsOut b left s).updBranch b (Branch.toDraining s.params))
  | _, _ => .next s

/-- R26: at completion of a close the record closes, and the bay enters ISOLATED, or exits by R27 when its set is empty. -/
def completeClose (b : BranchNo) (s : State) : State :=
  let s := closeRecord (.branch b) s
  if (s.br b).causes.isEmpty then enterByContacts b s else s.updBranch b Branch.toIsolated

/-- CLOSE_COMPLETES (R26). -/
def execCloseCompletes (b : BranchNo) (s : State) : Host.Outcome State Fault Refusal :=
  match (s.br b).dock, (s.br b).dockTimer with
  | .isolating, some left => .next (completeClose b (dockTimerRunsOut b left s))
  | _, _ => .next s

/-- DRAIN_LIMIT_EXPIRES (R23). -/
def execDrainLimitExpires (b : BranchNo) (s : State) : Host.Outcome State Fault Refusal :=
  match (s.br b).dock, (s.br b).dockTimer with
  | .draining, some left => .next (addBranchCause b .valvePassing false (dockTimerRunsOut b left s))
  | _, _ => .next s

/-- RAIL_CLOSE_TIME_EXPIRES (R131, R132). -/
def execRailCloseTimeExpires (s : State) : Host.Outcome State Fault Refusal :=
  match s.rail.state, s.rail.timer with
  | .closing, some left => .next (enterClosed (elapse left s))
  | _, _ => .next s

/-- RAIL_OPEN_TIME_EXPIRES (R133). -/
def execRailOpenTimeExpires (s : State) : Host.Outcome State Fault Refusal :=
  match s.rail.state, s.rail.timer with
  | .opening, some left => .next (enterOpened (elapse left s))
  | _, _ => .next s

/-- WINDOW_CLOSE (R34). -/
def execWindowClose (order : List ClosePart) (s : State) : Host.Outcome State Fault Refusal :=
  match s.meter.windowTimer with
  | some left => .next (closeWindow order (elapse left s))
  | none => .next s

/-- BUDGET_HOLD_EXPIRES (R48): the age reaches Budget Hold in FRESH. -/
def execBudgetHoldExpires (s : State) : Host.Outcome State Fault Refusal :=
  .next
    (if ageRuns s && s.alloc.ageState = .fresh then becomeStale (elapse (s.params.budgetHold * 1000 - s.alloc.age) s)
    else s)

/-- FALLBACK_TIME_EXPIRES (R48): the age reaches Fallback Time in STALE. -/
def execFallbackTimeExpires (s : State) : Host.Outcome State Fault Refusal :=
  .next
    (if ageRuns s && s.alloc.ageState = .stale then fallBack (elapse (s.params.fallbackTime * 1000 - s.alloc.age) s)
    else s)

/-- R77: an enabled channel takes its commanded duty. -/
def Branch.applyDuty (br : Branch) : Branch := if br.enable then { br with applied := br.commanded } else br

/-- R77, R84, R88: a period start: every enabled channel takes its commanded duty, and a loaded polarity takes effect. -/
def ValveUnit.applyDuties (v : ValveUnit) : ValveUnit :=
  { v with
    railApplied := if v.railEnable then v.railCommanded else v.railApplied
    bypassApplied := if v.bypassEnable then v.bypassCommanded else v.bypassApplied
    polarity := v.polarityNext
    periodTimer := 20 }

/-- R76, R77: a period starts on all fourteen channels. -/
def startPeriod (s : State) : State := (s.mapBranches Branch.applyDuty).updValves ValveUnit.applyDuties

/-- PERIOD_START (R77). -/
def execPeriodStart (s : State) : Host.Outcome State Fault Refusal :=
  .next (startPeriod (elapse s.valves.periodTimer s))

end Sys2Proof.Machine
end

