-- ==== Sys2Proof/Machine/Inputs.lean ====
section
/-! DEFINITION. The field inputs once taken: the contacts of a bay, the drip strips, and the facility trip (01, 06, 07). -/

namespace Sys2Proof.Machine

open Sys2Proof

/-! ## Contacts (R6, R9 to R27) -/

/-- The present contact of a bay as taken, with its pin and its run. -/
def setPresent (b : BranchNo) (closed : Bool) (s : State) : State :=
  (s.updPins fun p => { p with present := Vec.put p.present b closed }).updBranch b fun br =>
    { br with present := closed, presentRun := 0 }

/-- The latch contact of a bay as taken, with its pin and its run. -/
def setLatched (b : BranchNo) (closed : Bool) (s : State) : State :=
  (s.updPins fun p => { p with latched := Vec.put p.latched b closed }).updBranch b fun br =>
    { br with latched := closed, latchRun := 0 }

/-- R9: a sled comes into a VACANT bay. -/
def sledArrives (b : BranchNo) (s : State) : State :=
  leftVacant b (if (s.br b).latched then enterHeld b false s else enterSeated b s)

/-- PRESENT_CLOSES (R6, R9). -/
def execPresentCloses (b : BranchNo) (s : State) : Host.Outcome State Fault Refusal :=
  if (s.br b).present then .next s
  else
    let t := setPresent b true s
    .next (if (s.br b).dock = .vacant && !s.loader.loading then sledArrives b t else t)

/-- R10, R14, R24: the dock states from which an opening present contact takes the bay to VACANT. -/
def leavesOnOpen (d : DockState) : Bool :=
  match d with
  | .seated | .held | .pullReady => true
  | .vacant | .priming | .admitted | .adopting | .releasing | .draining | .isolating | .isolated => false

/-- PRESENT_OPENS (R6, R10, R14, R17 to R26). -/
def execPresentOpens (b : BranchNo) (s : State) : Host.Outcome State Fault Refusal :=
  if !(s.br b).present then .next s
  else
    let t := setPresent b false s
    .next
      (if s.loader.loading then markHotPull b t
      else if leavesOnOpen (s.br b).dock then enterVacant b t
      else contactOpened b t)

/-- LATCH_CLOSES (R6, R10). -/
def execLatchCloses (b : BranchNo) (s : State) : Host.Outcome State Fault Refusal :=
  if (s.br b).latched then .next s
  else
    let t := setLatched b true s
    .next
      (if (s.br b).dock = .seated && (s.br b).present && !s.loader.loading then enterHeld b false t else t)

/-- LATCH_OPENS (R6, R14, R17 to R26). With the present field open the event takes the bay out of no dock state (R6); in
ISOLATING it still adds HOT_PULL, which is no transition (R26, log 20). -/
def execLatchOpens (b : BranchNo) (s : State) : Host.Outcome State Fault Refusal :=
  if !(s.br b).latched then .next s
  else
    let t := setLatched b false s
    .next
      (if s.loader.loading then markHotPull b t
      else if (s.br b).dock = .isolating then contactOpened b t
      else if !(s.br b).present then markHotPull b t
      else if (s.br b).dock = .held then enterSeated b t
      else contactOpened b t)

/-! ## Drip strips (R112 to R118, R173) -/

/-- R116, R117: a strip is taken as entering WET. -/
def stripEntersWet (n : StripNo) (s : State) : State :=
  if h : n.val < 12 then
    if actsCommon s n then commonWet n s else addBranchCause ⟨n.val, h⟩ .trayWet false s
  else commonWet n s

/-- The comparator levels that show a level (R111). -/
def StripPins.show (level : StripState) (p : StripPins) : StripPins :=
  match level with
  | .dry => ⟨true, false⟩
  | .wet => ⟨true, true⟩
  | .broken => ⟨false, p.wet⟩

/-- R112, R113, R173: the strip takes the level and enters the delta set. -/
def takeStrip (n : StripNo) (level : StripState) (s : State) : State :=
  raiseSup .stripChange 0 (s.updStrip n fun x => { x with state := level, candidate := none, count := 0, changed := true })

/-- R116 to R118: what a change of a strip's state brings, outside loading (R123). -/
def stripConsequences (n : StripNo) (old level : StripState) (s : State) : State :=
  if s.loader.loading then s
  else if level = .wet then stripEntersWet n s
  else if old = .wet then gateAll s
  else s

/-- STRIP_STATE_CHANGE (R112). -/
def execStripStateChange (n : StripNo) (level : StripState) (s : State) : Host.Outcome State Fault Refusal :=
  let t := s.updPins fun p => { p with strips := Vec.put p.strips n (StripPins.show level (Vec.pick p.strips n)) }
  if (s.strip n).state = level then .next (t.updStrip n fun x => { x with candidate := none, count := 0 })
  else .next (stripConsequences n (s.strip n).state level (takeStrip n level t))

/-! ## The facility trip (R85, R138, R139, R142, R143, R173) -/

/-- R84: clearing an enable takes the output to its inactive level at once. -/
def Branch.disable (br : Branch) : Branch := if br.enable then { br with enable := false, applied := 0 } else br

/-- R84, R85: the enables of channels 0 to 12 are cleared. -/
def clearEnables (s : State) : State :=
  (s.mapBranches Branch.disable).updValves fun v =>
    if v.railEnable then { v with railEnable := false, railApplied := 0 } else v

/-- R86, R87: the enables of channels 0 to 12 are set; the applied duties wait for the next period start (R84). -/
def setEnables (s : State) : State :=
  (s.mapBranches fun br => { br with enable := true }).updValves fun v => { v with railEnable := true }

/-- R137, R138, R173: TRIP_IN is taken as asserted. During a power-on loading nothing is added to the rail set (R142). -/
def assertTrip (s : State) : State :=
  let s := s.updPins fun p => { p with trip := true }
  let s := s.updIso fun i => { i with tripAsserted := true, tripCandidate := 0 }
  let s := clearEnables (raiseSup .tripLine 0 s)
  if s.loader.loading && s.loader.afterPowerOn then s else addRailCause .tripLine s

/-- TRIP_IN_ASSERTED (R138). -/
def execTripInAsserted (s : State) : Host.Outcome State Fault Refusal :=
  .next (if s.iso.tripAsserted then s else assertTrip s)

/-- R139: TRIP_IN is taken as negated. -/
def negateTrip (s : State) : State :=
  (s.updPins fun p => { p with trip := false }).updIso fun i => { i with tripAsserted := false, tripCandidate := 0 }

/-- TRIP_IN_NEGATED (R139). -/
def execTripInNegated (s : State) : Host.Outcome State Fault Refusal :=
  .next (if s.iso.tripAsserted then negateTrip s else s)

end Sys2Proof.Machine
end

