-- ==== Sys2Proof/Machine/Settings.lean ====
section
/-! DEFINITION. The Settings Loader: the layout of the settings blocks, the loading and its end, the stored writes, the
power-on reset and the warm restart (11, and the reset rules of every chapter). -/

namespace Sys2Proof.Machine

open Sys2Proof

/-! ## The settings blocks (11.4) -/

/-- A value outside its range is taken as the default (R175). -/
def inRange (lo hi default v : Nat) : Nat := if lo ≤ v ∧ v ≤ hi then v else default

/-- R43: the Window Length of a code. -/
def windowLengthOf (code : Nat) : Nat :=
  match code with
  | 0 => 250
  | 1 => 500
  | 3 => 2000
  | _ => 1000

/-- R73: the Park Mode of a code. -/
def parkModeOf (code : Nat) : ParkMode :=
  match code with
  | 1 => .last
  | 2 => .fixed
  | _ => .bypass

/-- R122: the Common Wet Action of a code. -/
def wetActionOf (code : Nat) : WetAction :=
  match code with
  | 0 => .alarm
  | 2 => .rail
  | _ => .locate

/-- R73: a Park Branch above 11 is taken as 0. -/
def parkBranchOf (n : Nat) : BranchNo := if h : n < 12 then ⟨n, h⟩ else 0

/-- The parameters of block 0 (11.4). -/
def readBlock0 (x : List Byte) (p : Params) : Params :=
  { p with
    windowLength := windowLengthOf (octetAt x 0)
    quantum := inRange 10 500 50 (numberAt x 1 2)
    bypassMinimum := inRange 0 2000 100 (numberAt x 3 2)
    parkMode := parkModeOf (octetAt x 5)
    parkBranch := parkBranchOf (octetAt x 6)
    fallbackBudget := inRange 0 40000 1800 (numberAt x 7 2)
    budgetHold := inRange 5 120 30 (octetAt x 9)
    fallbackTime := inRange 60 3600 300 (numberAt x 10 2)
    primeFlow := inRange 50 1000 300 (numberAt x 12 2)
    primeReturn := inRange 300 950 700 (numberAt x 14 2)
    primeTimeout := inRange 10 300 60 (numberAt x 16 2)
    seatSettle := inRange 0 10 2 (octetAt x 18)
    closeTime := inRange 1 30 4 (octetAt x 19)
    drainTime := inRange 1 60 5 (octetAt x 20)
    drainLimit := inRange 10 120 30 (octetAt x 21)
    drainResidual := inRange 0 50 2 (octetAt x 22)
    railCloseTime := inRange 2 60 8 (octetAt x 23)
    railOpenTime := inRange 2 60 8 (octetAt x 24)
    deadband := octetAt x 25
    slip := inRange 0 100 15 (octetAt x 26)
    decayShift := inRange 1 8 4 (octetAt x 27)
    tripThreshold := inRange 10 65535 120 (numberAt x 28 2)
    confirmCount := inRange 1 8 2 (octetAt x 30)
    grossLimit := inRange 20 2000 200 (numberAt x 31 2)
    backflowLimit := inRange 5 500 20 (numberAt x 33 2)
    railDeadband := octetAt x 35
    railSlip := inRange 0 100 10 (octetAt x 36)
    railThreshold := inRange 10 65535 400 (numberAt x 37 2)
    takeUpShare := inRange 100 900 500 (numberAt x 39 2)
    takeUpWindows := inRange 2 30 5 (octetAt x 41) }

/-- The parameters of block 3 that `Params` holds (11.4). -/
def readBlock3 (x : List Byte) (p : Params) : Params :=
  { p with
    debounce := inRange 1 31 5 (octetAt x 4)
    wetAction := wetActionOf (octetAt x 5)
    locateHold := inRange 1 20 5 (octetAt x 6) }

/-- Apply a reading of a block, when the block was taken from the image. -/
def withBlock {α : Type} (x : Option (List Byte)) (f : List Byte → α → α) (d : α) : α :=
  match x with
  | none => d
  | some x => f x d

/-- The parameters a loading brings: a block not taken gives its defaults (R175). -/
def loadedParams (blocks : List (List Byte)) : Params :=
  withBlock blocks[3]? readBlock3 (withBlock blocks[0]? readBlock0 Params.default)

/-- The live values of a branch from block 1. -/
structure Limits where
  tier : Nat
  floor : Nat
  cap : Nat
  fopen : Nat
  deriving DecidableEq, Repr

/-- The defaults of block 1 (11.4). -/
def Limits.default : Limits := ⟨0, 150, 2500, 3000⟩

/-- The five octets of a branch in block 1; a floor above the cap is taken as the cap (R73, log 29). -/
def readLimits (b : BranchNo) (x : List Byte) (_ : Limits) : Limits :=
  let n := numberAt x (5 * b.val) 5
  let cap := inRange 100 4000 2500 (n / 2 ^ 12 % 2 ^ 12)
  { tier := n / 2 ^ 34 % 2
    floor := min cap (inRange 0 1000 150 (n / 2 ^ 24 % 2 ^ 10))
    cap := cap
    fopen := inRange 100 4000 3000 (n % 2 ^ 12) }

/-- The live values a loading brings for a branch. -/
def loadedLimits (blocks : List (List Byte)) (b : BranchNo) : Limits :=
  withBlock blocks[1]? (readLimits b) Limits.default

/-- R43: the K-factor a loading brings for a channel. -/
def loadedK (blocks : List (List Byte)) (c : ChannelNo) : Nat :=
  withBlock blocks[2]? (fun x d => inRange 100 20000 d (numberAt x (2 * c.val) 2)) 2400

/-- R88: the polarities a loading brings. -/
def loadedPolarity (blocks : List (List Byte)) : BitVec 14 :=
  withBlock blocks[3]? (fun x _ => BitVec.ofNat 14 (numberAt x 0 2)) 0

/-- R89: the Fopen_bypass a loading brings. -/
def loadedBypassFopen (blocks : List (List Byte)) : Nat :=
  withBlock blocks[3]? (fun x d => inRange 100 4000 d (numberAt x 2 2)) 3000

/-! ## The end of loading (R176) -/

/-- R74: the Allocator's fields of a branch at the end of a power-on loading. -/
def Branch.loadPowerOn (v : Limits) (br : Branch) : Branch :=
  { br with
    tier := v.tier
    floor := v.floor
    cap := v.cap
    fopen := v.fopen
    request := v.floor
    grant := 0
    restricted := none
    takeUp := 0 }

/-- R75: the Allocator's fields of a branch at the end of a warm restart's loading. -/
def Branch.loadWarm (primeFlow : Nat) (v : Limits) (br : Branch) : Branch :=
  { br with
    tier := v.tier
    floor := v.floor
    cap := v.cap
    fopen := v.fopen
    request := clampNat v.floor v.cap br.request
    grant := if br.dock = .priming then min (min br.grant v.cap) (min primeFlow v.cap) else min br.grant v.cap
    restricted := none
    takeUp := 0 }

/-- Every block takes up its loaded values. -/
def takeValues (blocks : List (List Byte)) (s : State) : State :=
  let p := loadedParams blocks
  { s with
    params := p
    branches := branchTable fun b =>
      if s.loader.afterPowerOn then (s.br b).loadPowerOn (loadedLimits blocks b)
      else (s.br b).loadWarm p.primeFlow (loadedLimits blocks b)
    meter := { s.meter with
      channels := channelTable fun c => { Vec.pick s.meter.channels c with k := loadedK blocks c } }
    valves := { s.valves with
      bypassFopen := loadedBypassFopen blocks
      polarity := if s.loader.afterPowerOn then loadedPolarity blocks else s.valves.polarity
      polarityNext := loadedPolarity blocks
      driven := true } }

/-- R74, R75: the budget age starts from 0 in FRESH. -/
def startAge (s : State) : State :=
  s.updAlloc fun a =>
    { a with
      age := 0
      ageState := .fresh
      suspended := !s.loader.afterPowerOn && s.rail.causes.contains .plantStop }

/-- R28: a dock state taken from the contacts, with its entry actions; a WET strip is taken by the Drip Sense Unit's own
part of this event (R123). A bay that enters HELD with a Seat Settle of 0 has its clearance at the entry and is tested at the
gate of R13 in its own turn: before bays of higher number resume, before their tray strips take or give up the common role,
and before the Drip Sense Unit takes the strips then WET. The spec leaves that order open; it is the model's choice
(DESIGN CHOICE, log 17). -/
def resumeByContacts (b : BranchNo) (s : State) : State :=
  if !(s.br b).present then s.updBranch b Branch.toVacant
  else if (s.br b).latched then enterHeld b false s
  else enterSeated b s

/-- R29: the table of resumption. -/
def resumeState (b : BranchNo) (s : State) : State :=
  match (s.br b).dock with
  | .admitted | .adopting => s.updBranch b fun br => { br.enter .adopting with dockTimer := none }
  | .priming => s.updBranch b fun br => { br with dockTimer := some (s.params.primeTimeout * 1000), trim := 0 }
  | .releasing | .isolating => s.updBranch b fun br => { br with dockTimer := some (s.params.closeTime * 1000) }
  | .draining => s.updBranch b fun br => { br with dockTimer := some (s.params.drainLimit * 1000) }
  | .isolated => s.updBranch b fun br => { br with dockTimer := none }
  | .vacant | .seated | .held | .pullReady => resumeByContacts b s

/-- R29: contacts found open are taken as events where the resumed state answers them. -/
def resumeContacts (b : BranchNo) (s : State) : State :=
  if (!(s.br b).present || !(s.br b).latched) && (contactCause (s.br b).dock).isSome then contactOpened b s else s

/-- R29: the response to a set that is not empty. -/
def resumeCauses (b : BranchNo) (s : State) : State :=
  if (s.br b).causes.isEmpty then s else s.updBranch b (Branch.respond (closeTimer s))

/-- R28, R29: a Dock Controller leaves the frozen state. -/
def resumeDock (b : BranchNo) (s : State) : State := resumeCauses b (resumeContacts b (resumeState b s))

/-- R126, R142, R143: while the rail is not OPEN, RAIL for every occupied branch that lacks it. -/
def alignRail (s : State) : State := if s.rail.state = .opened then s else addRailToOccupied s

/-- R142, R143: the Isolation Controller at the end of loading. -/
def resumeIsolation (s : State) : State :=
  if s.loader.afterPowerOn then
    if s.iso.tripAsserted then addRailCause .tripLine s
    else if s.rail.causes.isEmpty && s.rail.state = .closed then enterOpening s
    else s
  else
    s.updRail fun r =>
      { r with
        timer :=
          match r.state with
          | .closing => some (s.params.railCloseTime * 1000)
          | .opening => some (s.params.railOpenTime * 1000)
          | .opened | .closed => none }

/-- R123: the Drip Sense Unit takes every strip then WET as entering WET. -/
def resumeStrips (s : State) : State :=
  allStrips.foldl (fun s n => if (s.strip n).state = .wet then stripEntersWet n s else s) s

/-- R82: the commanded duty of channel 12 in a rail state. -/
def railDuty (r : RailState) : Nat :=
  match r with
  | .opened | .opening => 1000
  | .closing | .closed => 0

/-- R87: the enables after a power-on loading; a warm restart's loading changes none. -/
def resumeEnables (s : State) : State :=
  if s.loader.afterPowerOn then
    let s := s.updValves fun v => { v with bypassEnable := true }
    if s.iso.tripAsserted then s else setEnables s
  else s

/-- R90, R91: every commanded duty is recomputed. -/
def resumeDuties (s : State) : State :=
  driveBypass ((s.mapBranches Branch.redrive).updValves fun v => { v with railCommanded := railDuty s.rail.state })

/-- R142: the order of the Isolation Controller and the Drip Sense Unit is open (log 17). -/
def resumeIsolationAndStrips (dripFirst : Bool) (s : State) : State :=
  if dripFirst then resumeIsolation (resumeStrips s) else resumeStrips (resumeIsolation s)

/-- R175, R176: loading ends after the blocks taken from the image, and every block acts. -/
def endLoading (blocks : List (List Byte)) (reason : EndReason) (defaulted dripFirst : Bool) (s : State) : State :=
  let s := s.updLoader fun d =>
    { d with
      loading := false
      next := 0
      taken := []
      blocksTaken := blocks.length
      endReason := reason
      defaulted := defaulted }
  let s := startAge (startCounting (takeValues blocks s))
  let s := alignRail (forBranches resumeDock s)
  let s := resumeIsolationAndStrips dripFirst s
  let s := resumeDuties (resumeEnables s)
  raiseSup .settingsDone 0 (gateAll s)

/-- The 64 octets of a block as they stand in the EEPROM. -/
def storedBlock (s : State) (k : Fin 4) : List Byte := Memory.readAll s.eeprom (64 * k.val) 64

/-- 11.4: a block's CRC, over octets 0 to 61, stands in octets 62 and 63. -/
def blockSound (x : List Byte) : Bool := (crc16 (x.take 62)).toNat == numberAt x 62 2

/-- R175: a block that passes its CRC is taken and counted in the load report, and its marker decides what follows. -/
def takeBlock (x : List Byte) (dripFirst : Bool) (s : State) : State :=
  let blocks := s.loader.taken ++ [x]
  if octetAt x 61 != 0x5A then endLoading blocks .stop false dripFirst s
  else if s.loader.next = 3 then endLoading blocks .lastBlock false dripFirst s
  else s.updLoader fun d => { d with next := d.next + 1, taken := blocks, blocksTaken := blocks.length }

/-- R175: the read of the next block completes. -/
def readNextBlock (acked dripFirst : Bool) (s : State) : State :=
  let x := storedBlock s s.loader.next
  if !acked then
    endLoading s.loader.taken (if s.loader.next = 0 then .noMemory else .badCheck) true dripFirst s
  else if blockSound x then takeBlock x dripFirst s
  else endLoading s.loader.taken .badCheck true dripFirst s

/-- SETTINGS_BLOCK_READ (R175). The loader reads only while loading, and waits for a write in progress (R178). -/
def execSettingsBlockRead (acked dripFirst : Bool) (s : State) : Host.Outcome State Fault Refusal :=
  .next (if s.loader.loading && s.loader.store.isNone then readNextBlock acked dripFirst s else s)

/-! ## The warm restart (R179) -/

/-- R164, R168: what a line break or a warm restart does to a line. -/
def Line.break (ln : Line) : Line :=
  { ln with rx := .hunting, awaitIdle := true, service := .empty, waiting := [], badCount := 0 }

/-- R29, R110: a branch record at the beginning of a warm restart. -/
def Branch.warm (br : Branch) : Branch :=
  { br with dockTimer := none, clearance := false, primeGood := 0, idle := 0, account := Account.zero }

/-- R110, R143: the rail record at the beginning of a warm restart. -/
def Rail.warm (r : Rail) : Rail := { r with timer := none, account := Account.zero }

/-- R75: the Allocator at the beginning of a warm restart. -/
def Allocator.warm (a : Allocator) : Allocator :=
  { a with pendingBudget := a.effectiveBudget, shortfall := false, reportedDemand := 0, age := 0, ageState := .fresh }

/-- R175, R176, R179: the loader begins to read from block 0; the kind of a loading in progress does not change. -/
def Loader.warm (d : Loader) : Loader :=
  { d with loading := true, afterPowerOn := d.loading && d.afterPowerOn, next := 0, taken := [], defaulted := false }

/-- R179: a warm restart begins, or a loading in progress starts again with the same actions (R176). -/
def warmRestart (s : State) : State :=
  let s := { s with
    branches := Vec.map Branch.warm s.branches
    rail := s.rail.warm
    meter := s.meter.warm
    alloc := s.alloc.warm
    drip := DripUnit.reset
    lines := Vec.map Line.break s.lines
    attn := Vec.map (fun a => { a with entries := [] }) s.attn
    loader := s.loader.warm }
  if s.iso.tripAsserted then raiseSup .tripLine 0 s else s

/-- WARM_RST_ASSERTED (R179). -/
def execWarmRstAsserted (s : State) : Host.Outcome State Fault Refusal :=
  .next
    (if s.loader.warmAsserted then s
    else
      warmRestart ((s.updPins fun p => { p with warm := true }).updLoader fun d =>
        { d with warmAsserted := true, warmCandidate := 0 }))

/-- WARM_RST_NEGATED (R179). -/
def execWarmRstNegated (s : State) : Host.Outcome State Fault Refusal :=
  .next
    (if s.loader.warmAsserted then
      (s.updPins fun p => { p with warm := false }).updLoader fun d => { d with warmAsserted := false, warmCandidate := 0 }
    else s)

/-! ## Stored writes and power-on reset (R178) -/

/-- R178: the EEPROM after a power-on reset that abandons a write holds any mixture of old and new octets (log 12). -/
def abandonWrite (s : State) : State :=
  match s.loader.store with
  | none => s
  | some w =>
    { s.storeHalf w.block w.half fun i =>
        if Config.keepsOldOctet s.freeCount i then Memory.read s.eeprom (halfAddress w.block w.half + i)
        else w.octets.getD i 0 with
      freeCount := s.freeCount + 1 }

/-- POWER_ON_RESET (R28, R44, R74, R90, R109, R123, R142, R154, R156, R168, R174, R178). The EEPROM and the input pins lie
outside the part. -/
def execPowerOnReset (holdStrap speedStrap : Bool) (s : State) : Host.Outcome State Fault Refusal :=
  let t := abandonWrite s
  .next
    { State.reset with
      branches := branchesReset holdStrap
      loader := Loader.reset holdStrap speedStrap
      eeprom := t.eeprom
      pins := s.pins
      freeCount := t.freeCount
      pending := s.pending }

/-- R178: the octets a completed write leaves; those of a write not acknowledged are free (log 13). -/
def finishWrite (w : StoreWrite) (acked : Bool) (s : State) : State :=
  if acked then s.storeHalf w.block w.half fun i => w.octets.getD i 0
  else
    { s.storeHalf w.block w.half (Config.failedWriteOctet s.freeCount) with freeCount := s.freeCount + 1 }

/-- STORE_WRITE_COMPLETES (R178). -/
def execStoreWriteCompletes (acked : Bool) (s : State) : Host.Outcome State Fault Refusal :=
  match s.loader.store with
  | none => .next s
  | some w =>
    let t := (finishWrite w acked s).updLoader fun d =>
      { d with store := none, lastWrite := if acked then .done else .failed }
    .next (raiseSup .settingsDone 1 t)

end Sys2Proof.Machine
end

