-- ==== Sys2Proof/Machine/Lines.lean ====
section
/-! DEFINITION. The Line Interfaces: reception of frames, the service and waiting places, the taking of a request,
READ_BRANCH and SET_WINDOW, the sending of replies, and the line break (09). -/

namespace Sys2Proof.Machine

open Sys2Proof

/-! ## READ_BRANCH (R3, R4, R165, 9.7) -/

/-- The two-octet-and-more numbers of a READ_BRANCH reply from offset 8 on. -/
structure RecordNumbers where
  floor : Nat
  cap : Nat
  request : Nat
  grant : Nat
  restricted : Nat
  fopen : Nat
  commanded : Nat
  applied : Nat
  trim : Int
  supply : Int
  returned : Int
  rate : Int
  integrator : Nat
  above : Nat
  takeUp : Nat
  counts : Nat
  timer : Nat
  causes : Nat
  deriving DecidableEq, Repr

/-- Octets 8 to 45 of the reply (9.7). -/
def RecordNumbers.octets (r : RecordNumbers) : List Byte :=
  toOctets 2 r.floor ++ toOctets 2 r.cap ++ toOctets 2 r.request ++ toOctets 2 r.grant ++ toOctets 2 r.restricted ++
    toOctets 2 r.fopen ++ toOctets 2 r.commanded ++ toOctets 2 r.applied ++ toOctetsInt 2 r.trim ++
    toOctetsInt 4 r.supply ++ toOctetsInt 4 r.returned ++ toOctetsInt 2 r.rate ++ toOctets 2 r.integrator ++
    [octet r.above, octet r.takeUp, octet r.counts] ++ toOctets 3 r.timer ++ toOctets 2 r.causes

/-- The code of an absent timer (9.7). -/
def absentTimer : Nat := 0xFFFFFF

/-- The flags octet of a READ_BRANCH reply for a branch (9.7). -/
def branchFlags (s : State) (b : BranchNo) : Nat :=
  flagBit (s.br b).present 0 + flagBit (s.br b).latched 1 + flagBit (s.br b).hold 2 + flagBit (s.br b).clearance 3 +
    flagBit (s.br b).enable 4 + flagBit (s.br b).lost 5 + flagBit (!supplyHealthy s b) 6 + flagBit (!returnHealthy s b) 7

/-- The modes octet of a READ_BRANCH reply for a branch (9.7). -/
def branchModes (s : State) (b : BranchNo) : Nat :=
  (s.br b).led.code + 4 * stripCode (trayState s b) + 16 * (s.br b).account.state.code +
    flagBit ((s.br b).tier != 0) 6 + flagBit (s.br b).restricted.isSome 7

/-- Octets 2 to 45 of a READ_BRANCH reply for a branch (9.7). -/
def branchReply (s : State) (b : BranchNo) : List Byte :=
  let br := s.br b
  [octet b.val, octet br.dock.code, octet (branchFlags s b), octet (branchModes s b),
      octet (orCode (br.owner.map (·.val)) 0xFF), octet (orCode (br.incident.map (·.val)) 0xFF)] ++
    RecordNumbers.octets
      { floor := br.floor
        cap := br.cap
        request := br.request
        grant := br.grant
        restricted := orCode br.restricted 0
        fopen := br.fopen
        commanded := br.commanded
        applied := br.applied
        trim := br.trim
        supply := supplyVolume s b
        returned := returnVolume s b
        rate := supplyRate s b
        integrator := br.account.integrator
        above := br.account.above
        takeUp := br.takeUp
        counts := br.primeGood + 16 * br.idle
        timer := orCode br.dockTimer absentTimer
        causes := branchSetBits br.causes }

/-- The flags octet of a READ_BRANCH reply for the rail: the lost flag and the health of the inlet and the outlet. -/
def railFlags (s : State) : Nat :=
  flagBit s.rail.lost 5 + flagBit ((s.snapChannel 24).health = .degraded) 6 +
    flagBit ((s.snapChannel 25).health = .degraded) 7

/-- Octets 2 to 45 of a READ_BRANCH reply for the rail: fields the rail record does not have read 0 (9.7). -/
def railReply (s : State) : List Byte :=
  [0xFF, octet s.rail.state.code, octet (railFlags s), octet (16 * s.rail.account.state.code), 0,
      octet (orCode (s.rail.incident.map (·.val)) 0xFF)] ++
    RecordNumbers.octets
      { floor := 0
        cap := 0
        request := 0
        grant := 0
        restricted := 0
        fopen := 0
        commanded := 0
        applied := 0
        trim := 0
        supply := inletVolume s
        returned := outletVolume s
        rate := 0
        integrator := s.rail.account.integrator
        above := s.rail.account.above
        takeUp := 0
        counts := 0
        timer := orCode s.rail.timer absentTimer
        causes := railSetBits s.rail.causes }

/-- Octets 2 to 45 of a READ_BRANCH reply for the null record: drive enable set, every absent field absent (R4). -/
def nullReply : List Byte :=
  [0xFE, 0, octet (flagBit true 4), 0, 0xFF, 0xFF] ++
    RecordNumbers.octets
      { floor := 0
        cap := 0
        request := 0
        grant := 0
        restricted := 0
        fopen := 0
        commanded := 0
        applied := 0
        trim := 0
        supply := 0
        returned := 0
        rate := 0
        integrator := 0
        above := 0
        takeUp := 0
        counts := 0
        timer := absentTimer
        causes := 0 }

/-- READ_BRANCH (R3, R5, R165): an index outside the window reads the null record, but from the plant line NO_TARGET,
which is a refusal at test 5 of R162 and carries STATUS alone. -/
def serveReadBranch (l : LineNo) (tag : Byte) (body : List Byte) (s : State) : State :=
  let index := octet (octetAt body 0)
  let reply := fun rest => startReply l Kind.readBranch.code tag .ok (index :: rest) s
  match translate s l (octetAt body 0) with
  | .branch b => reply (branchReply s b)
  | .rail => reply (railReply s)
  | .outside => if l = plantLine then startReply l Kind.readBranch.code tag .noTarget [] s else reply nullReply

/-! ## SET_WINDOW (R166, R167) -/

/-- The window includes the branch. -/
def Window.includes (w : Window) (b : BranchNo) : Bool := w.base ≤ b.val && b.val < w.base + w.span

/-- R166, test 2: the base and span of a window are in range. -/
def Window.inRange (w : Window) : Bool := w.base ≤ 11 && w.span ≤ 12 && w.base + w.span ≤ 12

/-- R166, test 3: the window would include a branch of the window of another sled line. -/
def overlapsOther (s : State) (n : BranchNo) (w : Window) : Bool :=
  allBranches.any fun m => m != n && allBranches.any fun b => w.includes b && (s.window m).includes b

/-- R167: the owner of a branch when sled line `n` has its window replaced. -/
def ownerAfter (n : BranchNo) (w : Window) (b : BranchNo) (owner : Option BranchNo) : Option BranchNo :=
  if w.includes b then some n else if owner = some n then none else owner

/-- R166, R167: the window of a sled line is replaced, with the owner lines. -/
def replaceWindow (n : BranchNo) (w : Window) (s : State) : State :=
  { s.setWindow n w with
    branches := branchTable fun b => { s.br b with owner := ownerAfter n w b (s.br b).owner } }

/-- R166: the status of a SET_WINDOW for a sled line. -/
def windowStatus (s : State) (n : BranchNo) (w : Window) : Status :=
  if !w.inRange then .notServed else if overlapsOther s n w then .overlap else .ok

/-- The base and span a SET_WINDOW reply carries. A line number above 12 has no window; the supervisor line has the fixed
window of R165 (log 22). -/
def windowOfLine (s : State) (n : Nat) : Window :=
  if h : n < 12 then s.window ⟨n, h⟩ else if n = 12 then ⟨0, 12⟩ else ⟨0, 0⟩

/-- R166: the state after a SET_WINDOW, and its status. -/
def setWindowResult (s : State) (n : Nat) (w : Window) : State × Status :=
  if h : n < 12 then
    match windowStatus s ⟨n, h⟩ w with
    | .ok => (replaceWindow ⟨n, h⟩ w s, .ok)
    | st => (s, st)
  else (s, .noTarget)

/-- SET_WINDOW (R166). -/
def serveSetWindow (l : LineNo) (tag : Byte) (body : List Byte) (s : State) : State :=
  let n := octetAt body 0
  let (t, st) := setWindowResult s n ⟨octetAt body 1, octetAt body 2⟩
  let w := windowOfLine t n
  startReply l Kind.setWindow.code tag st [octet w.base, octet w.span] t

/-! ## The taking of a request (R162) -/

/-- R162: the tests 1 to 4, with the KIND of a request that passes them. -/
def checkRequest (s : State) (l : LineNo) (f : Frame) : Except Status Kind :=
  match Kind.ofOctet f.kind with
  | none => .error .unknownKind
  | some k =>
    if !k.takenOn (lineClass l) then .error .wrongLine
    else if s.loader.loading && k != .readAttn then .error .notReady
    else if f.body.length < k.bodyLength then .error .notServed
    else .ok k

/-- R162: a request that passes tests 1 to 4 is served here, handed to its owner, or refused at test 5. -/
def handRequest (l : LineNo) (k : Kind) (f : Frame) (s : State) : State :=
  match k with
  | .readBranch => serveReadBranch l f.tag f.body s
  | .setWindow => serveSetWindow l f.tag f.body s
  | k =>
    match parseRequest s l k f.body with
    | some r => s.updLine l fun ln => { ln with service := .handed f.tag r }
    | none => startReply l f.kind f.tag .noTarget [] s

/-- R162: the Line Interface takes a request that enters the service place. -/
def takeForService (l : LineNo) (f : Frame) (s : State) : State :=
  match checkRequest s l f with
  | .error st => startReply l f.kind f.tag st [] s
  | .ok k => handRequest l k f s

/-! ## Reception (R156 to R160) -/

/-- R159, R160: LINE_FAULT for a line. -/
def raiseLineFault (l : LineNo) (overrun : Bool) (s : State) : State :=
  raise supLine ⟨.sup .lineFault, l.val, [], overrun⟩ s

/-- R158, R159: a frame in reception is discarded, and the discard is counted. -/
def discardFrame (l : LineNo) (s : State) : State :=
  let t := s.updLine l fun ln => { ln with rx := .hunting, badCount := min 8 (ln.badCount + 1) }
  if (s.line l).badCount = 7 then raiseLineFault l false t else t

/-- R156, R164: an octet that arrives shows that the input has been at the idle level, which ends a wait for it; an octet
with a framing error begins one (log 27). -/
def noteOctet (l : LineNo) (framingError : Bool) (s : State) : State :=
  s.updLine l fun ln => { ln with awaitIdle := framingError }

/-- R160: a received frame enters the service place, waits, or is lost to an overrun. -/
def placeFrame (l : LineNo) (f : Frame) (s : State) : State :=
  let s := s.updLine l fun ln => { ln with rx := .hunting }
  if (s.line l).service = .empty then takeForService l f s
  else if (s.line l).waiting.length < 2 then s.updLine l fun ln => { ln with waiting := ln.waiting ++ [f] }
  else raiseLineFault l true s

/-- R158: a frame complete at the end of its CHECK is received or discarded. -/
def completeFrame (l : LineNo) (f : Frame) (check : BitVec 16) (s : State) : State :=
  if check = frameCheck f.kind f.tag f.body then placeFrame l f s else discardFrame l s

/-- FRAME_RECEIVED (R158, R160; log 6). A BODY that LEN cannot give is discarded at LEN. The octets of a frame arrive from
the idle level, so a frame received ends a wait for it (log 27). -/
def execFrameReceived (l : LineNo) (kind tag : Byte) (body : List Byte) (check : BitVec 16) (s : State) :
    Host.Outcome State Fault Refusal :=
  let t := noteOctet l false s
  .next (if body.length ≤ 48 then completeFrame l ⟨kind, tag, body⟩ check t else discardFrame l t)

/-- R158: the octets after SYNC of a complete frame, as a frame and its CHECK. -/
def frameOf (xs : List Byte) : Frame × BitVec 16 :=
  let len := octetAt xs 0
  (⟨xs.getD 1 0, xs.getD 2 0, (xs.drop 3).take (len - 2)⟩, BitVec.ofNat 16 (numberAt xs (len + 1) 2))

/-- R158: an octet joins the frame in reception. -/
def collectOctet (l : LineNo) (xs : List Byte) (s : State) : State :=
  let len := octetAt xs 0
  if len < 2 || 50 < len then discardFrame l s
  else if xs.length < len + 3 then s.updLine l fun ln => { ln with rx := .inFrame xs }
  else completeFrame l (frameOf xs).1 (frameOf xs).2 s

/-- R158: the receiver takes an octet. An octet with a framing error discards a frame in reception at LEN too, which R158
does not say (DEDUCED, log 27). -/
def receiveOctet (l : LineNo) (octet : Byte) (framingError : Bool) (s : State) : State :=
  match (s.line l).rx with
  | .hunting =>
    if octet = 0xC3 && !framingError then s.updLine l fun ln => { ln with rx := .inFrame [] } else s
  | .inFrame xs => if framingError then discardFrame l s else collectOctet l (xs ++ [octet]) s

/-- OCTET_RECEIVED (R156, R158; log 27). After a framing error the receiver waits for the idle level; an octet that
arrives shows that it has been there. -/
def execOctetReceived (l : LineNo) (octet : Byte) (framingError : Bool) (s : State) : Host.Outcome State Fault Refusal :=
  .next (receiveOctet l octet framingError (noteOctet l framingError s))

/-- INTER_OCTET_TIMEOUT (R158). R158 names the gap "during collection", which begins after LEN, and calls it a gap between
octets "of the frame", of which SYNC is one. DEDUCED, log 27: a gap between SYNC and LEN discards and counts as a later
one does. In HUNTING no frame is in reception and nothing changes (log 4). -/
def execInterOctetTimeout (l : LineNo) (s : State) : Host.Outcome State Fault Refusal :=
  match (s.line l).rx with
  | .hunting => .next s
  | .inFrame _ => .next (discardFrame l s)

/-- BAD_FRAME_COUNT_REACHED (R159; log 8): the discard that brings the count to 8. -/
def execBadFrameCountReached (l : LineNo) (s : State) : Host.Outcome State Fault Refusal :=
  .next (if (s.line l).badCount = 7 then discardFrame l s else s)

/-! ## Replies and breaks (R163, R164, R179) -/

/-- R163: the service place empties, and the oldest waiting request enters it and is taken. -/
def serviceNext (l : LineNo) (s : State) : State :=
  match (s.line l).waiting with
  | [] => s.updLine l fun ln => { ln with service := .empty }
  | f :: rest => takeForService l f (s.updLine l fun ln => { ln with service := .empty, waiting := rest })

/-- REPLY_SENT (R163, R179; log 18). -/
def execReplySent (l : LineNo) (s : State) : Host.Outcome State Fault Refusal :=
  match (s.line l).service with
  | .sending r => .next (if r.beginsRestart then warmRestart s else serviceNext l s)
  | .empty | .handed _ _ => .next s

/-- R179: the reply being sent on the line begins a warm restart when it is cut. -/
def cutsRestart (ln : Line) : Bool :=
  match ln.service with
  | .sending r => r.beginsRestart
  | .empty | .handed _ _ => false

/-- LINE_BREAK (R164, R179). -/
def execLineBreak (l : LineNo) (s : State) : Host.Outcome State Fault Refusal :=
  let t := s.updLine l Line.break
  .next (if cutsRestart (s.line l) then warmRestart t else t)

end Sys2Proof.Machine
end

