-- ==== Sys2Proof/Machine/FlowRequests.lean ====
section
/-! DEFINITION. The requests the Allocator serves: FLOW_REQUEST, TRANSFER, SET_BRANCH, BUDGET, READ_ROUND and READ_DEMAND
(03). Each is the taking of the request that the Line Interface handed over (R162); with no such request handed there is
no such event, and nothing changes (log 4). -/

namespace Sys2Proof.Machine

open Sys2Proof

/-- R46, R63, R64: the flags octet, whose least significant bit is CLAMPED. -/
def clampedFlag (clamped : Bool) : Byte := octet (flagBit clamped 0)

/-! ## FLOW_REQUEST (R63) -/

/-- R63: the dock states in which a FLOW_REQUEST is stored. -/
def storesRequest (d : DockState) : Bool :=
  match d with
  | .seated | .held | .priming | .admitted | .adopting => true
  | .vacant | .releasing | .draining | .pullReady | .isolating | .isolated => false

/-- R63: the value as stored. -/
def storedRequest (s : State) (b : BranchNo) (flow : Nat) : Nat := clampNat (s.br b).floor (s.br b).cap flow

/-- R63: the request is stored, and the restriction is lifted. -/
def storeRequest (b : BranchNo) (flow : Nat) (s : State) : State :=
  s.updBranch b fun br => { br with request := storedRequest s b flow, restricted := none, takeUp := 0 }

/-- R63: FLOW_REQUEST. -/
def serveFlowRequest (l : LineNo) (tag : Byte) (b : BranchNo) (flow : Nat) (s : State) : State :=
  if storesRequest (s.br b).dock then
    startReply l Kind.flowRequest.code tag .ok
      (clampedFlag (storedRequest s b flow != flow) :: toOctets 2 (storedRequest s b flow)) (storeRequest b flow s)
  else startReply l Kind.flowRequest.code tag .notServed [0, 0, 0] s

/-- FLOW_REQUEST (R63). -/
def execFlowRequest (l : LineNo) (s : State) : Host.Outcome State Fault Refusal :=
  match (s.line l).service with
  | .handed tag (.flowRequest b flow) => .next (serveFlowRequest l tag b flow s)
  | _ => .next s

/-! ## TRANSFER (R66, R67) -/

/-- R66: the amount moved: the least of X, Gi − Fi and Capj − Gj, or 0 where that is below 0 or the branches are one. -/
def transferAmount (s : State) (i j : BranchNo) (x : Nat) : Nat :=
  if i = j then 0 else min x (min ((s.br i).grant - (s.br i).floor) ((s.br j).cap - (s.br j).grant))

/-- R67: the source of a transfer. -/
def Branch.giveUp (m : Nat) (br : Branch) : Branch :=
  { br with grant := br.grant - m, request := max br.floor (br.request - m) }.redrive

/-- R67: the destination of a transfer. -/
def Branch.takeOver (m : Nat) (br : Branch) : Branch :=
  { br with grant := br.grant + m, request := min br.cap (br.request + m) }.redrive

/-- R67: the transfer of `m`, and GRANT_CHANGED for both branches when it is q or more. -/
def applyTransfer (i j : BranchNo) (m : Nat) (s : State) : State :=
  if m = 0 then s
  else
    let t := (s.updBranch i (Branch.giveUp m)).updBranch j (Branch.takeOver m)
    if s.params.quantum ≤ m then raiseOwner j .grantChanged [] (raiseOwner i .grantChanged [] t) else t

/-- R66, R67: TRANSFER. -/
def serveTransfer (l : LineNo) (tag : Byte) (i j : BranchNo) (x : Nat) (s : State) : State :=
  if (s.br i).dock = .admitted && (s.br j).dock = .admitted then
    startReply l Kind.transfer.code tag .ok (toOctets 2 (transferAmount s i j x))
      (applyTransfer i j (transferAmount s i j x) s)
  else startReply l Kind.transfer.code tag .notServed [0, 0] s

/-- TRANSFER (R66, R67). -/
def execTransfer (l : LineNo) (s : State) : Host.Outcome State Fault Refusal :=
  match (s.line l).service with
  | .handed tag (.transfer i j x) => .next (serveTransfer l tag i j x s)
  | _ => .next s

/-! ## SET_BRANCH (R12, R64, R65) -/

/-- R64: the values a SET_BRANCH sets: a tier other than 0 is 1, and the floor is at most the new cap. -/
def setLimits (tier floor cap fopen : Nat) : Limits where
  tier := if tier = 0 then 0 else 1
  floor := min (clampNat 100 4000 cap) (clampNat 0 1000 floor)
  cap := clampNat 100 4000 cap
  fopen := clampNat 100 4000 fopen

/-- R64: some value was clamped (log 21). -/
def limitsClamped (v : Limits) (floor cap fopen : Nat) : Bool := v.floor != floor || v.cap != cap || v.fopen != fopen

/-- R65: a grant brought within the new cap, and in PRIMING within Prime Flow. -/
def loweredGrant (primeFlow cap : Nat) (br : Branch) : Nat :=
  if br.dock = .priming then min (min br.grant cap) (min primeFlow cap) else min br.grant cap

/-- R64, R65: the Allocator's and the Valve Drive Unit's fields of a branch after a SET_BRANCH. -/
def Branch.setTo (primeFlow : Nat) (v : Limits) (br : Branch) : Branch :=
  { br with
    tier := v.tier
    floor := v.floor
    cap := v.cap
    fopen := v.fopen
    request := clampNat v.floor v.cap br.request
    restricted := none
    takeUp := 0
    grant := loweredGrant primeFlow v.cap br }.redrive

/-- R12: a hold turned off in HELD starts the Seat Settle when neither the clearance nor the timer stands. -/
def startsSettle (br : Branch) (hold : Bool) : Bool :=
  br.dock = .held && br.hold && !hold && !br.clearance && br.dockTimer.isNone

/-- R12: the admission hold is set. A Seat Settle of 0 expires at this event (R11). -/
def setHold (b : BranchNo) (hold : Bool) (s : State) : State :=
  let t := s.updBranch b fun br => { br with hold := hold }
  if startsSettle (s.br b) hold then
    if s.params.seatSettle = 0 then gate b (t.updBranch b fun br => { br with clearance := true })
    else t.updBranch b fun br => { br with dockTimer := some (s.params.seatSettle * 1000) }
  else t

/-- R12, R64, R65: the effect of a SET_BRANCH. -/
def applySetBranch (b : BranchNo) (v : Limits) (hold : Bool) (s : State) : State :=
  let t := s.updBranch b (Branch.setTo s.params.primeFlow v)
  setHold b hold (raiseGrantChanged b (s.br b).grant t)

/-- R64: the reply of SET_BRANCH. -/
def setBranchReply (v : Limits) (clamped hold : Bool) : List Byte :=
  clampedFlag clamped :: octet v.tier :: toOctets 2 v.floor ++ toOctets 2 v.cap ++ toOctets 2 v.fopen ++
    [octet (flagBit hold 0)]

/-- SET_BRANCH (R12, R64, R65). -/
def execSetBranch (s : State) : Host.Outcome State Fault Refusal :=
  match (s.line supLine).service with
  | .handed tag (.setBranch b tier floor cap fopen hold) =>
    let v := setLimits tier floor cap fopen
    .next (startReply supLine Kind.setBranch.code tag .ok (setBranchReply v (limitsClamped v floor cap fopen) hold)
      (applySetBranch b v hold s))
  | _ => .next s

/-! ## BUDGET (R46, R48) -/

/-- R46: the pending budget as stored. -/
def storedBudget (value : Nat) : Nat := min 40000 value

/-- R46, R48: the pending budget is declared, and the age starts anew. -/
def declareBudget (value : Nat) (s : State) : State :=
  s.updAlloc fun a => { a with pendingBudget := storedBudget value, age := 0, ageState := .fresh }

/-- R46: an urgent BUDGET runs a round at the same event. -/
def applyBudget (value : Nat) (urgent : Bool) (s : State) : State :=
  if urgent then runRound (declareBudget value s) else declareBudget value s

/-- BUDGET (R46, R48, R50). -/
def execBudget (s : State) : Host.Outcome State Fault Refusal :=
  match (s.line plantLine).service with
  | .handed tag (.budget value urgent) =>
    .next (startReply plantLine Kind.budget.code tag .ok
      (clampedFlag (storedBudget value != value) :: toOctets 2 (storedBudget value)) (applyBudget value urgent s))
  | _ => .next s

/-! ## READ_ROUND (R61) -/

/-- R61: the round record as a reply carries it. -/
def roundReply (r : RoundRecord) : List Byte :=
  toOctets 2 r.seq.toNat ++ toOctets 2 r.budget ++ toOctets 2 r.available ++ toOctets 2 r.sumFloors ++
    toOctets 2 r.sumGrants ++ toOctets 2 r.residue ++ toOctets 2 r.bypassTarget ++
    [octet r.p1.val, octet r.p0.val, octet r.participants, octet (flagBit r.short 0)]

/-- READ_ROUND (R61). -/
def execReadRound (l : LineNo) (s : State) : Host.Outcome State Fault Refusal :=
  match (s.line l).service with
  | .handed tag .readRound => .next (startReply l Kind.readRound.code tag .ok (roundReply s.alloc.round) s)
  | _ => .next s

/-! ## READ_DEMAND (R71) -/

/-- R71: the sum of the supply rates of all twelve branches. -/
def rateSum (s : State) : Int := sumBranchesInt (supplyRate s)

/-- R71: the shortfall reported. -/
def reportedShortfall (r : RoundRecord) : Nat := if r.short then r.sumFloors - r.available else 0

/-- R71: the reply of READ_DEMAND. -/
def demandReply (s : State) : List Byte :=
  toOctets 2 (requestSum s) ++ toOctets 2 s.alloc.round.sumFloors ++ toOctets 2 (grantSum s) ++ toOctetsInt 4 (rateSum s) ++
    toOctets 2 (reportedShortfall s.alloc.round) ++ [octet s.rail.state.code] ++ toOctets 2 s.alloc.effectiveBudget ++
    toOctets 2 s.alloc.pendingBudget ++ [octet s.alloc.ageState.code]

/-- R71: a READ_DEMAND of the plant sets the reported demand. -/
def noteDemand (l : LineNo) (s : State) : State :=
  if l = plantLine then s.updAlloc fun a => { a with reportedDemand := requestSum s } else s

/-- READ_DEMAND (R71). -/
def execReadDemand (l : LineNo) (s : State) : Host.Outcome State Fault Refusal :=
  match (s.line l).service with
  | .handed tag .readDemand => .next (startReply l Kind.readDemand.code tag .ok (demandReply s) (noteDemand l s))
  | _ => .next s

end Sys2Proof.Machine
end

