-- ==== Sys2Proof/Machine/DockRequests.lean ====
section
/-! DEFINITION. The requests the Dock Controllers serve: RELEASE and ADMIT (01, 1.6). -/

namespace Sys2Proof.Machine

open Sys2Proof

/-- 1.6: the status of a RELEASE in a dock state. -/
def releaseStatus (d : DockState) : Status :=
  match d with
  | .vacant | .isolating | .isolated => .notServed
  | .seated | .held | .priming | .admitted | .adopting | .releasing | .draining | .pullReady => .ok

/-- R9, R10, R14, R17, R18, R19, R21: the effect of a RELEASE. -/
def releaseBay (b : BranchNo) (s : State) : State :=
  match (s.br b).dock with
  | .seated | .held => enterPullReady b s
  | .priming | .admitted | .adopting => s.updBranch b (Branch.toReleasing s.params)
  | .vacant | .releasing | .draining | .pullReady | .isolating | .isolated => s

/-- 1.6: a reply that carries the dock state after the request. -/
def replyDock (l : LineNo) (k : Kind) (tag : Byte) (st : Status) (b : BranchNo) (s : State) : State :=
  startReply l k.code tag st [octet (s.br b).dock.code] s

/-- RELEASE (R21). -/
def execRelease (l : LineNo) (s : State) : Host.Outcome State Fault Refusal :=
  match (s.line l).service with
  | .handed tag (.release b) =>
    .next (replyDock l .release tag (releaseStatus (s.br b).dock) b (releaseBay b s))
  | _ => .next s

/-- 1.6: the status of an ADMIT in a dock state. -/
def admitStatus (d : DockState) : Status :=
  match d with
  | .held | .pullReady => .ok
  | .vacant | .seated | .priming | .admitted | .adopting | .releasing | .draining | .isolating | .isolated => .notServed

/-- R12, R24: the effect of an ADMIT. -/
def admitEffect (b : BranchNo) (s : State) : State :=
  match (s.br b).dock with
  | .held =>
    if (s.br b).hold && !(s.br b).clearance then
      gate b (s.updBranch b fun br => { br with clearance := true, dockTimer := none })
    else s
  | .pullReady => enterHeld b true s
  | .vacant | .seated | .priming | .admitted | .adopting | .releasing | .draining | .isolating | .isolated => s

/-- ADMIT (R12, R24). -/
def execAdmitBay (s : State) : Host.Outcome State Fault Refusal :=
  match (s.line supLine).service with
  | .handed tag (.admitBay b) =>
    .next (replyDock supLine .admitBay tag (admitStatus (s.br b).dock) b (admitEffect b s))
  | _ => .next s

end Sys2Proof.Machine
end

