-- ==== Sys2Proof/Machine/AttnRequests.lean ====
section
/-! DEFINITION. The requests the Attention Unit serves: READ_ATTN, CLEAR_ATTN and SET_ATTN_MASK (10). -/

namespace Sys2Proof.Machine

open Sys2Proof

/-- R170, 9.7: a detail entry as a reply carries it. -/
def AttnEntry.octets (e : AttnEntry) : List Byte :=
  match e.cause with
  | .sled .isolated => octet e.key :: toOctets 2 (branchSetBits e.causes)
  | .sup .lineFault => [octet (e.key + flagBit e.overrun 7)]
  | .sled .pullReady | .sled .restricted | .sled .admitted | .sled .grantChanged => [octet e.key]
  | .sup .incidentClosed | .sup .logBusy | .sup .commonWet | .sup .meterDegraded | .sup .restricted
  | .sup .settingsDone => [octet e.key]
  | .sup .tripLine | .sup .shortfall | .sup .budgetStale | .sup .stripChange => []
  | .plant .railClosed | .plant .shortfall | .plant .budgetStale | .plant .demandChanged => []

/-- R170: the detail list reported for a cause; a cause without detail has none (log 30). -/
def reportedList (a : AttnLine) (c : AttnCause) : List AttnEntry := if c.plain then [] else detailList a c

/-- R170: the reply of READ_ATTN. R170 gives the count of "that cause's" list; with no pending cause in the mask (0xFF)
there is no such list, and the count is 0 and no entry follows (DEDUCED, log 30). -/
def attnReply (a : AttnLine) (chosen : Option AttnCause) : List Byte :=
  match chosen with
  | none => [0xFF, 0] ++ toOctets 2 (pendingBits a).toNat ++ toOctets 2 a.mask.toNat
  | some c =>
    [octet c.number, octet (reportedList a c).length] ++ toOctets 2 (pendingBits a).toNat ++ toOctets 2 a.mask.toNat ++
      (reportedList a c).flatMap AttnEntry.octets

/-- R170: the causes that leave the set when a reply reports them. -/
def AttnCause.leavesOnRead (c : AttnCause) : Bool := c = .sled .grantChanged || c = .plant .demandChanged

/-- R170: GRANT_CHANGED or DEMAND_CHANGED, when chosen, leaves the set. -/
def noteRead (l : LineNo) (chosen : Option AttnCause) (s : State) : State :=
  match chosen with
  | none => s
  | some c => if c.leavesOnRead then dropCause l c s else s

/-- READ_ATTN (R170). -/
def execReadAttn (l : LineNo) (s : State) : Host.Outcome State Fault Refusal :=
  match (s.line l).service with
  | .handed tag .readAttn =>
    let chosen := highestCause (lineClass l) (s.attnOf l)
    .next (startReply l Kind.readAttn.code tag .ok (attnReply (s.attnOf l) chosen) (noteRead l chosen s))
  | _ => .next s

/-- R171: CLEAR_ATTN. -/
def serveClearAttn (l : LineNo) (tag : Byte) (set : BitVec 16) (s : State) : State :=
  let t := clearCauses l set s
  startReply l Kind.clearAttn.code tag .ok (toOctets 2 (pendingBits (t.attnOf l)).toNat) t

/-- CLEAR_ATTN (R171). -/
def execClearAttn (l : LineNo) (s : State) : Host.Outcome State Fault Refusal :=
  match (s.line l).service with
  | .handed tag (.clearAttn set) => .next (serveClearAttn l tag set s)
  | _ => .next s

/-- R172: the mask as set, restricted to the causes of the line's class. -/
def maskOf (l : LineNo) (set : BitVec 16) : BitVec 16 := set &&& (lineClass l).allCauses

/-- R172: SET_ATTN_MASK. -/
def serveSetAttnMask (l : LineNo) (tag : Byte) (set : BitVec 16) (s : State) : State :=
  startReply l Kind.setAttnMask.code tag .ok (toOctets 2 (maskOf l set).toNat)
    (s.updAttn l fun a => { a with mask := maskOf l set })

/-- SET_ATTN_MASK (R172). -/
def execSetAttnMask (l : LineNo) (s : State) : Host.Outcome State Fault Refusal :=
  match (s.line l).service with
  | .handed tag (.setAttnMask set) => .next (serveSetAttnMask l tag set s)
  | _ => .next s

end Sys2Proof.Machine
end

