-- ==== Sys2Proof/Machine/IsolationRequests.lean ====
section
/-! DEFINITION. The requests the Isolation Controller serves: ISOLATE, CLEAR_CAUSE, RESTORE, PLANT_STOP and PLANT_RESUME
(07). -/

namespace Sys2Proof.Machine

open Sys2Proof

/-- R127, R129: a target's isolation set, one bit per cause at the bit of its code. -/
def targetSet (s : State) : Target → Nat
  | .branch b => branchSetBits (s.br b).causes
  | .rail => railSetBits s.rail.causes

/-- R127: COMMANDED is added to the target's set. -/
def isolateTarget (t : Target) (s : State) : State :=
  match t with
  | .branch b => addBranchCause b .commanded false s
  | .rail => addRailCause .commanded s

/-- A reply that carries the target's set after the request. -/
def replySet (k : Kind) (tag : Byte) (st : Status) (t : Target) (s : State) : State :=
  startReply supLine k.code tag st (toOctets 2 (targetSet s t)) s

/-- ISOLATE (R127). -/
def execIsolate (s : State) : Host.Outcome State Fault Refusal :=
  match (s.line supLine).service with
  | .handed tag (.isolate t) => .next (replySet .isolate tag .ok t (isolateTarget t s))
  | _ => .next s

/-- R128: the tests of CLEAR_CAUSE for a branch, with the cause to remove where it is removed. -/
def clearBranchTest (s : State) (b : BranchNo) (code : Nat) : Status × Option BranchCause :=
  match BranchCause.ofCode code with
  | none => (.notServed, none)
  | some c =>
    if !(s.br b).causes.contains c then (.ok, none)
    else if c = .rail then (.notServed, none)
    else if c = .trayWet && trayWet s b then (.stillWet, none)
    else if c.leak && (s.br b).incident.isSome then (.incidentOpen, none)
    else (.ok, some c)

/-- R128: the tests of CLEAR_CAUSE for the rail, with the cause to remove where it is removed. -/
def clearRailTest (s : State) (code : Nat) : Status × Option RailCause :=
  match RailCause.ofCode code with
  | none => (.notServed, none)
  | some c =>
    if !s.rail.causes.contains c then (.ok, none)
    else if c = .tripLine || c = .plantStop then (.notServed, none)
    else if c = .commonRail && frozen s then (.stillWet, none)
    else if c.leak && s.rail.incident.isSome then (.incidentOpen, none)
    else (.ok, some c)

/-- R128: CLEAR_CAUSE of a branch. -/
def clearBranch (b : BranchNo) (code : Nat) (s : State) : State :=
  match (clearBranchTest s b code).2 with
  | none => s
  | some c => removeBranchCause b c s

/-- R128: CLEAR_CAUSE of the rail. -/
def clearRail (code : Nat) (s : State) : State :=
  match (clearRailTest s code).2 with
  | none => s
  | some c => removeRailCause c s

/-- R128: the status of a CLEAR_CAUSE. -/
def clearStatus (s : State) (code : Nat) : Target → Status
  | .branch b => (clearBranchTest s b code).1
  | .rail => (clearRailTest s code).1

/-- R128: the effect of a CLEAR_CAUSE. -/
def clearTarget (t : Target) (code : Nat) (s : State) : State :=
  match t with
  | .branch b => clearBranch b code s
  | .rail => clearRail code s

/-- CLEAR_CAUSE (R128, R129). -/
def execClearCause (s : State) : Host.Outcome State Fault Refusal :=
  match (s.line supLine).service with
  | .handed tag (.clearCause t code) =>
    .next (replySet .clearCause tag (clearStatus s code t) t (clearTarget t code s))
  | _ => .next s

/-- R140, R86: an accepted RESTORE. -/
def restoreDrives (s : State) : State := setEnables (removeRailCause .tripLine s)

/-- R140: RESTORE. -/
def serveRestore (tag : Byte) (s : State) : State :=
  if s.iso.tripAsserted then startReply supLine Kind.restore.code tag .tripAsserted [0] s
  else
    let t := restoreDrives s
    startReply supLine Kind.restore.code tag .ok [octet t.rail.state.code] t

/-- RESTORE (R86, R140). -/
def execRestore (s : State) : Host.Outcome State Fault Refusal :=
  match (s.line supLine).service with
  | .handed tag .restore => .next (serveRestore tag s)
  | _ => .next s

/-- R135, R136: a reply that carries the rail state and the rail set after the request. -/
def replyRail (k : Kind) (tag : Byte) (s : State) : State :=
  startReply plantLine k.code tag .ok (octet s.rail.state.code :: toOctets 2 (railSetBits s.rail.causes)) s

/-- R49, R135: the age suspension goes on. -/
def stopPlant (s : State) : State := (addRailCause .plantStop s).updAlloc fun a => { a with suspended := true }

/-- R49, R136: the age suspension goes off. -/
def resumePlant (s : State) : State := (removeRailCause .plantStop s).updAlloc fun a => { a with suspended := false }

/-- PLANT_STOP (R49, R135). -/
def execPlantStop (s : State) : Host.Outcome State Fault Refusal :=
  match (s.line plantLine).service with
  | .handed tag .plantStop => .next (replyRail .plantStop tag (stopPlant s))
  | _ => .next s

/-- PLANT_RESUME (R49, R136). -/
def execPlantResume (s : State) : Host.Outcome State Fault Refusal :=
  match (s.line plantLine).service with
  | .handed tag .plantResume => .next (replyRail .plantResume tag (resumePlant s))
  | _ => .next s

end Sys2Proof.Machine
end

