-- ==== Sys2Proof/Machine/ReportRequests.lean ====
section
/-! DEFINITION. The requests the Drip Sense Unit, the Meter Unit and the Incident Ring serve: READ_STRIPS, READ_METERS,
TAKE_INCIDENT, RETURN_INCIDENT and LOG_RESUME (02, 06, 08). -/

namespace Sys2Proof.Machine

open Sys2Proof

/-! ## READ_STRIPS (R114) -/

/-- The sixteen strips as one number, `width` bits each. -/
def stripNumber (width : Nat) (f : StripNo → Nat) : Nat := (allStrips.map fun n => f n * 2 ^ (width * n.val)).sum

/-- R114: admissions frozen, the locate state and the last outcome, in one octet (9.7). -/
def locateOctet (s : State) : Byte :=
  octet (flagBit (frozen s) 0 + flagBit s.drip.running 1 + 4 * s.drip.outcome.code)

/-- R114: the reply of READ_STRIPS. -/
def stripsReply (s : State) : List Byte :=
  toOctets 4 (stripNumber 2 fun n => stripCode (s.strip n).state) ++
    toOctets 2 (stripNumber 1 fun n => flagBit (s.strip n).changed 0) ++
    toOctets 2 (stripNumber 1 fun n => flagBit (actsCommon s n) 0) ++
    [locateOctet s, octet s.drip.windowsLeft, octet (orCode (s.drip.locateStrip.map (·.val)) 0xFF)]

/-- R114, R173: the delta set is emptied, and STRIP_CHANGE leaves the supervisor's cause set. -/
def emptyDelta (s : State) : State :=
  dropCause supLine (.sup .stripChange)
    (s.updDrip fun d => { d with strips := Vec.map (fun x => { x with changed := false }) d.strips })

/-- READ_STRIPS (R114). -/
def execReadStrips (s : State) : Host.Outcome State Fault Refusal :=
  match (s.line supLine).service with
  | .handed tag .readStrips => .next (startReply supLine Kind.readStrips.code tag .ok (stripsReply s) (emptyDelta s))
  | _ => .next s

/-! ## READ_METERS (R42) -/

/-- R42: the channel state of a channel (9.7): the flags and the health of the snapshot, the runs as they stand. -/
def channelState (s : State) (c : ChannelNo) : Nat :=
  flagBit (s.snapChannel c).qerr 0 + flagBit (s.snapChannel c).overrange 1 +
    flagBit ((s.snapChannel c).health = .degraded) 2 + 8 * (s.channel c).qerrRun + 32 * (s.channel c).cleanRun

/-- R42: the eleven octets of a channel. -/
def channelOctets (s : State) (c : ChannelNo) : List Byte :=
  toOctetsInt 2 (s.snapChannel c).count ++ toOctetsInt 3 (s.snapChannel c).volume ++ toOctetsInt 2 (s.snapChannel c).rate ++
    toOctetsInt 2 (s.channel c).acc ++ toOctets 2 (channelState s c)

/-- R42: how many channels are returned. -/
def channelsReturned (first count : Nat) : Nat := min (clampNat 1 4 count) (26 - first)

/-- R42: the channels returned, from the first upward. -/
def channelsFrom (first count : Nat) : List ChannelNo := (allChannels.drop first).take (channelsReturned first count)

/-- R42: READ_METERS. A first channel above 25 returns none. -/
def serveReadMeters (tag : Byte) (first count : Nat) (s : State) : State :=
  if 25 < first then startReply supLine Kind.readMeters.code tag .noTarget [0, 0, 0] s
  else
    startReply supLine Kind.readMeters.code tag .ok
      (octet (channelsReturned first count) :: toOctets 2 s.meter.snap.seq.toNat ++
        (channelsFrom first count).flatMap (channelOctets s)) s

/-- READ_METERS (R42). -/
def execReadMeters (s : State) : Host.Outcome State Fault Refusal :=
  match (s.line supLine).service with
  | .handed tag (.readMeters first count) => .next (serveReadMeters tag first count s)
  | _ => .next s

/-! ## TAKE_INCIDENT (R151) -/

/-- The slot of that number, when there is one. -/
def slotOf (n : Nat) : Option SlotNo := if h : n < 16 then some ⟨n, h⟩ else none

/-- The log state as a reply carries it (9.7). -/
def logStateCode (s : State) : Byte := octet (flagBit s.ring.suspended 0)

/-- The flags octet of a record (9.7). -/
def Slot.flags (r : Slot) : Nat :=
  flagBit r.hotPull 0 + flagBit r.stillWet 1 + flagBit r.flow 2 + flagBit r.lostBefore 3 + flagBit r.seqClose.isSome 4

/-- The nine octets of a cause set in the order added; unused octets 0xFF (9.7). -/
def causeOctets (cs : List Cause) : List Byte := (cs.map (fun (c : Cause) => octet c.code) ++ List.replicate 9 0xFF).take 9

/-- R151: the reply of TAKE_INCIDENT (9.7). -/
def incidentReply (s : State) (k : SlotNo) : List Byte :=
  let r := s.slot k
  [octet k.val, octet r.state.code, octet s.ring.fill.val, logStateCode s, octet (orCode (r.target.map Target.code) 0xFE),
      octet (orCode (r.opening.map Cause.code) 0xFF), octet r.causes.length] ++
    causeOctets r.causes ++ toOctets 2 r.seqOpen.toNat ++ toOctets 2 (orCode (r.seqClose.map (·.toNat)) 0) ++
    toOctets 2 r.integrator ++ toOctets 3 r.loss ++ [octet r.flags]

/-- R151: TAKE_INCIDENT. -/
def serveTakeIncident (tag : Byte) (n : Nat) (s : State) : State :=
  match slotOf n with
  | none => startReply supLine Kind.takeIncident.code tag .noTarget (List.replicate 26 0) s
  | some k => startReply supLine Kind.takeIncident.code tag .ok (incidentReply s k) s

/-- TAKE_INCIDENT (R151). -/
def execTakeIncident (s : State) : Host.Outcome State Fault Refusal :=
  match (s.line supLine).service with
  | .handed tag (.takeIncident n) => .next (serveTakeIncident tag n s)
  | _ => .next s

/-! ## RETURN_INCIDENT (R152) -/

/-- R152: the reference of the record's target is removed where it names this slot. -/
def dropReference (k : SlotNo) (t : Option Target) (s : State) : State :=
  match t with
  | some (.branch b) =>
    s.updBranch b fun br => if br.incident = some k then { br with incident := none } else br
  | some .rail => s.updRail fun r => if r.incident = some k then { r with incident := none } else r
  | none => s

/-- R152: a CLOSED slot is freed. -/
def freeSlot (k : SlotNo) (s : State) : State := dropReference k (s.slot k).target (s.updSlot k fun _ => Slot.free)

/-- R152: RETURN_INCIDENT. -/
def serveReturnIncident (tag : Byte) (n : Nat) (s : State) : State :=
  match slotOf n with
  | none => startReply supLine Kind.returnIncident.code tag .noTarget [] s
  | some k =>
    match (s.slot k).state with
    | .opened => startReply supLine Kind.returnIncident.code tag .notServed [] s
    | .free => startReply supLine Kind.returnIncident.code tag .ok [] s
    | .closed => startReply supLine Kind.returnIncident.code tag .ok [] (freeSlot k s)

/-- RETURN_INCIDENT (R152). -/
def execReturnIncident (s : State) : Host.Outcome State Fault Refusal :=
  match (s.line supLine).service with
  | .handed tag (.returnIncident n) => .next (serveReturnIncident tag n s)
  | _ => .next s

/-! ## LOG_RESUME (R153) -/

/-- R153: the log is SUSPENDED and the slot at the Fill Index is not FREE. -/
def resumeRefused (s : State) : Bool := s.ring.suspended && (s.slot s.ring.fill).state != .free

/-- R153: the log state after a LOG_RESUME. -/
def resumeLog (s : State) : State := if resumeRefused s then s else s.updRing fun g => { g with suspended := false }

/-- LOG_RESUME (R153). -/
def execLogResume (s : State) : Host.Outcome State Fault Refusal :=
  match (s.line supLine).service with
  | .handed tag .logResume =>
    let t := resumeLog s
    .next (startReply supLine Kind.logResume.code tag (if resumeRefused s then .noSlot else .ok)
      [logStateCode t, octet t.ring.fill.val] t)
  | _ => .next s

end Sys2Proof.Machine
end

