-- ==== Sys2Proof/Machine/StoreRequests.lean ====
section
/-! DEFINITION. The requests the Settings Loader serves: STORE_READ, STORE_WRITE and RESTART (11). -/

namespace Sys2Proof.Machine

open Sys2Proof

/-- The half-block of a block and a half number, when both are in range (R177, R178). -/
def halfOf (block half : Nat) : Option (Fin 4 × Fin 2) :=
  if h : block < 4 ∧ half < 2 then some (⟨block, h.1⟩, ⟨half, h.2⟩) else none

/-- R177: the load report as a reply carries it. -/
def loadReport (s : State) : List Byte :=
  [octet s.loader.blocksTaken, octet s.loader.endReason.code, octet (flagBit s.loader.defaulted 0),
    octet s.loader.lastWrite.code]

/-- R177: the 32 octets of a half-block as they stand in the EEPROM. -/
def storedHalf (s : State) (block : Fin 4) (half : Fin 2) : List Byte :=
  Memory.readAll s.eeprom (halfAddress block half) 32

/-- R177: the status of a STORE_READ, and the octets it returns. -/
def storeReadResult (s : State) (block half : Nat) (acked : Bool) : Status × List Byte :=
  if s.loader.store.isSome then (.busy, [])
  else
    match halfOf block half with
    | none => (.noTarget, [])
    | some (k, h) => if acked then (.ok, storedHalf s k h) else (.notServed, [])

/-- STORE_READ (R177). -/
def execStoreRead (acked : Bool) (s : State) : Host.Outcome State Fault Refusal :=
  match (s.line supLine).service with
  | .handed tag (.storeRead block half) =>
    .next (startReply supLine Kind.storeRead.code tag (storeReadResult s block half acked).1
      (loadReport s ++ (storeReadResult s block half acked).2) s)
  | _ => .next s

/-- R178: the write begins. -/
def beginWrite (w : StoreWrite) (s : State) : State := s.updLoader fun d => { d with store := some w }

/-- R178: STORE_WRITE. -/
def serveStoreWrite (tag : Byte) (block half : Nat) (octets : List Byte) (s : State) : State :=
  if s.loader.store.isSome then startReply supLine Kind.storeWrite.code tag .busy [] s
  else
    match halfOf block half with
    | none => startReply supLine Kind.storeWrite.code tag .noTarget [] s
    | some (k, h) => startReply supLine Kind.storeWrite.code tag .ok [] (beginWrite ⟨k, h, octets⟩ s)

/-- STORE_WRITE (R178). -/
def execStoreWrite (s : State) : Host.Outcome State Fault Refusal :=
  match (s.line supLine).service with
  | .handed tag (.storeWrite block half octets) => .next (serveStoreWrite tag block half octets s)
  | _ => .next s

/-- R179: the reply after which the warm restart begins. -/
def restartReply (tag : Byte) : Reply := ⟨replyKind Kind.restart.code, tag, [Status.ok.code], true⟩

/-- RESTART (R179): answered OK; the warm restart begins when the reply has been sent or cut. -/
def execRestart (s : State) : Host.Outcome State Fault Refusal :=
  match (s.line supLine).service with
  | .handed tag .restart => .next (s.updLine supLine fun ln => { ln with service := .sending (restartReply tag) })
  | _ => .next s

end Sys2Proof.Machine
end

