-- ==== Sys2Proof/Machine/Pins.lean ====
section
/-! DEFINITION. What the output pins show, as functions of the state: bay LEDs, valve outputs, ATTN, TRIP_OUT and the
reply on each line (00, Pin summary). -/

namespace Sys2Proof.Machine

open Sys2Proof

/-- R7: the output of an LED pattern `phase` ms after it was selected; a blinking pattern starts with its active half. -/
def LedPattern.output (p : LedPattern) (phase : Nat) : Bool :=
  match p with
  | .off => false
  | .steady => true
  | .slow => phase % 1000 < 500
  | .fast => phase % 250 < 125

/-- R7: the LED output of a bay. -/
def ledPin (s : State) (b : BranchNo) : Bool := (s.br b).led.output (s.br b).ledPhase

/-- The level of a valve output. -/
inductive ValvePin where
  | highImpedance
  | level (high : Bool)
  deriving DecidableEq, Repr

/-- The drive enable of valve channel `c`: branches 0 to 11, the rail inlet 12, the bypass 13 (R84). -/
def channelEnable (s : State) (c : Fin 14) : Bool :=
  if h : c.val < 12 then (s.br ⟨c.val, h⟩).enable else if c.val = 12 then s.valves.railEnable else s.valves.bypassEnable

/-- The commanded duty of valve channel `c` (R78, R81, R82). -/
def channelCommanded (s : State) (c : Fin 14) : Nat :=
  if h : c.val < 12 then (s.br ⟨c.val, h⟩).commanded
  else if c.val = 12 then s.valves.railCommanded
  else s.valves.bypassCommanded

/-- The applied duty of valve channel `c` (R77). -/
def channelApplied (s : State) (c : Fin 14) : Nat :=
  if h : c.val < 12 then (s.br ⟨c.val, h⟩).applied
  else if c.val = 12 then s.valves.railApplied
  else s.valves.bypassApplied

/-- R76: the active part of a period in per-mille; on channel 13 the active level drives the valve closed. -/
def activeShare (s : State) (c : Fin 14) : Nat :=
  if c.val < 13 then channelApplied s c else 1000 - channelApplied s c

/-- R76: the output is at its active level `t` microseconds after the period start; 1 per-mille of 20 ms is 20 µs. -/
def valveActive (s : State) (c : Fin 14) (t : Nat) : Bool := channelEnable s c && decide (t < 20 * activeShare s c)

/-- R76, R88: the level of valve channel `c`, `t` microseconds after the period start. -/
def valvePin (s : State) (c : Fin 14) (t : Nat) : ValvePin :=
  if !s.valves.driven then .highImpedance else .level (valveActive s c t != s.valves.polarity.getLsbD c.val)

/-- R169: ATTN of a line is asserted, at its low level. -/
def attnPin (s : State) (l : LineNo) : Bool := attnAsserted s l

/-- R141: TRIP_OUT is asserted, pulled low. -/
def tripOutPin (s : State) : Bool := s.iso.tripOut

/-- R163: the octets of the reply that line `l` is sending, none while its transmitter is idle. -/
def transmitted (s : State) (l : LineNo) : List Byte :=
  match (s.line l).service with
  | .sending r => replyOctets r
  | .empty | .handed _ _ => []

end Sys2Proof.Machine
end

