-- ==== Sys2Proof/Machine/Dispatch.lean ====
section
/-! DEFINITION. `exec`: one arm for each command, each one call of its meaning. -/

namespace Sys2Proof.Machine

open Sys2Proof

def exec (i : Instr) (s : State) : Host.Outcome State Fault Refusal :=
  match i with
  | .powerOnReset holdStrap speedStrap => Sys2Proof.Machine.execPowerOnReset holdStrap speedStrap s
  | .settingsBlockRead acked dripFirst => Sys2Proof.Machine.execSettingsBlockRead acked dripFirst s
  | .warmRstAsserted => Sys2Proof.Machine.execWarmRstAsserted s
  | .warmRstNegated => Sys2Proof.Machine.execWarmRstNegated s
  | .storeWriteCompletes acked => Sys2Proof.Machine.execStoreWriteCompletes acked s
  | .frameReceived l kind tag body check => Sys2Proof.Machine.execFrameReceived l kind tag body check s
  | .interOctetTimeout l => Sys2Proof.Machine.execInterOctetTimeout l s
  | .badFrameCountReached l => Sys2Proof.Machine.execBadFrameCountReached l s
  | .replySent l => Sys2Proof.Machine.execReplySent l s
  | .lineBreak l => Sys2Proof.Machine.execLineBreak l s
  | .flowRequest l => Sys2Proof.Machine.execFlowRequest l s
  | .transfer l => Sys2Proof.Machine.execTransfer l s
  | .release l => Sys2Proof.Machine.execRelease l s
  | .readAttn l => Sys2Proof.Machine.execReadAttn l s
  | .clearAttn l => Sys2Proof.Machine.execClearAttn l s
  | .setAttnMask l => Sys2Proof.Machine.execSetAttnMask l s
  | .setBranch => Sys2Proof.Machine.execSetBranch s
  | .admitBay => Sys2Proof.Machine.execAdmitBay s
  | .isolate => Sys2Proof.Machine.execIsolate s
  | .clearCause => Sys2Proof.Machine.execClearCause s
  | .restore => Sys2Proof.Machine.execRestore s
  | .readStrips => Sys2Proof.Machine.execReadStrips s
  | .readMeters => Sys2Proof.Machine.execReadMeters s
  | .readRound l => Sys2Proof.Machine.execReadRound l s
  | .takeIncident => Sys2Proof.Machine.execTakeIncident s
  | .returnIncident => Sys2Proof.Machine.execReturnIncident s
  | .logResume => Sys2Proof.Machine.execLogResume s
  | .storeRead acked => Sys2Proof.Machine.execStoreRead acked s
  | .storeWrite => Sys2Proof.Machine.execStoreWrite s
  | .restart => Sys2Proof.Machine.execRestart s
  | .budget => Sys2Proof.Machine.execBudget s
  | .plantStop => Sys2Proof.Machine.execPlantStop s
  | .plantResume => Sys2Proof.Machine.execPlantResume s
  | .readDemand l => Sys2Proof.Machine.execReadDemand l s
  | .presentCloses b => Sys2Proof.Machine.execPresentCloses b s
  | .presentOpens b => Sys2Proof.Machine.execPresentOpens b s
  | .latchCloses b => Sys2Proof.Machine.execLatchCloses b s
  | .latchOpens b => Sys2Proof.Machine.execLatchOpens b s
  | .seatSettleExpires b => Sys2Proof.Machine.execSeatSettleExpires b s
  | .primeTimeoutExpires b => Sys2Proof.Machine.execPrimeTimeoutExpires b s
  | .closeTimeExpires b => Sys2Proof.Machine.execCloseTimeExpires b s
  | .closeCompletes b => Sys2Proof.Machine.execCloseCompletes b s
  | .drainLimitExpires b => Sys2Proof.Machine.execDrainLimitExpires b s
  | .windowClose order => Sys2Proof.Machine.execWindowClose order s
  | .qerrRunReached c => Sys2Proof.Machine.execQerrRunReached c s
  | .cleanRunReached c => Sys2Proof.Machine.execCleanRunReached c s
  | .primeGoodCountReached b => Sys2Proof.Machine.execPrimeGoodCountReached b s
  | .adoptionGoodCountReached b => Sys2Proof.Machine.execAdoptionGoodCountReached b s
  | .idleCountReached b => Sys2Proof.Machine.execIdleCountReached b s
  | .takeUpWindowsReached b => Sys2Proof.Machine.execTakeUpWindowsReached b s
  | .balanceConfirmed b => Sys2Proof.Machine.execBalanceConfirmed b s
  | .railBalanceConfirmed => Sys2Proof.Machine.execRailBalanceConfirmed s
  | .locateHoldExpires => Sys2Proof.Machine.execLocateHoldExpires s
  | .budgetHoldExpires => Sys2Proof.Machine.execBudgetHoldExpires s
  | .fallbackTimeExpires => Sys2Proof.Machine.execFallbackTimeExpires s
  | .periodStart => Sys2Proof.Machine.execPeriodStart s
  | .tripInAsserted => Sys2Proof.Machine.execTripInAsserted s
  | .tripInNegated => Sys2Proof.Machine.execTripInNegated s
  | .railCloseTimeExpires => Sys2Proof.Machine.execRailCloseTimeExpires s
  | .railOpenTimeExpires => Sys2Proof.Machine.execRailOpenTimeExpires s
  | .stripStateChange n level => Sys2Proof.Machine.execStripStateChange n level s
  | .pickupSample a b => Sys2Proof.Machine.execPickupSample a b s
  | .octetReceived l octet framingError => Sys2Proof.Machine.execOctetReceived l octet framingError s

end Sys2Proof.Machine
end

