-- ==== Sys2Proof/Safety.lean ====
section
/-! DEFINITION. What a safe run keeps: the laws the spec states of every moment between two events, one predicate each. -/

namespace Sys2Proof.Safety

open Sys2Proof Sys2Proof.Machine

/-- R62: a branch's grant is 0 in every dock state other than PRIMING, ADMITTED and ADOPTING. -/
abbrev GrantLaw (s : State) : Prop := ∀ b, (s.br b).dock.participating = false → (s.br b).grant = 0

/-- R78, R80: the commanded duty of a branch valve: 0 outside PRIMING, ADMITTED and ADOPTING, with a cause in the set, or
with a grant of 0; otherwise the feed-forward duty and the trim, clamped to 0..1000. With a grant of 0 the trim is 0. -/
abbrev DutyLaw (s : State) : Prop :=
  ∀ b, ((s.br b).commanded =
      if (s.br b).dock.participating = true ∧ (s.br b).causes = [] ∧ (s.br b).grant ≠ 0 then
        (max 0 (min 1000 ((min 1000 ((s.br b).grant * 1000 / (s.br b).fopen) : Nat) + (s.br b).trim))).toNat
      else 0) ∧ ((s.br b).grant = 0 → (s.br b).trim = 0)

/-- R27: a branch whose isolation set is not empty is in ISOLATING or ISOLATED, and a branch in ISOLATED has an isolation
set that is not empty. -/
abbrev IsolationLaw (s : State) : Prop :=
  ∀ b, ((s.br b).causes ≠ [] → (s.br b).dock = .isolating ∨ (s.br b).dock = .isolated) ∧
    ((s.br b).dock = .isolated → (s.br b).causes ≠ [])

/-- R126: while the rail is not OPEN, every branch whose dock state is other than VACANT holds RAIL. -/
abbrev RailHeldLaw (s : State) : Prop :=
  s.rail.state ≠ .opened → ∀ b, (s.br b).dock ≠ .vacant → BranchCause.rail ∈ (s.br b).causes

/-- R130, R133: the rail set is empty in OPEN and in OPENING. -/
abbrev RailSetLaw (s : State) : Prop := s.rail.state = .opened ∨ s.rail.state = .opening → s.rail.causes = []

/-- R141: TRIP_OUT is asserted exactly while the rail set holds RAIL_BALANCE or COMMON_RAIL. -/
abbrev TripOutLaw (s : State) : Prop :=
  s.iso.tripOut = true ↔ RailCause.railBalance ∈ s.rail.causes ∨ RailCause.commonRail ∈ s.rail.causes

/-- 4.6: the drive enables of channels 0 to 12 agree; R85: they are clear while TRIP_IN is asserted. -/
abbrev EnableLaw (s : State) : Prop :=
  (∀ b, (s.br b).enable = s.valves.railEnable) ∧ (s.iso.tripAsserted = true → s.valves.railEnable = false)

/-- R84: a channel whose enable is clear has its inactive applied duty. -/
abbrev InactiveLaw (s : State) : Prop :=
  (∀ b, (s.br b).enable = false → (s.br b).applied = 0) ∧ (s.valves.railEnable = false → s.valves.railApplied = 0) ∧
    (s.valves.bypassEnable = false → s.valves.bypassApplied = 1000)

/-- R82: the commanded duty of channel 12 follows the rail state. -/
abbrev RailDutyLaw (s : State) : Prop :=
  s.valves.railCommanded = if s.rail.state = .opened ∨ s.rail.state = .opening then 1000 else 0

/-- R81: the commanded duty of channel 13 follows the bypass target. -/
abbrev BypassDutyLaw (s : State) : Prop :=
  s.valves.bypassCommanded = min 1000 (s.alloc.bypassTarget * 1000 / s.valves.bypassFopen)

/-- R7: the LED pattern is the one of the dock state. -/
abbrev LedLaw (s : State) : Prop := ∀ b, (s.br b).led = (s.br b).dock.led

/-- R165, R166, R167: every window is in range, and the owner line of a branch is exactly the sled line whose window
includes it, so that no branch lies in the windows of two sled lines. -/
abbrev WindowLaw (s : State) : Prop :=
  (∀ n, (s.window n).inRange = true) ∧ ∀ b n, (s.br b).owner = some n ↔ (s.window n).includes b = true

/-- R173: STRIP_CHANGE is pending on the supervisor line exactly while the delta set is not empty. -/
abbrev StripChangeLaw (s : State) : Prop :=
  isPending (s.attnOf supLine) (.sup .stripChange) = true ↔ ∃ n, (s.strip n).changed = true

/-- R173: TRIP_LINE is pending on the supervisor line while the trip level is ASSERTED. -/
abbrev TripPendingLaw (s : State) : Prop :=
  s.iso.tripAsserted = true → isPending (s.attnOf supLine) (.sup .tripLine) = true

/-- R169: no detail list holds two entries for the same key; R172: a mask holds causes of its class alone. -/
abbrev AttnLaw (s : State) : Prop :=
  ∀ l, (s.attnOf l).entries.Pairwise (fun x y => ¬(x.cause = y.cause ∧ x.key = y.key)) ∧
    (s.attnOf l).mask &&& (lineClass l).allCauses = (s.attnOf l).mask

/-- 10.1: every entry of a line's cause set is of a cause of the line's class. -/
abbrev ClassLaw (s : State) : Prop := ∀ l, ∀ e ∈ (s.attnOf l).entries, e.cause ∈ (lineClass l).causes

/-- R124: no isolation set holds a cause twice. -/
abbrev SetLaw (s : State) : Prop := (∀ b, (s.br b).causes.Nodup) ∧ s.rail.causes.Nodup

/-- 01, table 1.1; R60: the limits of a branch and what they bound. -/
abbrev LimitLaw (s : State) : Prop :=
  ∀ b, (s.br b).floor ≤ (s.br b).cap ∧ (s.br b).cap ≤ 4000 ∧ (s.br b).floor ≤ (s.br b).request ∧
    (s.br b).request ≤ (s.br b).cap ∧ (s.br b).grant ≤ (s.br b).cap ∧
    ((s.br b).dock = .priming → (s.br b).grant ≤ min s.params.primeFlow (s.br b).cap)

/-- R59: the sum of all branch grants and the bypass target never exceeds the effective budget. -/
abbrev BudgetLaw (s : State) : Prop := grantSum s + s.alloc.bypassTarget ≤ s.alloc.effectiveBudget

/-- R147: a record is OPEN only while its branch is in ISOLATING, or the rail in CLOSING. -/
abbrev stillClosing (s : State) : Target → Prop
  | .branch b => (s.br b).dock = .isolating
  | .rail => s.rail.state = .closing

/-- R147, R152: a slot that is not FREE is named by its target's reference and by no other, a reference names such a
slot, and an OPEN record's target is still closing. -/
abbrev RingLaw (s : State) : Prop :=
  (∀ k, (s.slot k).state ≠ .free → ∃ t, (s.slot k).target = some t ∧ incidentOf s t = some k) ∧
    (∀ t k, incidentOf s t = some k → (s.slot k).state ≠ .free ∧ (s.slot k).target = some t) ∧
    ∀ k t, (s.slot k).state = .opened → (s.slot k).target = some t → stillClosing s t

/-- R159, R160: at most two requests wait, and only behind an occupied service place; the bad-frame count is at most 8. -/
abbrev LineLaw (s : State) : Prop :=
  ∀ l, (s.line l).waiting.length ≤ 2 ∧ ((s.line l).waiting ≠ [] → (s.line l).service ≠ .empty) ∧ (s.line l).badCount ≤ 8

/-- 11.1, R178: the settings memory is in its canonical form. -/
abbrev StoreLaw (s : State) : Prop := Memory.wf s.eeprom = true

/-- 01, table 1.1: duties and trims in range; R148, R95: the estimated losses and the integrators in range. -/
abbrev RangeLaw (s : State) : Prop :=
  (∀ b, (s.br b).commanded ≤ 1000 ∧ (s.br b).applied ≤ 1000 ∧ -250 ≤ (s.br b).trim ∧ (s.br b).trim ≤ 250 ∧
    (s.br b).account.integrator ≤ 65535) ∧ s.rail.account.integrator ≤ 65535 ∧ ∀ k, (s.slot k).loss ≤ 16777215

/-! ## The words the statements use -/

/-- The command ends in a next state of which `P` holds. -/
abbrev Answers (o : Host.Outcome State Fault Refusal) (P : State → Prop) : Prop := ∃ t, o = .next t ∧ P t

/-- The request stands handed to its serving block on the line (R162). -/
abbrev Handed (s : State) (l : LineNo) (tag : Byte) (r : Request) : Prop := (s.line l).service = .handed tag r

/-- The state with a reply in the service place of a line, its transmission begun (R163), and nothing else changed. -/
def replied (s : State) (l : LineNo) (kind tag : Byte) (body : List Byte) : State :=
  { s with lines := Vec.put s.lines l { Vec.pick s.lines l with service := .sending ⟨kind, tag, body, false⟩ } }

/-- From `s` to `t` the lines change by that reply alone. -/
abbrev Replies (s t : State) (l : LineNo) (kind tag : Byte) (body : List Byte) : Prop :=
  t.lines = (replied s l kind tag body).lines

/-- Every branch record other than `b` is as before. -/
abbrev OthersKept (s t : State) (b : BranchNo) : Prop := ∀ c, c ≠ b → t.br c = s.br c

/-- R115: strips 12 to 15 always act as common, and a tray strip while its bay is VACANT. -/
abbrev CommonRole (s : State) (n : StripNo) : Prop := 12 ≤ n.val ∨ ∃ b : BranchNo, b.val = n.val ∧ (s.br b).dock = .vacant

/-- R118: admissions are frozen while a strip acting as common is WET. -/
abbrev AdmissionsFrozen (s : State) : Prop := ∃ n, CommonRole s n ∧ (s.strip n).state = .wet

/-- R27, R115: without RAIL the bay is VACANT, its set then being empty and its present contact open, over a WET tray. -/
abbrev VacatesOverWetTray (s : State) (b : BranchNo) : Prop :=
  (s.br b).dock = .isolated ∧ .rail ∈ (s.br b).causes ∧ (∀ c ∈ (s.br b).causes, c = .rail) ∧ (s.br b).present = false ∧
    (s.strip (trayStrip b)).state = .wet

/-- R13: what the admission gate asks beside the clearance. -/
abbrev MayPrime (s : State) (b : BranchNo) : Prop :=
  s.rail.state = .opened ∧ s.loader.loading = false ∧ (s.br b).causes = [] ∧ ¬AdmissionsFrozen s

/-- R15, R80, R93: the branch has entered PRIMING with the grant it had. -/
abbrev EntersPriming (s t : State) (b : BranchNo) : Prop :=
  (t.br b).dock = .priming ∧ (t.br b).dockTimer = some (s.params.primeTimeout * 1000) ∧ (t.br b).primeGood = 0 ∧
    (t.br b).clearance = false ∧ (t.br b).trim = 0 ∧ (t.br b).account = Account.zero ∧ (t.br b).grant = (s.br b).grant

/-- R25: the dock state in which a cause added in a dock state leaves a bay. -/
def isolatedFrom (d : DockState) : DockState :=
  match d with
  | .priming | .admitted | .adopting | .releasing | .isolating => .isolating
  | .vacant | .seated | .held | .draining | .pullReady | .isolated => .isolated

/-- R27: the dock state by the contacts. -/
def dockByContacts (br : Branch) : DockState :=
  if br.present = false then .vacant else if br.latched = true then .held else .seated

/-- A sled cause stands pending for a branch on its owner line, when it has one (R167). -/
abbrev ToldOwner (s t : State) (b : BranchNo) (c : SledCause) : Prop :=
  ∀ o, (s.br b).owner = some o → isPending (t.attnOf (sledLine o)) (.sled c) = true

/-- R130, R131, R133: the rail state after a cause is added to the rail set. -/
def railAfterCause (r : RailState) : RailState :=
  match r with
  | .opened | .opening => .closing
  | .closing => .closing
  | .closed => .closed

/-- R179 and the rules it names: a warm restart begins, from `s` to `t`. The kind of a loading in progress does not
change, and any other loading is one after a warm restart (R176). -/
abbrev WarmBegins (s t : State) : Prop :=
  t.loader.loading = true ∧ t.loader.afterPowerOn = (s.loader.loading && s.loader.afterPowerOn) ∧
    t.loader.next = 0 ∧ t.loader.taken = [] ∧ t.loader.defaulted = false ∧
    (∀ l, t.line l = ⟨.hunting, true, .empty, [], 0⟩) ∧
    (∀ l c, isPending (t.attnOf l) c = true ↔ l = supLine ∧ c = .sup .tripLine ∧ s.iso.tripAsserted = true) ∧
    (∀ l, (t.attnOf l).mask = (s.attnOf l).mask) ∧
    t.meter.windowTimer = none ∧ t.meter.snap.seq = s.meter.snap.seq ∧
    (∀ c, t.channel c = ⟨none, 0, false, false, 0, 0, 0, .healthy, (s.channel c).k⟩ ∧
      t.snapChannel c = ⟨0, false, false, 0, 0, .healthy⟩) ∧
    (∀ b, t.br b = { s.br b with
      dockTimer := none
      clearance := false
      primeGood := 0
      idle := 0
      account := ⟨0, .clear, 0⟩ }) ∧
    t.rail = { s.rail with timer := none, account := ⟨0, .clear, 0⟩ } ∧
    (∀ n, t.strip n = ⟨.dry, none, 0, false⟩) ∧
    t.drip = { t.drip with running := false, windowsLeft := 0, locateStrip := none, outcome := .none } ∧
    t.alloc = { s.alloc with
      pendingBudget := s.alloc.effectiveBudget
      shortfall := false
      reportedDemand := 0
      age := 0
      ageState := .fresh } ∧
    t.ring = s.ring ∧ t.windows = s.windows ∧ t.valves = s.valves ∧ t.iso = s.iso ∧ t.params = s.params ∧
    t.eeprom = s.eeprom ∧
    t.loader.store = s.loader.store ∧ t.loader.lastWrite = s.loader.lastWrite

/-! ### One millisecond (log 2), and the pins -/

/-- R6, R137, R179: the run of samples that differ from the level taken, after one more sample. -/
abbrev runAfter (level taken : Bool) (run : Nat) : Nat := if level = taken then 0 else min 3 (run + 1)

/-- R112: a strip after one sample of the level that its comparators show (R111), short of the change of state. -/
abbrev StripSampled (debounce : Nat) (p : StripPins) (x y : Strip) : Prop :=
  let level : StripState := if p.whole = false then .broken else if p.wet = true then .wet else .dry
  (level = x.state → y = { x with candidate := none, count := 0 }) ∧
  (level ≠ x.state → x.candidate = some level → y = { x with count := min debounce (x.count + 1) }) ∧
  (level ≠ x.state → x.candidate ≠ some level → y = { x with candidate := some level, count := 1 })

/-- R6, R8, R34, R48, R77, R112, R131, R133, R137, R179: the event falls due in `t`, the end of a millisecond; `sampled` is
whether the contacts and strips have been sampled in it. -/
def FallsDue (sampled : Prop) (t : State) (c : Instr) : Prop :=
  let dock := fun (b : BranchNo) (d : DockState) => (t.br b).dock = d ∧ (t.br b).dockTimer = some 0
  let rail := fun (r : RailState) => t.rail.state = r ∧ t.rail.timer = some 0
  let counts := t.loader.loading = false ∧ t.alloc.suspended = false
  match c with
  | .tripInAsserted => t.iso.tripAsserted = false ∧ 3 ≤ t.iso.tripCandidate
  | .tripInNegated => t.iso.tripAsserted = true ∧ 3 ≤ t.iso.tripCandidate
  | .warmRstAsserted => t.loader.warmAsserted = false ∧ 3 ≤ t.loader.warmCandidate
  | .warmRstNegated => t.loader.warmAsserted = true ∧ 3 ≤ t.loader.warmCandidate
  | .presentCloses b => sampled ∧ (t.br b).present = false ∧ 3 ≤ (t.br b).presentRun
  | .presentOpens b => sampled ∧ (t.br b).present = true ∧ 3 ≤ (t.br b).presentRun
  | .latchCloses b => sampled ∧ (t.br b).latched = false ∧ 3 ≤ (t.br b).latchRun
  | .latchOpens b => sampled ∧ (t.br b).latched = true ∧ 3 ≤ (t.br b).latchRun
  | .stripStateChange n x => sampled ∧ (t.strip n).candidate = some x ∧ t.params.debounce ≤ (t.strip n).count
  | .railCloseTimeExpires => rail .closing
  | .railOpenTimeExpires => rail .opening
  | .seatSettleExpires b => dock b .held
  | .primeTimeoutExpires b => dock b .priming
  | .closeTimeExpires b => dock b .releasing
  | .closeCompletes b => dock b .isolating
  | .drainLimitExpires b => dock b .draining
  | .budgetHoldExpires => counts ∧ t.alloc.ageState = .fresh ∧ t.params.budgetHold * 1000 ≤ t.alloc.age
  | .fallbackTimeExpires => counts ∧ t.alloc.ageState = .stale ∧ t.params.fallbackTime * 1000 ≤ t.alloc.age
  | .windowClose order => order = ClosePart.all ∧ t.meter.windowTimer = some 0
  | .periodStart => t.valves.periodTimer = 0
  | _ => False

/-- R76, R88: what valve channel `c` shows through a period: nothing before the first loading has ended, then its active
level, by its polarity, for so many per-mille of the period from its start while its enable is set, else the inactive one. -/
abbrev ValveShows (s : State) (c : Fin 14) (enable : Bool) (share : Nat) : Prop :=
  let activeLow := s.valves.polarity.getLsbD c.val
  ∀ us, us < 20000 → valvePin s c us =
    if s.valves.driven = false then .highImpedance
    else if enable = true ∧ us < 20 * share then .level (!activeLow)
    else .level activeLow

/-! ### Incident records (08) -/

/-- The OPEN record of a target is in slot `k`. -/
abbrev HasOpenRecord (s : State) (g : Target) (k : SlotNo) : Prop :=
  incidentOf s g = some k ∧ (s.slot k).state = .opened

/-- R145: the target already stands where its valve is closed. -/
def closedNow (s : State) : Target → Bool
  | .branch b => decide ((s.br b).dock = .isolated)
  | .rail => decide (s.rail.state = .closed)

/-- R149, R150: what STILL_WET_AT_CLOSE records. -/
def wetNow (s : State) : Target → Bool
  | .branch b => decide ((s.strip (trayStrip b)).state = .wet)
  | .rail => decide (AdmissionsFrozen s)

/-- R149, R150: what FLOW_AT_CLOSE records. -/
def flowNow (s : State) : Target → Bool
  | .branch b => decide ((s.snapChannel (supplyChannel b)).volume ≠ 0)
  | .rail => decide ((s.snapChannel 24).volume ≠ 0)

/-- A sled cause stands pending on the line of a sled with an entry of that local index. -/
abbrev SledEntry (s : State) (o : BranchNo) (c : SledCause) (key : Nat) : Prop :=
  ∃ e ∈ (s.attnOf (sledLine o)).entries, e.cause = .sled c ∧ e.key = key

/-- A supervisor cause stands pending with an entry of that key. -/
abbrev SupEntry (s : State) (c : SupCause) (key : Nat) : Prop :=
  ∃ e ∈ (s.attnOf supLine).entries, e.cause = .sup c ∧ e.key = key

/-- R149, R150: the target's OPEN record, when it has one, is closed with what stands at that event. -/
abbrev RecordCloses (s t : State) (g : Target) : Prop :=
  ∀ k, HasOpenRecord s g k →
    t.slot k = { s.slot k with
      state := .closed
      seqClose := some s.meter.snap.seq
      stillWet := wetNow s g
      flow := flowNow s g } ∧
    SupEntry t .incidentClosed k.val

/-- R144 to R147: a leak-class cause added to a target joins its OPEN record, opens one, or is lost. -/
abbrev Recorded (s t : State) (g : Target) (c : Cause) (byContact : Bool) : Prop :=
  (∀ k, HasOpenRecord s g k →
    t.slot k = { s.slot k with
      causes := if c ∈ (s.slot k).causes then (s.slot k).causes else (s.slot k).causes ++ [c]
      hotPull := (s.slot k).hotPull || byContact } ∧
    (∀ j, j ≠ k → t.slot j = s.slot j) ∧ t.ring = { s.ring with slots := t.ring.slots }) ∧
  (∀ k, incidentOf s g = some k → (s.slot k).state ≠ .opened →
    t.ring = s.ring ∧ incidentOf t g = some k ∧ lostOf t g = true ∧ SupEntry t .logBusy g.code) ∧
  (incidentOf s g = none → s.ring.suspended = false → (s.slot s.ring.fill).state = .free →
    incidentOf t g = some s.ring.fill ∧ lostOf t g = false ∧
    t.slot s.ring.fill =
      { state := if closedNow t g = true then .closed else .opened
        target := some g
        opening := some c
        causes := [c]
        seqOpen := s.meter.snap.seq
        seqClose := if closedNow t g = true then some s.meter.snap.seq else none
        integrator := integratorOf t g
        loss := 0
        hotPull := byContact
        stillWet := closedNow t g && wetNow t g
        flow := closedNow t g && flowNow t g
        lostBefore := lostOf s g } ∧
    (closedNow t g = true → SupEntry t .incidentClosed s.ring.fill.val) ∧
    (∀ j, j ≠ s.ring.fill → t.slot j = s.slot j) ∧
    t.ring = { s.ring with slots := t.ring.slots, fill := s.ring.fill + 1 }) ∧
  (incidentOf s g = none → s.ring.suspended = true ∨ (s.slot s.ring.fill).state ≠ .free →
    t.ring = { s.ring with suspended := true } ∧ incidentOf t g = none ∧ lostOf t g = true ∧ SupEntry t .logBusy g.code)

/-- R147: a contact of a branch opens while its record is OPEN; nothing else of the ring changes. -/
abbrev HotPullMarked (s t : State) (b : BranchNo) : Prop :=
  t.ring = { s.ring with slots := t.ring.slots } ∧
    ∀ k, t.slot k = { s.slot k with hotPull := (s.slot k).hotPull || decide (HasOpenRecord s (.branch b) k) }

/-! ### The parts of a window close (02 to 06) -/

/-- R94, R105: the tolerance for a volume. -/
abbrev toleranceFor (deadband slip : Nat) (volume : Int) : Int := (deadband + volume.natAbs * slip / 1000 : Nat)

/-- R95: the integrator after a window. -/
abbrev integratorAfter (decayShift a : Nat) (e : Int) : Nat :=
  (max 0 (min 65535 ((a : Int) - (a / 2 ^ decayShift : Nat) + e))).toNat

/-- R96: an account after a window, from the integrator the window leaves. -/
abbrev AccountJudged (threshold confirm above a : Nat) (x : Account) : Prop :=
  x.integrator = a ∧
    (a < threshold / 2 → x.state = .clear ∧ x.above = 0) ∧
    (threshold / 2 ≤ a → a < threshold → x.state = .watch ∧ x.above = 0) ∧
    (threshold / 2 ≤ a → threshold ≤ a →
      x.above = min 8 (above + 1) ∧ x.state = if min 8 (above + 1) < confirm then .suspect else .confirmed)

/-- Both channels of a branch are HEALTHY in the snapshot. -/
abbrev MetersGood (s : State) (b : BranchNo) : Prop :=
  (s.snapChannel (supplyChannel b)).health = .healthy ∧ (s.snapChannel (returnChannel b)).health = .healthy

/-- R94: the imbalance of a branch. -/
abbrev lossOf (s : State) (b : BranchNo) : Int :=
  (s.snapChannel (supplyChannel b)).volume - (s.snapChannel (returnChannel b)).volume

/-- R104: the health of the meters that the rail balance asks. -/
abbrev RailMetersGood (s : State) : Prop :=
  (s.snapChannel 24).health = .healthy ∧ (s.snapChannel 25).health = .healthy ∧
    ∀ b, (s.br b).dock ≠ .vacant → MetersGood s b

/-- R105: the imbalance of the rail. -/
abbrev railLossOf (s : State) : Int :=
  (s.snapChannel 24).volume - (s.snapChannel 25).volume - sumBranchesInt (lossOf s)

/-- R97 to R101: the causes a balanced branch is handed, from its account after the window. -/
def handedBy (u : State) (b : BranchNo) (x : Account) : List BranchCause :=
  (if (u.params.grossLimit : Int) ≤ lossOf u b then [.gross] else []) ++
    (if (u.snapChannel (supplyChannel b)).volume ≤ -(u.params.backflowLimit : Int) then [.backflow] else []) ++
    (if x.state = .confirmed ∨ (u.params.tripThreshold ≤ x.integrator ∧ (u.strip (trayStrip b)).state = .wet)
      then [.balance] else [])

/-- R92, R94 to R101: the balance of a branch in the Balance Monitor's part of a close. That RAIL stands after the causes
handed is the model's order, log 25. -/
abbrev BranchBalanced (u v : State) (b : BranchNo) : Prop :=
  let vs := (u.snapChannel (supplyChannel b)).volume
  let a := integratorAfter u.params.decayShift (u.br b).account.integrator
    (lossOf u b - toleranceFor u.params.deadband u.params.slip vs)
  let handed := handedBy u b (v.br b).account
  (((u.br b).dock = .admitted ∨ (u.br b).dock = .adopting) → MetersGood u b → (u.br b).causes = [] →
    AccountJudged u.params.tripThreshold u.params.confirmCount (u.br b).account.above a (v.br b).account ∧
    ((v.br b).causes = handed ∨ (v.br b).causes = handed ++ [.rail] ∧ v.rail.state ≠ .opened) ∧
    (handed ≠ [] → (v.br b).dock = .isolating ∧ (v.br b).grant = 0 ∧ (v.br b).commanded = 0 ∧ ToldOwner u v b .isolated) ∧
    ((v.br b).causes = [] → v.br b = { u.br b with account := (v.br b).account })) ∧
  (¬(((u.br b).dock = .admitted ∨ (u.br b).dock = .adopting) ∧ MetersGood u b) → v.rail.causes = u.rail.causes →
    v.br b = u.br b)

/-- R104 to R106: the balance of the rail in the same part. -/
abbrev RailBalanced (u v : State) : Prop :=
  let vin := (u.snapChannel 24).volume
  (u.rail.state = .opened → u.rail.causes = [] → RailMetersGood u →
    AccountJudged u.params.railThreshold u.params.confirmCount u.rail.account.above
      (integratorAfter u.params.decayShift u.rail.account.integrator
        (railLossOf u - toleranceFor u.params.railDeadband u.params.railSlip vin)) v.rail.account ∧
    (v.rail.account.state = .confirmed → v.rail.causes = [.railBalance] ∧ v.rail.state = .closing ∧
      v.iso.tripOut = true ∧ v.valves.railCommanded = 0) ∧
    (v.rail.account.state ≠ .confirmed → v.rail = { u.rail with account := v.rail.account })) ∧
  (u.rail.state ≠ .opened ∨ ¬RailMetersGood u → v.rail = u.rail)

/-- R97 to R102, R106: the additions of the Balance Monitor's part, one after the other: `v` is what branch `b` leaves of
`u`, and `w` what the rail leaves of it. -/
abbrev BalanceHands (u v w : State) (b : BranchNo) : Prop :=
  let balanced := ((u.br b).dock = .admitted ∨ (u.br b).dock = .adopting) ∧ MetersGood u b
  (balanced → (u.br b).causes = [] → ∃ x : Account,
    AccountJudged u.params.tripThreshold u.params.confirmCount (u.br b).account.above
      (integratorAfter u.params.decayShift (u.br b).account.integrator
        (lossOf u b - toleranceFor u.params.deadband u.params.slip (u.snapChannel (supplyChannel b)).volume)) x ∧
    v = (handedBy u b x).foldl (fun y c => addBranchCause b c false y)
      { u with branches := Vec.put u.branches b { u.br b with account := x } }) ∧
  (¬balanced → v = u) ∧
  (u.rail.state = .opened → RailMetersGood u → ∃ x : Account,
    AccountJudged u.params.railThreshold u.params.confirmCount u.rail.account.above
      (integratorAfter u.params.decayShift u.rail.account.integrator
        (railLossOf u - toleranceFor u.params.railDeadband u.params.railSlip (u.snapChannel 24).volume)) x ∧
    w = (if x.state = .confirmed then addRailCause .railBalance { u with rail := { u.rail with account := x } }
      else { u with rail := { u.rail with account := x } })) ∧
  (u.rail.state ≠ .opened ∨ ¬RailMetersGood u → w = u)

/-- R103, R148: the loss added to the OPEN records, those that the same part has opened included. -/
abbrev LossesAdded (u v : State) : Prop :=
  let before := fun k => if (u.slot k).state = .opened then (u.slot k).loss else 0
  (∀ b k, HasOpenRecord v (.branch b) k →
    (v.slot k).loss = if MetersGood u b then min 16777215 (before k + (lossOf u b).toNat) else before k) ∧
  ∀ k, HasOpenRecord v .rail k →
    (v.slot k).loss = if RailMetersGood u then min 16777215 (before k + (railLossOf u).toNat) else before k

/-- R119: a branch qualifies in the locate. -/
abbrev Suspected (s : State) (b : BranchNo) : Prop :=
  ((s.br b).dock = .priming ∨ (s.br b).dock = .admitted ∨ (s.br b).dock = .adopting) ∧ (s.br b).account.state ≠ .clear

/-- R119: the evaluation of the locate at a close. -/
abbrev LocateEvaluated (u v : State) : Prop :=
  (u.drip.running = false → v = u) ∧
  (u.drip.running = true →
    ((∃ b, Suspected u b) →
      v.drip = { u.drip with running := false, windowsLeft := 0, outcome := .branches } ∧ v.rail = u.rail ∧
      ∀ b, (Suspected u b → BranchCause.located ∈ (v.br b).causes ∧ ((u.br b).causes = [] →
          (v.br b).dock = .isolating ∧ (v.br b).causes = [.located] ∧ (v.br b).grant = 0 ∧ (v.br b).commanded = 0)) ∧
        (¬Suspected u b → v.br b = u.br b)) ∧
    ((∀ b, ¬Suspected u b) → u.rail.account.state ≠ .clear →
      v.drip = { u.drip with running := false, windowsLeft := 0, outcome := .rail } ∧ .commonRail ∈ v.rail.causes ∧
        (.commonRail ∉ u.rail.causes → v.rail.state = railAfterCause u.rail.state ∧ v.iso.tripOut = true)) ∧
    ((∀ b, ¬Suspected u b) → u.rail.account.state = .clear →
      v = { u with drip :=
        if u.drip.windowsLeft ≤ 1 then { u.drip with running := false, windowsLeft := 0, outcome := .alarmOnly }
        else { u.drip with windowsLeft := u.drip.windowsLeft - 1 } }))

/-- R119: the additions of a running locate: LOCATED for each suspected branch in rising number, else COMMON_RAIL. -/
abbrev LocateHands (u v : State) : Prop :=
  u.drip.running = true →
    ((∃ b, Suspected u b) → v =
      { (allBranches.filter fun b => decide (Suspected u b)).foldl (fun y b => addBranchCause b .located false y) u with
        drip := { u.drip with running := false, windowsLeft := 0, outcome := .branches } }) ∧
    ((∀ b, ¬Suspected u b) → u.rail.account.state ≠ .clear → v =
      { addRailCause .commonRail u with drip := { u.drip with running := false, windowsLeft := 0, outcome := .rail } })

/-- R38, R39: the health and the runs of a channel after the flags of a window, from `x` to `y`. -/
abbrev HealthJudged (x y : MeterChannel) : Prop :=
  let degraded := y.health = .degraded ∧ y.qerrRun = 0 ∧ y.cleanRun = 0
  (x.health = .healthy →
    (x.overrange = true → degraded) ∧
    (x.overrange = false → x.qerr = true → 2 ≤ x.qerrRun → degraded) ∧
    (x.overrange = false → x.qerr = true → x.qerrRun < 2 →
      y.health = .healthy ∧ y.qerrRun = x.qerrRun + 1 ∧ y.cleanRun = x.cleanRun) ∧
    (x.overrange = false → x.qerr = false → y.health = .healthy ∧ y.qerrRun = 0 ∧ y.cleanRun = x.cleanRun)) ∧
  (x.health = .degraded →
    (x.qerr = true ∨ x.overrange = true → y.health = .degraded ∧ y.qerrRun = x.qerrRun ∧ y.cleanRun = 0) ∧
    (x.qerr = false → x.overrange = false → x.cleanRun < 9 →
      y.health = .degraded ∧ y.qerrRun = x.qerrRun ∧ y.cleanRun = x.cleanRun + 1) ∧
    (x.qerr = false → x.overrange = false → 9 ≤ x.cleanRun → y.health = .healthy ∧ y.qerrRun = 0 ∧ y.cleanRun = 0))

/-- R78, R79: the trims and the duties that follow them at a close. -/
abbrev TrimsUpdated (u v : State) : Prop :=
  (∀ b, let br := u.br b
    let rate := (u.snapChannel (supplyChannel b)).rate
    let trim := max (-250) (min 250 (br.trim + ((((br.grant : Int) - rate) * 1000).tdiv br.fopen).tdiv 4))
    if (br.dock = .admitted ∨ br.dock = .adopting) ∧ 0 < br.grant ∧ (u.snapChannel (supplyChannel b)).health = .healthy then
      v.br b = { br with
        trim := trim
        commanded := if br.causes = [] then
          (max 0 (min 1000 ((min 1000 (br.grant * 1000 / br.fopen) : Nat) + trim))).toNat else 0 }
    else v.br b = br) ∧
  v = { u with branches := v.branches }

/-- R16, R19, R22: the check of a Dock Controller at a close. -/
abbrev DockChecked (u v : State) (b : BranchNo) : Prop :=
  let br := u.br b
  let supply := u.snapChannel (supplyChannel b)
  let ret := u.snapChannel (returnChannel b)
  let good := 0 < supply.volume ∧ (supply.volume * u.params.primeReturn).tdiv 1000 ≤ ret.volume
  let settled := ∃ r, br.dockTimer = some r ∧ u.params.drainTime * 1000 ≤ u.params.drainLimit * 1000 - r
  let counts := fun g i => v = { u with branches := Vec.put u.branches b { br with primeGood := g, idle := i } }
  let admitted := (v.br b).dock = .admitted ∧ (v.br b).dockTimer = none ∧ (v.br b).primeGood = 0 ∧ (v.br b).idle = 0 ∧
    (v.br b).grant = br.grant ∧ ToldOwner u v b .admitted ∧ OthersKept u v b
  (br.dock = .priming →
    (¬MetersGood u b → v = u) ∧
    (MetersGood u b → ¬good → counts 0 br.idle) ∧
    (MetersGood u b → good → br.primeGood < 2 → counts (br.primeGood + 1) br.idle) ∧
    (MetersGood u b → good → 2 ≤ br.primeGood → admitted)) ∧
  (br.dock = .adopting →
    (supply.health = .degraded → v = u) ∧
    (supply.health = .healthy → supply.volume < 0 → counts 0 0) ∧
    (supply.health = .healthy → 0 < supply.volume → br.primeGood < 1 → counts (br.primeGood + 1) 0) ∧
    (supply.health = .healthy → 0 < supply.volume → 1 ≤ br.primeGood → admitted) ∧
    (supply.health = .healthy → supply.volume = 0 → br.idle < 1 → counts 0 (br.idle + 1)) ∧
    (supply.health = .healthy → supply.volume = 0 → 1 ≤ br.idle →
      (v.br b).dock = .priming ∧ (v.br b).dockTimer = some (u.params.primeTimeout * 1000) ∧
      (v.br b).grant = min br.grant (min u.params.primeFlow br.cap) ∧ (v.br b).primeGood = 0 ∧ (v.br b).idle = 0 ∧
      OthersKept u v b)) ∧
  (br.dock = .draining →
    (settled → ret.health = .healthy → ret.volume ≤ u.params.drainResidual →
      (v.br b).dock = .pullReady ∧ (v.br b).dockTimer = none ∧ ToldOwner u v b .pullReady ∧ OthersKept u v b) ∧
    (¬settled ∨ ret.health = .degraded ∨ (u.params.drainResidual : Int) < ret.volume → v = u)) ∧
  (br.dock ∉ [DockState.priming, .adopting, .draining] → v = u)

/-- R68, R69: the take-up count of a branch after the Allocator's part of a close. -/
abbrev TakeUpChecked (u v : State) (b : BranchNo) : Prop :=
  let br := u.br b
  let supply := u.snapChannel (supplyChannel b)
  let short := br.commanded = 1000 ∧ supply.rate < (br.grant * u.params.takeUpShare / 1000 : Nat)
  (br.dock ≠ .admitted ∨ supply.health = .degraded →
    (v.br b).takeUp = br.takeUp ∧ (v.br b).restricted = br.restricted) ∧
  (br.dock = .admitted → supply.health = .healthy →
    (¬short → (v.br b).takeUp = 0 ∧ (v.br b).restricted = br.restricted) ∧
    (short → br.takeUp + 1 < u.params.takeUpWindows →
      (v.br b).takeUp = br.takeUp + 1 ∧ (v.br b).restricted = br.restricted) ∧
    (short → u.params.takeUpWindows ≤ br.takeUp + 1 →
      (v.br b).takeUp = 0 ∧ (v.br b).restricted ≠ none ∧ (br.floor ≤ br.cap →
        ∀ x, (v.br b).restricted = some x → br.floor ≤ x ∧ x ≤ br.cap)))

/-! ### The sharing of a round (R53, R56) -/

/-- R53: the demand of an ADMITTED participant; its floor while a meter is DEGRADED and its tray strip BROKEN (R41). -/
abbrev demandOf (s : State) (b : BranchNo) : Nat :=
  if ¬MetersGood s b ∧ (s.strip (trayStrip b)).state = .broken then (s.br b).floor
  else min (s.br b).request (min ((s.br b).restricted.getD (s.br b).cap) (s.br b).cap)

/-- R56: what a step would give a branch of that tier while flow is left: the lesser of q and its unmet demand. -/
abbrev stepWanted (s : State) (tierOne : Bool) (sh : Share) (b : BranchNo) : Nat :=
  if (s.br b).dock = .admitted ∧ decide ((s.br b).tier ≠ 0) = tierOne then
    min s.params.quantum (demandOf s b - Vec.pick sh.given b)
  else 0

/-- R56: what the first `n` branches from the tier-1 pointer would be given before the flow runs out. -/
abbrev wantedBefore (s : State) (sh : Share) (n : Nat) : Nat :=
  ((List.range n).map fun j => stepWanted s true sh (s.alloc.p1 + Fin.ofNat 12 j)).sum

/-- R58: the branch the residue is offered to after a sharing. -/
abbrev parksOn (s : State) (shared : Share) : Option BranchNo :=
  match s.params.parkMode with
  | .bypass => none
  | .last => shared.last
  | .fixed => if (s.br s.params.parkBranch).dock = .admitted then some s.params.parkBranch else none

/-- R56, 4: the sharing stops. -/
abbrev SharingStops (s : State) (sh : Share) : Prop :=
  sh.rm = 0 ∨ ∀ b, stepWanted s true sh b = 0 ∧ stepWanted s false sh b = 0

/-- R56, 1: a pass. The branch `k` places after the pointer is reached when the flow is not used up before it. -/
abbrev PassShares (s : State) (sh u : Share) : Prop :=
  (∀ k : BranchNo, Vec.pick u.given (s.alloc.p1 + k) = Vec.pick sh.given (s.alloc.p1 + k) +
    min (stepWanted s true sh (s.alloc.p1 + k)) (sh.rm - wantedBefore s sh k.val)) ∧
  u.rm = sh.rm - wantedBefore s sh 12 ∧ u.cursor = sh.cursor ∧ u.last0 = sh.last0 ∧
  (∀ k : BranchNo, stepWanted s true sh (s.alloc.p1 + k) ≠ 0 → wantedBefore s sh k.val < sh.rm →
    (∀ j : BranchNo, k < j → stepWanted s true sh (s.alloc.p1 + j) = 0 ∨ sh.rm ≤ wantedBefore s sh j.val) →
    u.last1 = some (s.alloc.p1 + k) ∧ u.last = some (s.alloc.p1 + k)) ∧
  (sh.rm = 0 ∨ (∀ b, stepWanted s true sh b = 0) → u = sh)

/-- R56, 2: a tier-0 step. -/
abbrev TierZeroShares (s : State) (sh v : Share) : Prop :=
  (∀ k : BranchNo, sh.rm ≠ 0 → stepWanted s false sh (sh.cursor + k) ≠ 0 →
    (∀ j : BranchNo, j < k → stepWanted s false sh (sh.cursor + j) = 0) →
    let b := sh.cursor + k
    let n := min (stepWanted s false sh b) sh.rm
    v = ⟨Vec.put sh.given b (Vec.pick sh.given b + n), sh.rm - n, b + 1, sh.last1, some b, some b⟩) ∧
  (sh.rm = 0 ∨ (∀ b, stepWanted s false sh b = 0) → v = sh)

/-- R56: the whole sharing, from a sharing as it stands. -/
abbrev SharesByTier (s : State) (sh : Share) : Prop :=
  let done := shareLoop s sh.rm sh
  PassShares s sh (pass s sh) ∧ TierZeroShares s sh (tierZeroStep s sh) ∧ (SharingStops s sh → done = sh) ∧
    (¬SharingStops s sh →
      let next := tierZeroStep s (pass s sh)
      next.rm < sh.rm ∧ done = shareLoop s next.rm next) ∧
    SharingStops s done ∧
    (sumBranches fun b => Vec.pick done.given b) + done.rm = (sumBranches fun b => Vec.pick sh.given b) + sh.rm ∧
    ∀ b, Vec.pick sh.given b ≤ Vec.pick done.given b ∧
      (Vec.pick done.given b = Vec.pick sh.given b ∨ Vec.pick done.given b ≤ demandOf s b ∧ (s.br b).dock = .admitted)

/-! ### The settings image (11.4) and the end of a loading (01, 03, 04, 06, 07) -/

/-- R175: a stored value, or the default of its parameter where it lies outside the range. -/
abbrev orDefault (lo hi default v : Nat) : Nat := if lo ≤ v ∧ v ≤ hi then v else default

/-- 11.4, R43, R73, R108: what block 0 gives; without it, the defaults. -/
abbrev Block0Gives (x : Option (List Byte)) (p : Params) : Prop :=
  (x = none → p = { Params.default with debounce := p.debounce, wetAction := p.wetAction, locateHold := p.locateHold }) ∧
  ∀ y, x = some y →
    p.windowLength = (match octetAt y 0 with | 0 => 250 | 1 => 500 | 3 => 2000 | _ => 1000) ∧
    p.quantum = orDefault 10 500 50 (numberAt y 1 2) ∧ p.bypassMinimum = orDefault 0 2000 100 (numberAt y 3 2) ∧
    p.parkMode = (match octetAt y 5 with | 1 => .last | 2 => .fixed | _ => .bypass) ∧
    p.parkBranch.val = orDefault 0 11 0 (octetAt y 6) ∧ p.fallbackBudget = orDefault 0 40000 1800 (numberAt y 7 2) ∧
    p.budgetHold = orDefault 5 120 30 (octetAt y 9) ∧ p.fallbackTime = orDefault 60 3600 300 (numberAt y 10 2) ∧
    p.primeFlow = orDefault 50 1000 300 (numberAt y 12 2) ∧ p.primeReturn = orDefault 300 950 700 (numberAt y 14 2) ∧
    p.primeTimeout = orDefault 10 300 60 (numberAt y 16 2) ∧ p.seatSettle = orDefault 0 10 2 (octetAt y 18) ∧
    p.closeTime = orDefault 1 30 4 (octetAt y 19) ∧ p.drainTime = orDefault 1 60 5 (octetAt y 20) ∧
    p.drainLimit = orDefault 10 120 30 (octetAt y 21) ∧ p.drainResidual = orDefault 0 50 2 (octetAt y 22) ∧
    p.railCloseTime = orDefault 2 60 8 (octetAt y 23) ∧ p.railOpenTime = orDefault 2 60 8 (octetAt y 24) ∧
    p.deadband = octetAt y 25 ∧ p.slip = orDefault 0 100 15 (octetAt y 26) ∧
    p.decayShift = orDefault 1 8 4 (octetAt y 27) ∧ p.tripThreshold = orDefault 10 65535 120 (numberAt y 28 2) ∧
    p.confirmCount = orDefault 1 8 2 (octetAt y 30) ∧ p.grossLimit = orDefault 20 2000 200 (numberAt y 31 2) ∧
    p.backflowLimit = orDefault 5 500 20 (numberAt y 33 2) ∧ p.railDeadband = octetAt y 35 ∧
    p.railSlip = orDefault 0 100 10 (octetAt y 36) ∧ p.railThreshold = orDefault 10 65535 400 (numberAt y 37 2) ∧
    p.takeUpShare = orDefault 100 900 500 (numberAt y 39 2) ∧ p.takeUpWindows = orDefault 2 30 5 (octetAt y 41)

/-- 11.4, R73: what block 1 gives branch `b`; without it, the defaults. -/
abbrev Block1Gives (x : Option (List Byte)) (b : BranchNo) (br : Branch) : Prop :=
  (x = none → br.tier = 0 ∧ br.floor = 150 ∧ br.cap = 2500 ∧ br.fopen = 3000) ∧
  ∀ y, x = some y →
    let n := numberAt y (5 * b.val) 5
    br.fopen = orDefault 100 4000 3000 (n % 4096) ∧ br.cap = orDefault 100 4000 2500 (n / 4096 % 4096) ∧
    br.floor = min br.cap (orDefault 0 1000 150 (n / 16777216 % 1024)) ∧ br.tier = n / 17179869184 % 2

/-- 11.4, R88, R89, R122: what block 3 gives; without it, the defaults. -/
abbrev Block3Gives (x : Option (List Byte)) (p : Params) (v : ValveUnit) : Prop :=
  (x = none → p.debounce = 5 ∧ p.wetAction = .locate ∧ p.locateHold = 5 ∧ v.bypassFopen = 3000 ∧ v.polarityNext = 0) ∧
  ∀ y, x = some y →
    p.debounce = orDefault 1 31 5 (octetAt y 4) ∧
    p.wetAction = (match octetAt y 5 with | 0 => .alarm | 2 => .rail | _ => .locate) ∧
    p.locateHold = orDefault 1 20 5 (octetAt y 6) ∧ v.bypassFopen = orDefault 100 4000 3000 (numberAt y 2 2) ∧
    ∀ c, c < 14 → v.polarityNext.getLsbD c = (numberAt y 0 2).testBit c

/-- 11.4: every parameter of the four blocks, each block taken from the image or at its defaults. -/
abbrev SettingsTaken (blocks : List (List Byte)) (t : State) : Prop :=
  Block0Gives blocks[0]? t.params ∧ (∀ b, Block1Gives blocks[1]? b (t.br b)) ∧ Block3Gives blocks[3]? t.params t.valves ∧
    ∀ c, (blocks[2]? = none → (t.channel c).k = 2400) ∧
      ∀ y, blocks[2]? = some y → (t.channel c).k = orDefault 100 20000 2400 (numberAt y (2 * c.val) 2)

/-- A contact of the bay is open. -/
abbrev ContactOpen (br : Branch) : Prop := br.present = false ∨ br.latched = false

/-- R29: how a bay with an empty set resumes after a warm restart with the rail OPEN and no strip WET; and R29 with R25
where the set is not empty. -/
abbrev BayResumes (s t : State) (b : BranchNo) : Prop :=
  let br := s.br b
  let now := fun (d : DockState) (timer : Option Nat) => (t.br b).dock = d ∧ (t.br b).dockTimer = timer
  (br.dock ∈ [DockState.isolating, .isolated] → br.causes ≠ [] →
    now br.dock (if br.dock = .isolating then some (t.params.closeTime * 1000) else none)) ∧
  (br.causes = [] →
    (¬ContactOpen br →
      (br.dock ∈ [DockState.admitted, .adopting] → now .adopting none) ∧
      (br.dock = .priming → now .priming (some (t.params.primeTimeout * 1000))) ∧
      (br.dock = .releasing → now .releasing (some (t.params.closeTime * 1000))) ∧
      (br.dock = .isolating → now .isolating (some (t.params.closeTime * 1000))) ∧
      (br.dock = .draining → now .draining (some (t.params.drainLimit * 1000)))) ∧
    (ContactOpen br →
      (br.dock ∈ [DockState.admitted, .adopting, .priming, .releasing, .isolating] →
        now .isolating (some (t.params.closeTime * 1000)) ∧ (t.br b).causes = [.hotPull] ∧
          (br.dock.participating = true → (t.br b).grant = 0)) ∧
      (br.dock = .draining → now .isolated none ∧ (t.br b).causes = [.earlyPull])) ∧
    (br.dock ∈ [DockState.vacant, .seated, .held, .pullReady] →
      (br.present = false → now .vacant none) ∧
      (br.present = true → br.latched = false → now .seated none) ∧
      (br.present = true → br.latched = true → br.hold = true → now .held none) ∧
      (br.present = true → br.latched = true → br.hold = false → t.params.seatSettle ≠ 0 →
        now .held (some (t.params.seatSettle * 1000)))))

/-- R28: how a bay starts after power-on with the rail CLOSED and no strip WET. -/
abbrev BayStarts (s t : State) (b : BranchNo) : Prop :=
  (s.br b).dock = .vacant → (s.br b).causes = [] →
    ((s.br b).present = false → (t.br b).dock = .vacant ∧ (t.br b).causes = []) ∧
    ((s.br b).present = true → (t.br b).dock = .isolated ∧ (t.br b).causes = [.rail] ∧ (t.br b).dockTimer = none)

/-- R142, R143, R126: the rail at the end of a loading. -/
abbrev RailResumes (s t : State) : Prop :=
  (s.loader.afterPowerOn = true → s.rail.state = .closed → s.rail.causes = [] → (∀ n, (s.strip n).state ≠ .wet) →
    (s.iso.tripAsserted = true → t.rail.state = .closed ∧ t.rail.causes = [.tripLine] ∧ t.valves.railCommanded = 0) ∧
    (s.iso.tripAsserted = false → t.rail.state = .opening ∧ t.rail.causes = [] ∧
      t.rail.timer = some (t.params.railOpenTime * 1000) ∧ t.valves.railCommanded = 1000)) ∧
  (s.loader.afterPowerOn = false → (∀ n, (s.strip n).state ≠ .wet) →
    t.rail = { s.rail with
      timer :=
        if s.rail.state = .closing then some (t.params.railCloseTime * 1000)
        else if s.rail.state = .opening then some (t.params.railOpenTime * 1000)
        else none }) ∧
  (t.rail.state ≠ .opened → ∀ b, (t.br b).dock ≠ .vacant → BranchCause.rail ∈ (t.br b).causes)

/-- R123: every strip then WET is taken as entering WET, in the role its bay gives it. -/
abbrev WetStripsTaken (s t : State) : Prop :=
  ∀ n, (s.strip n).state = .wet →
    (∀ b, n = trayStrip b → (t.br b).dock ≠ .vacant → BranchCause.trayWet ∈ (t.br b).causes) ∧
    (CommonRole t n → SupEntry t .commonWet n.val ∧ (t.params.wetAction = .rail → .commonRail ∈ t.rail.causes))

/-- R74, R75: what the Allocator begins with at the end of a loading, and the duties R78 then gives. -/
abbrev AllocatorResumes (s t : State) : Prop :=
  t.alloc = { s.alloc with
    age := 0
    ageState := .fresh
    suspended := decide (s.loader.afterPowerOn = false ∧ .plantStop ∈ s.rail.causes) } ∧
  ∀ b, (t.br b).restricted = none ∧ (t.br b).takeUp = 0 ∧ (t.br b).commanded = (t.br b).duty ∧
    (s.loader.afterPowerOn = true → (t.br b).request = (t.br b).floor ∧ (t.br b).grant = 0) ∧
    (s.loader.afterPowerOn = false → (t.br b).dock ≠ .vacant →
      (s.br b).causes = [] ∨ (s.br b).dock = .isolating ∨ (s.br b).dock = .isolated →
      (t.br b).request = max (t.br b).floor (min (t.br b).cap (s.br b).request)) ∧
    (s.loader.afterPowerOn = false → (t.br b).dock = .adopting → (t.br b).grant = min (s.br b).grant (t.br b).cap) ∧
    (s.loader.afterPowerOn = false → (s.br b).dock = .priming → (t.br b).dock = .priming →
      (t.br b).grant = min (min (s.br b).grant (t.br b).cap) (min t.params.primeFlow (t.br b).cap))

/-! ### Frames and requests (09) -/

/-- R165: the target an index names on a line. -/
abbrev Names (s : State) (l : LineNo) (i : Nat) : Target → Prop
  | .branch b =>
    (∃ n : BranchNo, l = sledLine n ∧ i < (s.window n).span ∧ b.val = (s.window n).base + i) ∨ (l = supLine ∧ b.val = i)
  | .rail => (l = supLine ∨ l = plantLine) ∧ i = 0xFF

/-- R161, 9.7: the defined KINDs, each with its octet, whether a sled line, the supervisor line and the plant line take it,
and the length of the BODY it requires. -/
def kindTable : List (Byte × Kind × Bool × Bool × Bool × Nat) :=
  [(0x01, .readBranch, true, true, true, 1), (0x02, .flowRequest, true, true, false, 3),
    (0x03, .transfer, true, true, false, 4), (0x04, .release, true, true, false, 1),
    (0x05, .readAttn, true, true, true, 0), (0x06, .clearAttn, true, true, true, 2),
    (0x07, .setAttnMask, true, true, true, 2), (0x10, .setWindow, false, true, false, 3),
    (0x11, .setBranch, false, true, false, 9), (0x12, .admitBay, false, true, false, 1),
    (0x13, .isolate, false, true, false, 1), (0x14, .clearCause, false, true, false, 2),
    (0x15, .restore, false, true, false, 0), (0x16, .readStrips, false, true, false, 0)] ++
  [(0x17, .readMeters, false, true, false, 2), (0x18, .readRound, false, true, true, 0),
    (0x19, .takeIncident, false, true, false, 1), (0x1A, .returnIncident, false, true, false, 1),
    (0x1B, .logResume, false, true, false, 0), (0x1C, .storeRead, false, true, false, 2),
    (0x1D, .storeWrite, false, true, false, 34), (0x1E, .restart, false, true, false, 0),
    (0x20, .budget, false, false, true, 3), (0x21, .plantStop, false, false, true, 0),
    (0x22, .plantResume, false, false, true, 0), (0x23, .readDemand, false, true, true, 0)]

/-- R162, 9.7: how a request of a KIND that passes the tests is handed on from line `l`: the fields of its BODY, and each
index as what the line names by it. `handed` is the hand-over and `refused` the answer NO_TARGET. -/
abbrev HandsOn (s : State) (l : LineNo) (k : Kind) (body : List Byte) (handed : Request → Prop) (refused : Prop) : Prop :=
  let i := octetAt body 0
  let j := octetAt body 1
  let forBranch := fun (b : BranchNo) (r : Request) => Names s l i (.branch b) → handed r
  let forTarget := fun (g : Target) (r : Request) => Names s l i g → handed r
  (k = .flowRequest → ∀ b, forBranch b (.flowRequest b (numberAt body 1 2))) ∧
  (k = .transfer → ∀ b c, Names s l j (.branch c) → forBranch b (.transfer b c (numberAt body 2 2))) ∧
  (k = .release → ∀ b, forBranch b (.release b)) ∧
  (k = .setBranch → ∀ b, forBranch b (.setBranch b j (numberAt body 2 2) (numberAt body 4 2) (numberAt body 6 2)
    (decide (octetAt body 8 ≠ 0)))) ∧
  (k = .admitBay → ∀ b, forBranch b (.admitBay b)) ∧
  (k = .isolate → ∀ g, forTarget g (.isolate g)) ∧
  (k = .clearCause → ∀ g, forTarget g (.clearCause g j)) ∧
  (k ∈ [Kind.flowRequest, .transfer, .release, .setBranch, .admitBay] → (∀ b, ¬Names s l i (.branch b)) → refused) ∧
  (k = .transfer → (∀ b, ¬Names s l j (.branch b)) → refused) ∧
  (k ∈ [Kind.isolate, .clearCause] → (∀ g, ¬Names s l i g) → refused) ∧
  (k = .readAttn → handed .readAttn) ∧
  (k = .clearAttn → handed (.clearAttn (BitVec.ofNat 16 (numberAt body 0 2)))) ∧
  (k = .setAttnMask → handed (.setAttnMask (BitVec.ofNat 16 (numberAt body 0 2)))) ∧
  (k = .restore → handed .restore) ∧ (k = .readStrips → handed .readStrips) ∧
  (k = .readMeters → handed (.readMeters i j)) ∧ (k = .readRound → handed .readRound) ∧
  (k = .takeIncident → handed (.takeIncident i)) ∧ (k = .returnIncident → handed (.returnIncident i)) ∧
  (k = .logResume → handed .logResume) ∧ (k = .storeRead → handed (.storeRead i j)) ∧
  (k = .storeWrite → handed (.storeWrite i j ((body.drop 2).take 32))) ∧ (k = .restart → handed .restart) ∧
  (k = .budget → handed (.budget (numberAt body 0 2) ((body.getD 2 0).getLsbD 0))) ∧
  (k = .plantStop → handed .plantStop) ∧ (k = .plantResume → handed .plantResume) ∧
  (k = .readDemand → handed .readDemand)

/-- 9.7: octets 1 to 45 of the READ_BRANCH reply for branch `b` asked by `index`. -/
abbrev BranchRecord (s : State) (b : BranchNo) (index : Byte) (x : List Byte) : Prop :=
  let bit := fun (p : Prop) [Decidable p] (n : Nat) => if p then 2 ^ n else 0
  x.length = 45 ∧ numberAt x 0 1 = index.toNat ∧ numberAt x 1 1 = b.val ∧ numberAt x 2 1 = (s.br b).dock.code ∧
    numberAt x 3 1 = bit ((s.br b).present = true) 0 + bit ((s.br b).latched = true) 1 + bit ((s.br b).hold = true) 2 +
      bit ((s.br b).clearance = true) 3 + bit ((s.br b).enable = true) 4 + bit ((s.br b).lost = true) 5 +
      bit ((s.snapChannel (supplyChannel b)).health = .degraded) 6 +
      bit ((s.snapChannel (returnChannel b)).health = .degraded) 7 ∧
    numberAt x 4 1 = (s.br b).led.code + 4 * stripCode (s.strip (trayStrip b)).state +
      16 * (s.br b).account.state.code + bit ((s.br b).tier ≠ 0) 6 + bit ((s.br b).restricted ≠ none) 7 ∧
    numberAt x 5 1 = (match (s.br b).owner with | none => 0xFF | some n => n.val) ∧
    numberAt x 6 1 = (match (s.br b).incident with | none => 0xFF | some k => k.val) ∧
    numberAt x 7 2 = (s.br b).floor % 65536 ∧ numberAt x 9 2 = (s.br b).cap % 65536 ∧
    numberAt x 11 2 = (s.br b).request % 65536 ∧ numberAt x 13 2 = (s.br b).grant % 65536 ∧
    numberAt x 15 2 = (s.br b).restricted.getD 0 % 65536 ∧ numberAt x 17 2 = (s.br b).fopen % 65536 ∧
    numberAt x 19 2 = (s.br b).commanded % 65536 ∧ numberAt x 21 2 = (s.br b).applied % 65536 ∧
    (numberAt x 23 2 : Int) = (s.br b).trim % 65536 ∧
    (numberAt x 25 4 : Int) = (s.snapChannel (supplyChannel b)).volume % 4294967296 ∧
    (numberAt x 29 4 : Int) = (s.snapChannel (returnChannel b)).volume % 4294967296 ∧
    (numberAt x 33 2 : Int) = (s.snapChannel (supplyChannel b)).rate % 65536 ∧
    numberAt x 35 2 = (s.br b).account.integrator % 65536 ∧ numberAt x 37 1 = (s.br b).account.above % 256 ∧
    numberAt x 38 1 = (s.br b).takeUp % 256 ∧
    numberAt x 39 1 = ((s.br b).primeGood + 16 * (s.br b).idle) % 256 ∧
    numberAt x 40 3 = (s.br b).dockTimer.getD 0xFFFFFF % 16777216 ∧
    ∀ c : BranchCause, (numberAt x 43 2).testBit c.code = decide (c ∈ (s.br b).causes)

/-- 9.7: octets 1 to 45 of the READ_BRANCH reply for the rail; the fields the rail record does not have read 0. -/
abbrev RailRecord (s : State) (x : List Byte) : Prop :=
  let bit := fun (p : Prop) [Decidable p] (n : Nat) => if p then 2 ^ n else 0
  x.length = 45 ∧ numberAt x 0 1 = 0xFF ∧ numberAt x 1 1 = 0xFF ∧ numberAt x 2 1 = s.rail.state.code ∧
    numberAt x 3 1 = bit (s.rail.lost = true) 5 + bit ((s.snapChannel 24).health = .degraded) 6 +
      bit ((s.snapChannel 25).health = .degraded) 7 ∧
    numberAt x 4 1 = 16 * s.rail.account.state.code ∧ numberAt x 5 1 = 0 ∧
    numberAt x 6 1 = (match s.rail.incident with | none => 0xFF | some k => k.val) ∧
    (∀ i, i < 18 → numberAt x (7 + i) 1 = 0) ∧
    (numberAt x 25 4 : Int) = (s.snapChannel 24).volume % 4294967296 ∧
    (numberAt x 29 4 : Int) = (s.snapChannel 25).volume % 4294967296 ∧ numberAt x 33 2 = 0 ∧
    numberAt x 35 2 = s.rail.account.integrator % 65536 ∧ numberAt x 37 1 = s.rail.account.above % 256 ∧
    numberAt x 38 2 = 0 ∧ numberAt x 40 3 = s.rail.timer.getD 0xFFFFFF % 16777216 ∧
    ∀ c : RailCause, (numberAt x 43 2).testBit c.code = decide (c ∈ s.rail.causes)

end Sys2Proof.Safety
end

