-- ==== Sys2Proof/Certificates/Slice0/Obligations.lean ====
section
/-! DEFINITION. The statements about the model, for the provers. -/

open Sys2Proof Sys2Proof.Machine Sys2Proof.Safety

/-- A step runs the command at the front of the queue (model: log 1) -/
def Obligations.StepRunsTheFrontCommand : Prop :=
  ∀ (c : Instr) (s : State),
    step (s.withCommand c) = exec c s ∧
      ∀ rest, s.pending = c :: rest → step s = exec c { s with pending := rest }

/-- On an empty queue one millisecond passes: timers run, inputs are sampled, and what falls due joins the queue once
(model: logs 2, 10) -/
def Obligations.IdleStepPassesOneMillisecond : Prop :=
  ∀ (s : State),
    s.pending = [] → Answers (step s) fun t =>
      let sampled := s.sampleTimer ≤ 1
      (∀ b, t.br b = { s.br b with
        dockTimer := (s.br b).dockTimer.map (· - 1)
        ledPhase := (s.br b).ledPhase + 1
        presentRun := if sampled then runAfter (Vec.pick s.pins.present b) (s.br b).present (s.br b).presentRun
          else (s.br b).presentRun
        latchRun := if sampled then runAfter (Vec.pick s.pins.latched b) (s.br b).latched (s.br b).latchRun
          else (s.br b).latchRun }) ∧
      t.rail = { s.rail with timer := s.rail.timer.map (· - 1) } ∧
      t.meter = { s.meter with windowTimer := s.meter.windowTimer.map (· - 1) } ∧
      t.alloc = { s.alloc with
        age := if s.loader.loading = false ∧ s.alloc.suspended = false then s.alloc.age + 1 else s.alloc.age } ∧
      (∀ n, (sampled → StripSampled s.params.debounce (Vec.pick s.pins.strips n) (s.strip n) (t.strip n)) ∧
        (¬sampled → t.strip n = s.strip n)) ∧
      t.pending.Nodup ∧ (∀ c, c ∈ t.pending ↔ FallsDue sampled t c) ∧
      (∀ n x, .stripStateChange n x ∈ t.pending → .warmRstAsserted ∈ t.pending →
        List.Sublist [.stripStateChange n x, .warmRstAsserted] t.pending) ∧
      t = { s with
        branches := t.branches
        rail := t.rail
        meter := t.meter
        alloc := t.alloc
        valves := { s.valves with periodTimer := s.valves.periodTimer - 1 }
        drip := { s.drip with strips := t.drip.strips }
        iso := { s.iso with tripCandidate := runAfter s.pins.trip s.iso.tripAsserted s.iso.tripCandidate }
        loader := { s.loader with
          warmCandidate := runAfter s.pins.warm s.loader.warmAsserted s.loader.warmCandidate }
        sampleTimer := if sampled then 10 else s.sampleTimer - 1
        pending := t.pending }

/-- Every command ends in a next state and leaves the queue alone (model: logs 1, 28) -/
def Obligations.EveryCommandAnswersANextState : Prop :=
  ∀ (c : Instr) (s : State),
    Answers (exec c s) fun t => t.pending = s.pending

/-- POWER_ON_RESET gives every block the values the spec states for power-on -/
def Obligations.PowerOnResetSetsThePowerOnValues : Prop :=
  ∀ (hold speed : Bool) (s : State),
    Answers (exec (.powerOnReset hold speed) s) fun t =>
      (∀ b, t.br b = { t.br b with
        dock := .vacant
        present := false
        latched := false
        hold := hold
        clearance := false
        dockTimer := none
        primeGood := 0
        idle := 0
        led := .off
        owner := some b
        request := (t.br b).floor
        grant := 0
        restricted := none
        takeUp := 0
        commanded := 0
        applied := 0
        trim := 0
        enable := false
        account := ⟨0, .clear, 0⟩
        causes := []
        incident := none
        lost := false }) ∧
      t.rail = ⟨.closed, [], none, ⟨0, .clear, 0⟩, none, false⟩ ∧
      (∀ c, t.channel c = { t.channel c with
        last := none
        acc := 0
        qerr := false
        overrange := false
        carry := 0
        qerrRun := 0
        cleanRun := 0
        health := .healthy }) ∧
      (∀ c, t.snapChannel c = ⟨0, false, false, 0, 0, .healthy⟩) ∧ t.meter.snap.seq = 0 ∧ t.meter.windowTimer = none ∧
      t.alloc = ⟨0, 0, 0, .fresh, false, 0, 0, 0, false, 0, ⟨0, 0, 0, 0, 0, 0, 0, 0, 0, 0, false⟩⟩ ∧
      t.valves = { t.valves with
        railCommanded := 0
        railApplied := 0
        railEnable := false
        bypassCommanded := 0
        bypassApplied := 1000
        bypassEnable := false
        driven := false
        periodTimer := 20 } ∧
      (∀ n, t.strip n = ⟨.dry, none, 0, false⟩) ∧ t.drip = { t.drip with
        running := false
        windowsLeft := 0
        locateStrip := none
        outcome := .none } ∧
      t.iso = ⟨false, 0, false⟩ ∧
      (∀ k, t.slot k = Slot.free) ∧ t.ring.fill = 0 ∧ t.ring.suspended = false ∧
      (∀ l, t.line l = { t.line l with rx := .hunting, service := .empty, waiting := [], badCount := 0 }) ∧
      (∀ n, t.window n = ⟨n.val, 1⟩) ∧ (∀ l, t.attnOf l = ⟨[], (lineClass l).allCauses⟩) ∧
      t.loader = { t.loader with
        loading := true
        afterPowerOn := true
        next := 0
        taken := []
        store := none
        blocksTaken := 0
        endReason := .stop
        defaulted := false
        lastWrite := .none
        warmAsserted := false
        warmCandidate := 0
        holdStrap := hold
        speedStrap := speed } ∧
      t.pending = s.pending ∧ t.pins = s.pins ∧ (s.loader.store = none → t.eeprom = s.eeprom) ∧
      ∀ w, s.loader.store = some w →
        let base := 64 * w.block.val + 32 * w.half.val
        (∀ i, i < base ∨ base + 32 ≤ i → Memory.read t.eeprom i = Memory.read s.eeprom i) ∧
        (StoreLaw s → ∀ i, i < 32 → Memory.read t.eeprom (base + i) = Memory.read s.eeprom (base + i) ∨
          Memory.read t.eeprom (base + i) = w.octets.getD i 0)

/-- The state after reset meets every law that a step keeps -/
def Obligations.ResetStateMeetsEveryLaw : Prop :=
  GrantLaw State.reset ∧ LimitLaw State.reset ∧ DutyLaw State.reset ∧ IsolationLaw State.reset ∧
    RailHeldLaw State.reset ∧ RailSetLaw State.reset ∧ TripOutLaw State.reset ∧ RailDutyLaw State.reset ∧
    EnableLaw State.reset ∧ InactiveLaw State.reset ∧ WindowLaw State.reset ∧ StripChangeLaw State.reset ∧
    TripPendingLaw State.reset ∧ BudgetLaw State.reset ∧ RingLaw State.reset ∧ LineLaw State.reset ∧
    StoreLaw State.reset ∧ AttnLaw State.reset ∧ SetLaw State.reset ∧ LedLaw State.reset ∧ RangeLaw State.reset ∧
    BypassDutyLaw State.reset ∧ ClassLaw State.reset

/-- Every step keeps: no grant outside PRIMING, ADMITTED and ADOPTING -/
def Obligations.StepKeepsGrantZeroOutsideParticipation : Prop :=
  ∀ (s t : State),
    GrantLaw s → step s = .next t → GrantLaw t

/-- Every step keeps floor, request and grant within the cap, and all grants with the bypass within the budget -/
def Obligations.StepKeepsLimitsAndTheBudget : Prop :=
  ∀ (s t : State),
    GrantLaw s → LimitLaw s → BudgetLaw s → step s = .next t → GrantLaw t ∧ LimitLaw t ∧ BudgetLaw t

/-- Every step keeps: the commanded duty of each branch valve and of the bypass as the rules give it; duties, trims,
integrators, losses in range -/
def Obligations.StepKeepsCommandedDuty : Prop :=
  ∀ (s t : State),
    (IsolationLaw s → DutyLaw s → step s = .next t → DutyLaw t) ∧
      (BypassDutyLaw s → step s = .next t → BypassDutyLaw t) ∧ (RangeLaw s → step s = .next t → RangeLaw t)

/-- Every step keeps: causes held only in ISOLATING and ISOLATED, and ISOLATED only with a cause -/
def Obligations.StepKeepsIsolationStates : Prop :=
  ∀ (s t : State),
    IsolationLaw s → step s = .next t → IsolationLaw t

/-- Every step keeps: occupied bays hold RAIL while the rail is not OPEN, and its set is empty in OPEN and OPENING -/
def Obligations.StepKeepsTheRailAndItsBays : Prop :=
  ∀ (s t : State),
    RailHeldLaw s → RailSetLaw s → step s = .next t → RailHeldLaw t ∧ RailSetLaw t

/-- TRIP_OUT is asserted exactly while the rail set holds RAIL_BALANCE or COMMON_RAIL -/
def Obligations.TripOutFollowsTheRailSet : Prop :=
  ∀ (s t : State),
    (TripOutLaw s → step s = .next t → TripOutLaw t) ∧ tripOutPin s = s.iso.tripOut ∧
      ∀ hold speed, Answers (exec (.powerOnReset hold speed) s) fun u =>
        u.rail.causes = [] ∧ tripOutPin u = false

/-- The rail inlet duty is 1000 in OPEN and OPENING and 0 in CLOSING and CLOSED -/
def Obligations.RailValveFollowsTheRailState : Prop :=
  ∀ (s t : State),
    (RailDutyLaw s → step s = .next t → RailDutyLaw t) ∧
      (Answers (exec .periodStart s) fun u => u.valves.railApplied =
        if s.valves.railEnable = true then s.valves.railCommanded else s.valves.railApplied) ∧
      (s.valves.railEnable = true → s.valves.railApplied = 1000 → ∀ us, us < 20000 → valveActive s 12 us = true) ∧
      (s.valves.railApplied = 0 → ∀ us, valveActive s 12 us = false)

/-- Every step keeps: enables 0 to 12 agree, are clear under a trip, and undriven channels are inactive -/
def Obligations.StepKeepsDriveEnables : Prop :=
  ∀ (s t : State),
    EnableLaw s → InactiveLaw s → step s = .next t → EnableLaw t ∧ InactiveLaw t

/-- Every step keeps: windows in range, no branch in two of them, owner lines as the windows say -/
def Obligations.StepKeepsBranchWindows : Prop :=
  ∀ (s t : State),
    WindowLaw s → step s = .next t → WindowLaw t

/-- Every step keeps: STRIP_CHANGE follows the delta set, TRIP_LINE is pending under a trip -/
def Obligations.StepKeepsDerivedCauses : Prop :=
  ∀ (s t : State),
    StripChangeLaw s → TripPendingLaw s → step s = .next t → StripChangeLaw t ∧ TripPendingLaw t

/-- Every step keeps: references and slots agree, and a record is OPEN only while its target is closing -/
def Obligations.StepKeepsIncidentRing : Prop :=
  ∀ (s t : State),
    RingLaw s → step s = .next t → RingLaw t

/-- Every step keeps the form of the lines, the attention lists, the isolation sets and the settings memory -/
def Obligations.StepKeepsTheFormOfListsAndPlaces : Prop :=
  ∀ (s t : State),
    LineLaw s → AttnLaw s → ClassLaw s → SetLaw s → StoreLaw s → step s = .next t →
      LineLaw t ∧ AttnLaw t ∧ ClassLaw t ∧ SetLaw t ∧ StoreLaw t

/-- The bay LED shows the pattern of the dock state, and a blink starts with its active half -/
def Obligations.LedFollowsTheDockState : Prop :=
  ∀ (s t : State),
    (LedLaw s → step s = .next t → LedLaw t ∧ ∀ b, (t.br b).led ≠ (s.br b).led → (t.br b).ledPhase = 0) ∧
      (∀ d : DockState, d.led =
        if d = .seated ∨ d = .held then .slow
        else if d = .pullReady then .steady
        else if d = .isolating ∨ d = .isolated then .fast
        else .off) ∧
      (∀ b, ledPin s b =
        match (s.br b).led with
        | .off => false
        | .steady => true
        | .slow => decide ((s.br b).ledPhase % 1000 < 500)
        | .fast => decide ((s.br b).ledPhase % 250 < 125)) ∧
      ∀ hold speed, Answers (exec (.powerOnReset hold speed) s) fun u => ∀ b, ledPin u b = false

/-- A round spends its budget, scales short floors, parks the residue, writes its record, drives the bypass and tells
what changed -/
def Obligations.RoundSpendsTheBudgetAndScalesFloors : Prop :=
  ∀ (s : State),
    (GrantLaw s → ∀ t, t = runRound s ∨ t = closeAllocator s →
      grantSum t + t.alloc.bypassTarget = t.alloc.effectiveBudget ∧ t.alloc.effectiveBudget = s.alloc.pendingBudget ∧
        t.alloc.round.budget = t.alloc.effectiveBudget ∧ t.alloc.round.sumGrants = grantSum t ∧
        t.alloc.round.bypassTarget = t.alloc.bypassTarget ∧ t.alloc.round.seq = s.alloc.round.seq + 1) ∧
    (let p0 := s.alloc.pendingBudget - s.params.bypassMinimum
     let p := p0 - adoptingSum s
     let start := shareStart s p0 p
     let shared := shareLoop s start.rm start
     let t := runRound s
     let park := parksOn s shared
     let parked := match park with
       | none => 0
       | some b => min t.alloc.round.residue ((s.br b).cap - Vec.pick shared.given b)
     (∀ b, (s.br b).dock = .adopting → (t.br b).grant =
       if adoptingSum s ≤ p0 then (s.br b).grant else (s.br b).grant * p0 / adoptingSum s) ∧
     t.alloc.round.residue = shared.rm +
       (if floorSum s ≤ p then 0 else p - sumBranches fun b => roundFloor s b * p / floorSum s) +
       (if adoptingSum s ≤ p0 then 0
        else p0 - sumBranches fun b => if (s.br b).dock = .adopting then (s.br b).grant * p0 / adoptingSum s else 0) ∧
     (∀ b, (s.br b).dock.participating = true →
       (t.br b).grant = Vec.pick shared.given b + if park = some b then parked else 0) ∧
     (∀ b, (s.br b).dock.participating = false → t.br b = s.br b) ∧
     (p < floorSum s → ∀ b, (s.br b).dock = .priming ∨ (s.br b).dock = .admitted →
       Vec.pick shared.given b = roundFloor s b * p / floorSum s) ∧
     t.alloc.bypassTarget = min s.params.bypassMinimum s.alloc.pendingBudget + (t.alloc.round.residue - parked) ∧
     t.valves = { s.valves with
       bypassCommanded := min 1000 (t.alloc.bypassTarget * 1000 / s.valves.bypassFopen) } ∧
     t.alloc.shortfall = decide (p < floorSum s) ∧ t.alloc.round.short = decide (p < floorSum s) ∧
     t.alloc.round.available = p ∧ t.alloc.round.sumFloors = floorSum s ∧
     t.alloc.round.participants = (sumBranches fun b => if (s.br b).dock.participating = true then 1 else 0) ∧
     t.alloc.p1 = (match shared.last1 with | none => s.alloc.p1 | some b => b + 1) ∧
     t.alloc.p0 = (match shared.last0 with | none => s.alloc.p0 | some b => b + 1) ∧
     t.alloc.round.p1 = t.alloc.p1 ∧ t.alloc.round.p0 = t.alloc.p0) ∧
    (let t := runRound s
     let moved := fun b : BranchNo => (s.br b).dock.participating = true ∧
       s.params.quantum ≤ ((t.br b).grant - (s.br b).grant : Int).natAbs
     let becomesShort := s.alloc.pendingBudget - s.params.bypassMinimum - adoptingSum s < floorSum s ∧
       s.alloc.shortfall = false
     (∀ o k, SledEntry t o .grantChanged k ↔ SledEntry s o .grantChanged k ∨
       ∃ b, moved b ∧ (s.br b).owner = some o ∧ k = b.val - (s.window o).base) ∧
     (isPending (t.attnOf plantLine) (.plant .demandChanged) = true ↔
       isPending (s.attnOf plantLine) (.plant .demandChanged) = true ∨
         s.params.quantum ≤ (requestSum s - s.alloc.reportedDemand : Int).natAbs) ∧
     (isPending (t.attnOf plantLine) (.plant .shortfall) = true ↔
       isPending (s.attnOf plantLine) (.plant .shortfall) = true ∨ becomesShort) ∧
     (isPending (t.attnOf supLine) (.sup .shortfall) = true ↔
       isPending (s.attnOf supLine) (.sup .shortfall) = true ∨ becomesShort) ∧
     (∀ l c, c ≠ .sled .grantChanged → c ≠ .plant .demandChanged → c ≠ .plant .shortfall → c ≠ .sup .shortfall →
       detailList (t.attnOf l) c = detailList (s.attnOf l) c))

/-- When the floors fit, the round starts every grant at its floor, is not short, and shares what is left by tier in
steps of q -/
def Obligations.RoundGivesEveryFloorWhenTheyFit : Prop :=
  ∀ (s : State) (sh : Share),
    (floorSum s ≤ s.alloc.pendingBudget - s.params.bypassMinimum - adoptingSum s →
      (let p0 := s.alloc.pendingBudget - s.params.bypassMinimum
       let start := shareStart s p0 (p0 - adoptingSum s)
       let shared := shareLoop s start.rm start
       start.rm = p0 - adoptingSum s - floorSum s ∧
         (∀ b, (s.br b).dock = .priming ∨ (s.br b).dock = .admitted → Vec.pick start.given b = roundFloor s b) ∧
         (runRound s).alloc.p1 = (match shared.last1 with | none => s.alloc.p1 | some b => b + 1) ∧
         (runRound s).alloc.p0 = (match shared.last0 with | none => s.alloc.p0 | some b => b + 1)) ∧
      (runRound s).alloc.shortfall = false ∧ (runRound s).alloc.round.short = false ∧
      ((∀ b, (s.br b).dock ≠ .priming ∧ (s.br b).dock ≠ .admitted) → floorSum s = 0) ∧
      ∀ b, ((s.br b).dock = .priming → ((runRound s).br b).grant = min s.params.primeFlow (s.br b).cap) ∧
        ((s.br b).dock = .admitted → (s.br b).floor ≤ ((runRound s).br b).grant)) ∧
    (0 < s.params.quantum → SharesByTier s sh)

/-- FLOW_REQUEST stores the clamped request and lifts the restriction, or is NOT_SERVED -/
def Obligations.FlowRequestStoresTheClampedValue : Prop :=
  ∀ (s : State) (l : LineNo) (tag : Byte) (b : BranchNo) (flow : Nat),
    Handed s l tag (.flowRequest b flow) →
      ((s.br b).dock ∈ [DockState.seated, .held, .priming, .admitted, .adopting] →
        let r := max (s.br b).floor (min (s.br b).cap flow)
        exec (.flowRequest l) s = .next (replied
          { s with branches := Vec.put s.branches b { s.br b with request := r, restricted := none, takeUp := 0 } }
          l 0x82 tag ([0x00, if r = flow then 0 else 1] ++ toOctets 2 r))) ∧
      ((s.br b).dock ∉ [DockState.seated, .held, .priming, .admitted, .adopting] →
        exec (.flowRequest l) s = .next (replied s l 0x82 tag [0x03, 0, 0, 0]))

/-- TRANSFER moves the least of X, Gi - Fi and Capj - Gj between two ADMITTED branches -/
def Obligations.TransferMovesGrantAndRequest : Prop :=
  ∀ (s : State) (l : LineNo) (tag : Byte) (i j : BranchNo) (x : Nat),
    Handed s l tag (.transfer i j x) →
      ((s.br i).dock ≠ .admitted ∨ (s.br j).dock ≠ .admitted →
        exec (.transfer l) s = .next (replied s l 0x83 tag [0x03, 0, 0])) ∧
      (i = j → (s.br i).dock = .admitted → exec (.transfer l) s = .next (replied s l 0x83 tag [0x00, 0, 0])) ∧
      (i ≠ j → (s.br i).dock = .admitted → (s.br j).dock = .admitted →
        let m := min x (min ((s.br i).grant - (s.br i).floor) ((s.br j).cap - (s.br j).grant))
        Answers (exec (.transfer l) s) fun t =>
          Replies s t l 0x83 tag (0x00 :: toOctets 2 m) ∧
          (t.br i).grant = (s.br i).grant - m ∧ (t.br j).grant = (s.br j).grant + m ∧ grantSum t = grantSum s ∧
          (t.br i).request = (if m = 0 then (s.br i).request else max (s.br i).floor ((s.br i).request - m)) ∧
          (t.br j).request = (if m = 0 then (s.br j).request else min (s.br j).cap ((s.br j).request + m)) ∧
          (0 < m → (t.br i).commanded = (t.br i).duty ∧ (t.br j).commanded = (t.br j).duty) ∧
          (∀ c, t.br c = { s.br c with
            grant := (t.br c).grant
            request := (t.br c).request
            commanded := (t.br c).commanded
            trim := (t.br c).trim }) ∧
          (∀ c, c ≠ i → c ≠ j → t.br c = s.br c) ∧
          (0 < m → s.params.quantum ≤ m → ToldOwner s t i .grantChanged ∧ ToldOwner s t j .grantChanged) ∧
          (m < s.params.quantum → t.attn = s.attn) ∧
          t = { s with branches := t.branches, attn := t.attn, lines := t.lines })

/-- SET_BRANCH sets tier, floor, cap, Fopen and hold within range and brings the branch within them -/
def Obligations.SetBranchSetsTheLiveLimits : Prop :=
  ∀ (s : State) (tag : Byte) (b : BranchNo) (tier floor cap fopen : Nat) (hold : Bool),
    Handed s supLine tag (.setBranch b tier floor cap fopen hold) →
      let cap' := max 100 (min 4000 cap)
      let floor' := min cap' (min 1000 floor)
      let fopen' := max 100 (min 4000 fopen)
      let tier' := if tier = 0 then 0 else 1
      let grant' := if (s.br b).dock = .priming then min (min (s.br b).grant cap') (min s.params.primeFlow cap')
        else min (s.br b).grant cap'
      let settles := (s.br b).dock = .held ∧ (s.br b).hold = true ∧ hold = false ∧ (s.br b).clearance = false ∧
        (s.br b).dockTimer = none
      Answers (exec .setBranch s) fun t =>
        Replies s t supLine 0x91 tag
          ([0x00, if floor' = floor ∧ cap' = cap ∧ fopen' = fopen then 0 else 1, octet tier'] ++ toOctets 2 floor' ++
            toOctets 2 cap' ++ toOctets 2 fopen' ++ [if hold = true then 1 else 0]) ∧
        t.br b = { t.br b with
          tier := tier'
          floor := floor'
          cap := cap'
          fopen := fopen'
          hold := hold
          request := max floor' (min cap' (s.br b).request)
          restricted := none
          takeUp := 0
          grant := grant' } ∧
        ((s.br b).dock ≠ .held → (t.br b).dock = (s.br b).dock ∧ (t.br b).commanded = (t.br b).duty) ∧
        (settles → s.params.seatSettle ≠ 0 →
          (t.br b).dock = .held ∧ (t.br b).dockTimer = some (s.params.seatSettle * 1000) ∧ (t.br b).clearance = false) ∧
        (¬settles → (t.br b).dock = (s.br b).dock ∧ (t.br b).dockTimer = (s.br b).dockTimer ∧
          (t.br b).clearance = (s.br b).clearance) ∧
        ((s.br b).grant - grant' < s.params.quantum → t.attn = s.attn) ∧
        (0 < s.params.quantum → s.params.quantum ≤ (s.br b).grant - grant' → ToldOwner s t b .grantChanged) ∧
        OthersKept s t b ∧ t = { s with branches := t.branches, attn := t.attn, lines := t.lines }

/-- BUDGET stores the pending budget and starts the age anew; an urgent one runs a round at once -/
def Obligations.BudgetDeclaresThePendingBudget : Prop :=
  ∀ (s : State) (tag : Byte) (value : Nat) (urgent : Bool),
    Handed s plantLine tag (.budget value urgent) →
      let v := min 40000 value
      let body := [0x00, if v = value then 0 else 1] ++ toOctets 2 v
      (urgent = false → exec .budget s = .next (replied
        { s with alloc := { s.alloc with pendingBudget := v, age := 0, ageState := .fresh } } plantLine 0xA0 tag body)) ∧
      (urgent = true → Answers (exec .budget s) fun t =>
        Replies s t plantLine 0xA0 tag body ∧ t.alloc.pendingBudget = v ∧ t.alloc.effectiveBudget = v ∧ t.alloc.age = 0 ∧
        t.alloc.ageState = .fresh ∧ t.alloc.round.seq = s.alloc.round.seq + 1 ∧
        (GrantLaw s → grantSum t + t.alloc.bypassTarget = v) ∧
        t.valves.bypassCommanded = min 1000 (t.alloc.bypassTarget * 1000 / s.valves.bypassFopen) ∧
        (∀ b, t.br b = { s.br b with
          grant := (t.br b).grant
          commanded := (t.br b).commanded
          trim := (t.br b).trim }) ∧
        t = { s with
          branches := t.branches
          alloc := t.alloc
          valves := { s.valves with bypassCommanded := t.valves.bypassCommanded }
          attn := t.attn
          lines := t.lines })

/-- READ_ROUND and READ_DEMAND carry the Allocator's values at the offsets of 9.7 -/
def Obligations.RoundAndDemandReadsReportTheAllocator : Prop :=
  ∀ (s : State) (l : LineNo) (tag : Byte),
    (Handed s l tag .readRound → ∃ body, exec (.readRound l) s = .next (replied s l 0x98 tag (0x00 :: body)) ∧
      body.length = 18 ∧ numberAt body 0 2 = s.alloc.round.seq.toNat ∧
      numberAt body 2 2 = s.alloc.round.budget % 65536 ∧ numberAt body 4 2 = s.alloc.round.available % 65536 ∧
      numberAt body 6 2 = s.alloc.round.sumFloors % 65536 ∧ numberAt body 8 2 = s.alloc.round.sumGrants % 65536 ∧
      numberAt body 10 2 = s.alloc.round.residue % 65536 ∧ numberAt body 12 2 = s.alloc.round.bypassTarget % 65536 ∧
      numberAt body 14 1 = s.alloc.round.p1.val ∧ numberAt body 15 1 = s.alloc.round.p0.val ∧
      numberAt body 16 1 = s.alloc.round.participants % 256 ∧
      numberAt body 17 1 = (if s.alloc.round.short = true then 1 else 0)) ∧
    (Handed s l tag .readDemand → ∃ body, exec (.readDemand l) s = .next (replied
      { s with alloc := { s.alloc with
        reportedDemand := if l = plantLine then requestSum s else s.alloc.reportedDemand } } l 0xA3 tag (0x00 :: body)) ∧
      body.length = 18 ∧ numberAt body 0 2 = requestSum s % 65536 ∧
      numberAt body 2 2 = s.alloc.round.sumFloors % 65536 ∧ numberAt body 4 2 = grantSum s % 65536 ∧
      (numberAt body 6 4 : Int) = sumBranchesInt (supplyRate s) % 4294967296 ∧
      numberAt body 10 2 =
        (if s.alloc.round.short = true then s.alloc.round.sumFloors - s.alloc.round.available else 0) % 65536 ∧
      numberAt body 12 1 = s.rail.state.code ∧ numberAt body 13 2 = s.alloc.effectiveBudget % 65536 ∧
      numberAt body 15 2 = s.alloc.pendingBudget % 65536 ∧ numberAt body 17 1 = s.alloc.ageState.code)

/-- RELEASE shuts a participating bay, frees a waiting one, and is NOT_SERVED in VACANT, ISOLATING and ISOLATED (kept
fields: log 24) -/
def Obligations.ReleaseFollowsTheDockStateTable : Prop :=
  ∀ (s : State) (l : LineNo) (tag : Byte) (b : BranchNo),
    Handed s l tag (.release b) →
      ((s.br b).dock ∈ [DockState.vacant, .isolating, .isolated] →
        exec (.release l) s = .next (replied s l 0x84 tag [0x03, octet (s.br b).dock.code])) ∧
      ((s.br b).dock ∈ [DockState.releasing, .draining, .pullReady] →
        exec (.release l) s = .next (replied s l 0x84 tag [0x00, octet (s.br b).dock.code])) ∧
      ((s.br b).dock ∈ [DockState.priming, .admitted, .adopting] → Answers (exec (.release l) s) fun t =>
        Replies s t l 0x84 tag [0x00, 6] ∧
        t.br b = { s.br b with
          dock := .releasing
          led := .off
          ledPhase := (t.br b).ledPhase
          dockTimer := some (s.params.closeTime * 1000)
          grant := 0
          commanded := 0
          restricted := none
          takeUp := 0
          trim := 0 } ∧
        OthersKept s t b ∧ t = { s with branches := t.branches, lines := t.lines }) ∧
      ((s.br b).dock ∈ [DockState.seated, .held] → Answers (exec (.release l) s) fun t =>
        Replies s t l 0x84 tag [0x00, 8] ∧
        t.br b = { s.br b with
          dock := .pullReady
          led := .steady
          ledPhase := (t.br b).ledPhase
          dockTimer := none } ∧
        ToldOwner s t b .pullReady ∧ OthersKept s t b ∧
        t = { s with branches := t.branches, attn := t.attn, lines := t.lines })

/-- ADMIT sets the clearance of a held bay, takes PULL_READY to HELD, and is NOT_SERVED elsewhere -/
def Obligations.AdmitClearsAHeldBay : Prop :=
  ∀ (s : State) (tag : Byte) (b : BranchNo),
    Handed s supLine tag (.admitBay b) →
      ((s.br b).dock = .pullReady ∨ (s.br b).dock = .held ∧ (s.br b).hold = true ∧ (s.br b).clearance = false →
        Answers (exec .admitBay s) fun t =>
          Replies s t supLine 0x92 tag [0x00, octet (t.br b).dock.code] ∧
          (MayPrime s b → EntersPriming s t b) ∧
          (¬MayPrime s b → (t.br b).dock = .held ∧ (t.br b).clearance = true ∧ (t.br b).dockTimer = none ∧
            (t.br b).grant = (s.br b).grant) ∧
          (t.br b).causes = (s.br b).causes ∧ (t.br b).hold = (s.br b).hold ∧ (t.br b).request = (s.br b).request ∧
          OthersKept s t b ∧ t = { s with branches := t.branches, lines := t.lines }) ∧
      ((s.br b).dock = .held → (s.br b).hold = false ∨ (s.br b).clearance = true →
        exec .admitBay s = .next (replied s supLine 0x92 tag [0x00, 2])) ∧
      ((s.br b).dock ≠ .held → (s.br b).dock ≠ .pullReady →
        exec .admitBay s = .next (replied s supLine 0x92 tag [0x03, octet (s.br b).dock.code]))

/-- READ_ATTN names the highest pending cause in the mask, lists its details, and clears GRANT_CHANGED or
DEMAND_CHANGED (model: log 30) -/
def Obligations.ReadAttnReportsTheHighestCause : Prop :=
  ∀ (s : State) (l : LineNo) (tag : Byte),
    Handed s l tag .readAttn → (∀ e ∈ (s.attnOf l).entries, e.cause ∈ (lineClass l).causes) →
      ∃ t body, exec (.readAttn l) s = .next t ∧ Replies s t l 0x85 tag (0x00 :: body) ∧
        numberAt body 2 2 = (pendingBits (s.attnOf l)).toNat ∧ numberAt body 4 2 = (s.attnOf l).mask.toNat ∧
        ((∀ c, isPending (s.attnOf l) c = true → (s.attnOf l).mask.getLsbD c.number = false) →
          numberAt body 0 1 = 0xFF ∧ numberAt body 1 1 = 0 ∧ body.length = 6 ∧ t.attn = s.attn) ∧
        ((∃ c, isPending (s.attnOf l) c = true ∧ (s.attnOf l).mask.getLsbD c.number = true) →
          ∃ c, isPending (s.attnOf l) c = true ∧ (s.attnOf l).mask.getLsbD c.number = true ∧
            numberAt body 0 1 = c.number ∧
            (∀ d, isPending (s.attnOf l) d = true → (s.attnOf l).mask.getLsbD d.number = true → c.number ≤ d.number) ∧
            (let reported := if c.plain = true then [] else detailList (s.attnOf l) c
             numberAt body 1 1 = reported.length % 256 ∧
             body.drop 6 = reported.flatMap fun e =>
               if c = .sled .isolated then octet e.key :: toOctets 2 (branchSetBits e.causes)
               else if c = .sup .lineFault then [octet (e.key + if e.overrun = true then 128 else 0)]
               else [octet e.key]) ∧
            (c ≠ .sled .grantChanged → c ≠ .plant .demandChanged → t.attn = s.attn) ∧
            (c = .sled .grantChanged ∨ c = .plant .demandChanged → isPending (t.attnOf l) c = false ∧
              (∀ d, d ≠ c → detailList (t.attnOf l) d = detailList (s.attnOf l) d) ∧
              (t.attnOf l).mask = (s.attnOf l).mask ∧ ∀ k, k ≠ l → t.attnOf k = s.attnOf k)) ∧
        t = { s with attn := t.attn, lines := t.lines }

/-- CLEAR_ATTN removes the named causes but STRIP_CHANGE, and TRIP_LINE under a trip -/
def Obligations.ClearAttnRemovesTheNamedCauses : Prop :=
  ∀ (s : State) (l : LineNo) (tag : Byte) (set : BitVec 16),
    Handed s l tag (.clearAttn set) → Answers (exec (.clearAttn l) s) fun t =>
      Replies s t l 0x86 tag (0x00 :: toOctets 2 (pendingBits (t.attnOf l)).toNat) ∧
      (∀ c, detailList (t.attnOf l) c =
        if set.getLsbD c.number = true ∧ c ≠ .sup .stripChange ∧ ¬(c = .sup .tripLine ∧ s.iso.tripAsserted = true) then []
        else detailList (s.attnOf l) c) ∧
      (t.attnOf l).mask = (s.attnOf l).mask ∧ (∀ k, k ≠ l → t.attnOf k = s.attnOf k) ∧
      t = { s with attn := t.attn, lines := t.lines }

/-- SET_ATTN_MASK replaces the mask, and ATTN follows at the same event -/
def Obligations.SetAttnMaskReplacesTheMask : Prop :=
  ∀ (s : State) (l : LineNo) (tag : Byte) (set : BitVec 16) (e : AttnEntry) (body : List Byte),
    (Handed s l tag (.setAttnMask set) → (∀ e ∈ (s.attnOf l).entries, e.cause ∈ (lineClass l).causes) →
      let mask := set &&& (lineClass l).allCauses
      let t := replied { s with attn := Vec.put s.attn l { s.attnOf l with mask := mask } } l 0x87 tag
        (0x00 :: toOctets 2 mask.toNat)
      exec (.setAttnMask l) s = .next t ∧
        (attnPin t l = true ↔ ∃ c, isPending (t.attnOf l) c = true ∧ mask.getLsbD c.number = true)) ∧
    (∃ x ∈ ((raise l e s).attnOf l).entries, x.cause = e.cause ∧ x.key = e.key ∧ (∀ c ∈ e.causes, c ∈ x.causes) ∧
      (e.overrun = true → x.overrun = true)) ∧
    ((s.line l).service = .empty → s.loader.loading = true → body.length ≤ 48 →
      Answers (exec (.frameReceived l 0x07 tag body (frameCheck 0x07 tag body)) s) fun t =>
        (t.line l).service = .sending ⟨0x87, tag, [0x05], false⟩ ∧ t.attn = s.attn)

/-- ISOLATE adds COMMANDED: a branch is isolated as R25 gives, the rail is sent to CLOSING -/
def Obligations.IsolateAddsCommanded : Prop :=
  ∀ (s : State) (tag : Byte) (b : BranchNo),
    (Handed s supLine tag (.isolate (.branch b)) →
      (BranchCause.commanded ∈ (s.br b).causes →
        exec .isolate s = .next (replied s supLine 0x93 tag (0x00 :: toOctets 2 (branchSetBits (s.br b).causes)))) ∧
      (BranchCause.commanded ∉ (s.br b).causes → Answers (exec .isolate s) fun t =>
        Replies s t supLine 0x93 tag (0x00 :: toOctets 2 (branchSetBits (t.br b).causes)) ∧
        BranchCause.commanded ∈ (t.br b).causes ∧ (t.br b).dock = isolatedFrom (s.br b).dock ∧
        ToldOwner s t b .isolated ∧ t.ring = s.ring ∧ t.rail = s.rail ∧
        ((s.br b).dock ∈ [DockState.priming, .admitted, .adopting] →
          (t.br b).grant = 0 ∧ (t.br b).commanded = 0 ∧ (t.br b).dockTimer =
            if s.loader.loading = true then none else some (s.params.closeTime * 1000)) ∧
        ((s.br b).dock ∈ [DockState.releasing, .isolating] → (t.br b).dockTimer = (s.br b).dockTimer) ∧
        ((s.br b).dock ≠ .vacant → (t.br b).causes = (s.br b).causes ++ [.commanded] ∧ OthersKept s t b ∧
          t = { s with branches := t.branches, attn := t.attn, lines := t.lines }))) ∧
    (Handed s supLine tag (.isolate .rail) →
      (RailCause.commanded ∈ s.rail.causes →
        exec .isolate s = .next (replied s supLine 0x93 tag (0x00 :: toOctets 2 (railSetBits s.rail.causes)))) ∧
      (RailCause.commanded ∉ s.rail.causes → Answers (exec .isolate s) fun t =>
        Replies s t supLine 0x93 tag (0x00 :: toOctets 2 (railSetBits t.rail.causes)) ∧
        t.rail.causes = s.rail.causes ++ [.commanded] ∧ t.rail.state = railAfterCause s.rail.state ∧ t.ring = s.ring ∧
        (s.rail.state ∈ [RailState.opened, .opening] → t.valves.railCommanded = 0 ∧ t.rail.timer =
          if s.loader.loading = true then none else some (s.params.railCloseTime * 1000)) ∧
        (s.rail.state ∈ [RailState.closing, .closed] → t.rail.timer = s.rail.timer) ∧
        (s.rail.state ≠ .opened → t.branches = s.branches ∧ t.attn = s.attn) ∧
        (s.rail.state = .opened → ∀ c, (s.br c).dock ≠ .vacant → BranchCause.rail ∈ (t.br c).causes)))

/-- CLEAR_CAUSE of a branch: the tests of R128 in order, then the removal -/
def Obligations.ClearCauseOfABranchMakesItsTests : Prop :=
  ∀ (s : State) (tag : Byte) (b : BranchNo) (code : Nat),
    Handed s supLine tag (.clearCause (.branch b) code) →
      let refused := fun st => exec .clearCause s =
        .next (replied s supLine 0x94 tag (st :: toOctets 2 (branchSetBits (s.br b).causes)))
      (10 < code → refused 0x03) ∧
      ∀ c : BranchCause, c.code = code →
        let leak := c ≠ .commanded ∧ c ≠ .rail
        let wet := c = .trayWet ∧ (s.strip (trayStrip b)).state = .wet
        (c ∉ (s.br b).causes → refused 0x00) ∧
        (c ∈ (s.br b).causes → c = .rail → refused 0x03) ∧
        (c ∈ (s.br b).causes → wet → refused 0x06) ∧
        (c ∈ (s.br b).causes → ¬wet → leak → (s.br b).incident ≠ none → refused 0x07) ∧
        (c ∈ (s.br b).causes → c ≠ .rail → ¬wet → ¬(leak ∧ (s.br b).incident ≠ none) →
          Answers (exec .clearCause s) fun t =>
            Replies s t supLine 0x94 tag (0x00 :: toOctets 2 (branchSetBits (t.br b).causes)) ∧
            ((∃ d ∈ (s.br b).causes, d ≠ c) ∨ (s.br b).dock ≠ .isolated →
              t = { s with
                branches := Vec.put s.branches b { s.br b with causes := (s.br b).causes.filter (· ≠ c) }
                lines := t.lines }) ∧
            ((∀ d ∈ (s.br b).causes, d = c) → (s.br b).dock = .isolated →
              (s.br b).hold = true ∨ s.params.seatSettle ≠ 0 → (t.br b).dock = dockByContacts (s.br b)))

/-- CLEAR_CAUSE of the rail: the tests of R128 in order, then the removal -/
def Obligations.ClearCauseOfTheRailMakesItsTests : Prop :=
  ∀ (s : State) (tag : Byte) (code : Nat),
    Handed s supLine tag (.clearCause .rail code) →
      let refused := fun st => exec .clearCause s =
        .next (replied s supLine 0x94 tag (st :: toOctets 2 (railSetBits s.rail.causes)))
      (4 < code → refused 0x03) ∧
      ∀ c : RailCause, c.code = code →
        let own := c = .tripLine ∨ c = .plantStop
        let leak := c = .railBalance ∨ c = .commonRail
        let wet := c = .commonRail ∧ ∃ n, CommonRole s n ∧ (s.strip n).state = .wet
        (c ∉ s.rail.causes → refused 0x00) ∧
        (c ∈ s.rail.causes → own → refused 0x03) ∧
        (c ∈ s.rail.causes → wet → refused 0x06) ∧
        (c ∈ s.rail.causes → ¬wet → leak → s.rail.incident ≠ none → refused 0x07) ∧
        (c ∈ s.rail.causes → ¬own → ¬wet → ¬(leak ∧ s.rail.incident ≠ none) →
          Answers (exec .clearCause s) fun t =>
            Replies s t supLine 0x94 tag (0x00 :: toOctets 2 (railSetBits t.rail.causes)) ∧
            t.rail.causes = s.rail.causes.filter (· ≠ c) ∧ TripOutLaw t ∧
            (s.rail.state = .closed ∧ (∀ d ∈ s.rail.causes, d = c) →
              t.rail.state = .opening ∧ t.valves.railCommanded = 1000 ∧ t.rail.timer =
                if s.loader.loading = true then none else some (s.params.railOpenTime * 1000)) ∧
            (¬(s.rail.state = .closed ∧ ∀ d ∈ s.rail.causes, d = c) →
              t.rail.state = s.rail.state ∧ t.rail.timer = s.rail.timer ∧ t.valves = s.valves) ∧
            t = { s with rail := t.rail, iso := t.iso, valves := t.valves, lines := t.lines })

/-- RESTORE is refused under a trip; otherwise it drops TRIP_LINE and sets the drive enables 0 to 12 -/
def Obligations.RestoreSetsTheDrives : Prop :=
  ∀ (s : State) (tag : Byte),
    Handed s supLine tag .restore →
      (s.iso.tripAsserted = true → exec .restore s = .next (replied s supLine 0x95 tag [0x08, 0])) ∧
      (s.iso.tripAsserted = false → Answers (exec .restore s) fun t =>
        Replies s t supLine 0x95 tag [0x00, octet t.rail.state.code] ∧
        t.rail.causes = s.rail.causes.filter (· ≠ .tripLine) ∧ t.rail.incident = s.rail.incident ∧
        (∀ b, t.br b = { s.br b with enable := true }) ∧ t.valves.railEnable = true ∧
        t.valves.railApplied = s.valves.railApplied ∧ t.valves.bypassEnable = s.valves.bypassEnable ∧
        (s.rail.state = .closed → .tripLine ∈ s.rail.causes → (∀ c ∈ s.rail.causes, c = .tripLine) →
          t.rail.state = .opening ∧ t.valves.railCommanded = 1000) ∧
        (s.rail.state ≠ .closed ∨ .tripLine ∉ s.rail.causes ∨ (∃ c ∈ s.rail.causes, c ≠ .tripLine) →
          t.rail.state = s.rail.state ∧ t.rail.timer = s.rail.timer ∧ t.valves.railCommanded = s.valves.railCommanded) ∧
        t = { s with branches := t.branches, rail := t.rail, valves := t.valves, iso := t.iso, lines := t.lines })

/-- PLANT_STOP closes the rail and suspends the budget age; PLANT_RESUME undoes both -/
def Obligations.PlantStopAndResumeMoveTheRail : Prop :=
  ∀ (s : State) (tag : Byte),
    (Handed s plantLine tag .plantStop → Answers (exec .plantStop s) fun t =>
      Replies s t plantLine 0xA1 tag ([0x00, octet t.rail.state.code] ++ toOctets 2 (railSetBits t.rail.causes)) ∧
      t.alloc = { s.alloc with suspended := true } ∧ t.ring = s.ring ∧
      (.plantStop ∈ s.rail.causes → t.rail = s.rail ∧ t.branches = s.branches ∧ t.attn = s.attn) ∧
      (.plantStop ∉ s.rail.causes →
        t.rail.causes = s.rail.causes ++ [.plantStop] ∧ t.rail.state = railAfterCause s.rail.state ∧
        (s.rail.state ≠ .opened → t.branches = s.branches) ∧
        (s.rail.state = .opened → ∀ b, (s.br b).dock ≠ .vacant → BranchCause.rail ∈ (t.br b).causes))) ∧
    (Handed s plantLine tag .plantResume → Answers (exec .plantResume s) fun t =>
      Replies s t plantLine 0xA2 tag ([0x00, octet t.rail.state.code] ++ toOctets 2 (railSetBits t.rail.causes)) ∧
      t.alloc = { s.alloc with suspended := false } ∧ t.rail.causes = s.rail.causes.filter (· ≠ .plantStop) ∧
      (s.rail.state = .closed → .plantStop ∈ s.rail.causes → (∀ c ∈ s.rail.causes, c = .plantStop) →
        t.rail.state = .opening ∧ t.valves.railCommanded = 1000) ∧
      (s.rail.state ≠ .closed ∨ .plantStop ∉ s.rail.causes ∨ (∃ c ∈ s.rail.causes, c ≠ .plantStop) →
        t.rail.state = s.rail.state ∧ t.rail.timer = s.rail.timer ∧ t.valves = s.valves) ∧
      t = { s with rail := t.rail, alloc := t.alloc, valves := t.valves, iso := t.iso, lines := t.lines })

/-- READ_STRIPS carries the strips, the delta set and the common roles, and empties the delta set -/
def Obligations.ReadStripsReportsAndEmptiesTheDelta : Prop :=
  ∀ (s : State) (tag : Byte),
    Handed s supLine tag .readStrips → ∃ t body, exec .readStrips s = .next t ∧
      Replies s t supLine 0x96 tag (0x00 :: body) ∧ body.length = 11 ∧
      (∀ n : StripNo, numberAt body 0 4 / 4 ^ n.val % 4 = stripCode (s.strip n).state ∧
        numberAt body 4 2 / 2 ^ n.val % 2 = (if (s.strip n).changed = true then 1 else 0) ∧
        numberAt body 6 2 / 2 ^ n.val % 2 = (if CommonRole s n then 1 else 0)) ∧
      numberAt body 8 1 = (if AdmissionsFrozen s then 1 else 0) + (if s.drip.running = true then 2 else 0) +
        4 * s.drip.outcome.code ∧
      numberAt body 9 1 = s.drip.windowsLeft % 256 ∧
      numberAt body 10 1 = (match s.drip.locateStrip with | none => 0xFF | some n => n.val) ∧
      (∀ n, t.strip n = { s.strip n with changed := false }) ∧
      isPending (t.attnOf supLine) (.sup .stripChange) = false ∧
      (∀ c, c ≠ .sup .stripChange → detailList (t.attnOf supLine) c = detailList (s.attnOf supLine) c) ∧
      (∀ l, l ≠ supLine → t.attnOf l = s.attnOf l) ∧
      t = { s with drip := { s.drip with strips := t.drip.strips }, attn := t.attn, lines := t.lines }

/-- READ_METERS carries up to four channels of the snapshot, with their runs and accumulators -/
def Obligations.ReadMetersReportsTheSnapshot : Prop :=
  ∀ (s : State) (tag : Byte) (first count : Nat),
    Handed s supLine tag (.readMeters first count) →
      (25 < first → exec .readMeters s = .next (replied s supLine 0x97 tag [0x02, 0, 0, 0])) ∧
      (first ≤ 25 → ∃ body, exec .readMeters s = .next (replied s supLine 0x97 tag (0x00 :: body)) ∧
        let n := min (max 1 (min 4 count)) (26 - first)
        body.length = 3 + 11 * n ∧ numberAt body 0 1 = n ∧ numberAt body 1 2 = s.meter.snap.seq.toNat ∧
        ∀ c : ChannelNo, first ≤ c.val → c.val < first + n →
          let i := 3 + 11 * (c.val - first)
          (numberAt body i 2 : Int) = (s.snapChannel c).count % 65536 ∧
          (numberAt body (i + 2) 3 : Int) = (s.snapChannel c).volume % 16777216 ∧
          (numberAt body (i + 5) 2 : Int) = (s.snapChannel c).rate % 65536 ∧
          (numberAt body (i + 7) 2 : Int) = (s.channel c).acc % 65536 ∧
          ((s.channel c).qerrRun ≤ 3 → (s.channel c).cleanRun ≤ 15 →
            numberAt body (i + 9) 2 = (if (s.snapChannel c).qerr = true then 1 else 0) +
              (if (s.snapChannel c).overrange = true then 2 else 0) +
              (if (s.snapChannel c).health = .degraded then 4 else 0) + 8 * (s.channel c).qerrRun +
              32 * (s.channel c).cleanRun))

/-- TAKE_INCIDENT carries every field of a slot and changes nothing but the reply -/
def Obligations.TakeIncidentReportsTheSlot : Prop :=
  ∀ (s : State) (tag : Byte) (n : Nat),
    Handed s supLine tag (.takeIncident n) →
      (15 < n → exec .takeIncident s = .next (replied s supLine 0x99 tag (0x02 :: List.replicate 26 0))) ∧
      ∀ k : SlotNo, k.val = n → ∃ body, exec .takeIncident s = .next (replied s supLine 0x99 tag (0x00 :: body)) ∧
        body.length = 26 ∧ numberAt body 0 1 = n ∧ numberAt body 1 1 = (s.slot k).state.code ∧
        numberAt body 2 1 = s.ring.fill.val ∧ numberAt body 3 1 = (if s.ring.suspended = true then 1 else 0) ∧
        numberAt body 4 1 = (match (s.slot k).target with | none => 0xFE | some .rail => 0xFF | some (.branch b) => b.val) ∧
        numberAt body 5 1 = (match (s.slot k).opening with | none => 0xFF | some c => c.code) ∧
        numberAt body 6 1 = (s.slot k).causes.length % 256 ∧
        (∀ i, i < 9 → numberAt body (7 + i) 1 = (match (s.slot k).causes[i]? with | none => 0xFF | some c => c.code)) ∧
        numberAt body 16 2 = (s.slot k).seqOpen.toNat ∧
        numberAt body 18 2 = (match (s.slot k).seqClose with | none => 0 | some q => q.toNat) ∧
        numberAt body 20 2 = (s.slot k).integrator % 65536 ∧ numberAt body 22 3 = (s.slot k).loss % 16777216 ∧
        numberAt body 25 1 = (if (s.slot k).hotPull = true then 1 else 0) + (if (s.slot k).stillWet = true then 2 else 0) +
          (if (s.slot k).flow = true then 4 else 0) + (if (s.slot k).lostBefore = true then 8 else 0) +
          (if (s.slot k).seqClose.isSome = true then 16 else 0)

/-- RETURN_INCIDENT frees a CLOSED slot and its reference; LOG_RESUME needs a FREE slot at the Fill Index -/
def Obligations.ReturnAndLogResumeKeepTheRing : Prop :=
  ∀ (s : State) (tag : Byte) (n : Nat),
    (Handed s supLine tag (.returnIncident n) →
      (15 < n → exec .returnIncident s = .next (replied s supLine 0x9A tag [0x02])) ∧
      ∀ k : SlotNo, k.val = n →
        ((s.slot k).state = .opened → exec .returnIncident s = .next (replied s supLine 0x9A tag [0x03])) ∧
        ((s.slot k).state = .free → exec .returnIncident s = .next (replied s supLine 0x9A tag [0x00])) ∧
        ((s.slot k).state = .closed → Answers (exec .returnIncident s) fun t =>
          Replies s t supLine 0x9A tag [0x00] ∧ t.slot k = ⟨.free, none, none, [], 0, none, 0, 0, false, false, false, false⟩ ∧
          (∀ j, j ≠ k → t.slot j = s.slot j) ∧ t.ring.fill = s.ring.fill ∧ t.ring.suspended = s.ring.suspended ∧
          (∀ b, t.br b = { s.br b with
            incident := if (s.slot k).target = some (.branch b) ∧ (s.br b).incident = some k then none
              else (s.br b).incident }) ∧
          t.rail = { s.rail with
            incident := if (s.slot k).target = some .rail ∧ s.rail.incident = some k then none else s.rail.incident } ∧
          t = { s with branches := t.branches, rail := t.rail, ring := t.ring, lines := t.lines })) ∧
    (Handed s supLine tag .logResume →
      (s.ring.suspended = false → exec .logResume s = .next (replied s supLine 0x9B tag [0x00, 0, octet s.ring.fill.val])) ∧
      (s.ring.suspended = true → (s.slot s.ring.fill).state = .free → exec .logResume s = .next (replied
        { s with ring := { s.ring with suspended := false } } supLine 0x9B tag [0x00, 0, octet s.ring.fill.val])) ∧
      (s.ring.suspended = true → (s.slot s.ring.fill).state ≠ .free →
        exec .logResume s = .next (replied s supLine 0x9B tag [0x09, 1, octet s.ring.fill.val])))

/-- STORE_READ returns the stored octets; STORE_WRITE begins a write; its end stores the 32 octets alone (model: logs
4, 13) -/
def Obligations.StoreReadsAndWrites : Prop :=
  ∀ (s : State) (tag : Byte) (block half : Nat) (octets : List Byte) (acked : Bool),
    let report := [octet s.loader.blocksTaken, octet s.loader.endReason.code, if s.loader.defaulted = true then 1 else 0,
      octet s.loader.lastWrite.code]
    (Handed s supLine tag (.storeRead block half) →
      let answers := fun st rest => exec (.storeRead acked) s = .next (replied s supLine 0x9C tag (st :: report ++ rest))
      (s.loader.store ≠ none → answers 0x01 []) ∧
      (s.loader.store = none → 3 < block ∨ 1 < half → answers 0x02 []) ∧
      (s.loader.store = none → block ≤ 3 → half ≤ 1 → acked = false → answers 0x03 []) ∧
      (s.loader.store = none → block ≤ 3 → half ≤ 1 → acked = true →
        answers 0x00 ((List.range 32).map fun i => Memory.read s.eeprom (64 * block + 32 * half + i)))) ∧
    (Handed s supLine tag (.storeWrite block half octets) →
      (s.loader.store ≠ none → exec .storeWrite s = .next (replied s supLine 0x9D tag [0x01])) ∧
      (s.loader.store = none → 3 < block ∨ 1 < half → exec .storeWrite s = .next (replied s supLine 0x9D tag [0x02])) ∧
      ∀ (k : Fin 4) (h : Fin 2), k.val = block → h.val = half → s.loader.store = none →
        exec .storeWrite s = .next (replied { s with loader := { s.loader with store := some ⟨k, h, octets⟩ } }
          supLine 0x9D tag [0x00])) ∧
    (s.loader.store = none → exec (.storeWriteCompletes acked) s = .next s) ∧
    ∀ w, s.loader.store = some w → StoreLaw s → Answers (exec (.storeWriteCompletes acked) s) fun t =>
      let base := 64 * w.block.val + 32 * w.half.val
      t.loader = { s.loader with store := none, lastWrite := if acked = true then .done else .failed } ∧
      SupEntry t .settingsDone 1 ∧
      (∀ i, i < base ∨ base + 32 ≤ i → Memory.read t.eeprom i = Memory.read s.eeprom i) ∧
      (acked = true → ∀ i, i < 32 → Memory.read t.eeprom (base + i) = w.octets.getD i 0) ∧
      (∀ l, l ≠ supLine → t.attnOf l = s.attnOf l) ∧
      t = { s with loader := t.loader, eeprom := t.eeprom, attn := t.attn, freeCount := t.freeCount }

/-- A warm restart begins at the end of the RESTART reply, at a break that cuts it, and at WARM_RST (model: logs 4, 9,
18) -/
def Obligations.WarmRestartBeginsAtItsThreeEvents : Prop :=
  ∀ (s : State) (l : LineNo) (tag : Byte) (r : Reply),
    (Handed s supLine tag .restart → exec .restart s = .next
      { s with lines := Vec.put s.lines supLine { s.line supLine with service := .sending ⟨0x9E, tag, [0x00], true⟩ } }) ∧
    ((s.line l).service = .sending r → r.beginsRestart = true →
      Answers (exec (.replySent l) s) (WarmBegins s) ∧ Answers (exec (.lineBreak l) s) (WarmBegins s)) ∧
    (s.loader.warmAsserted = false → Answers (exec .warmRstAsserted s) fun t => WarmBegins s t ∧ t.loader.warmAsserted = true ∧
      t.pins = { s.pins with warm := true }) ∧
    (s.loader.warmAsserted = true → exec .warmRstAsserted s = .next s) ∧
    (s.loader.warmAsserted = true → exec .warmRstNegated s = .next
      { s with
        loader := { s.loader with warmAsserted := false, warmCandidate := 0 }
        pins := { s.pins with warm := false } }) ∧
    (s.loader.warmAsserted = false → exec .warmRstNegated s = .next s)

/-- A settings block is taken, ends the loading, or sets SETTINGS_DEFAULTED; the end gives the values and resumes
(model: logs 4, 15, 17, 29) -/
def Obligations.SettingsBlocksAreTakenOrDefaulted : Prop :=
  ∀ (s : State) (acked dripFirst : Bool),
    let x := Memory.readAll s.eeprom (64 * s.loader.next.val) 64
    let sound := (crc16 (x.take 62)).toNat = numberAt x 62 2
    let go := octetAt x 61 = 0x5A ∧ s.loader.next ≠ 3
    (s.loader.loading = false ∨ s.loader.store ≠ none → exec (.settingsBlockRead acked dripFirst) s = .next s) ∧
    (s.loader.loading = true → s.loader.store = none →
      (acked = true → sound → go → exec (.settingsBlockRead acked dripFirst) s = .next
        { s with loader := { s.loader with
          next := s.loader.next + 1
          taken := s.loader.taken ++ [x]
          blocksTaken := s.loader.taken.length + 1 } }) ∧
      (¬(acked = true ∧ sound ∧ go) → Answers (exec (.settingsBlockRead acked dripFirst) s) fun t =>
        t.loader.loading = false ∧ SupEntry t .settingsDone 0 ∧
        t.loader.endReason = (if acked = true ∧ sound then (if octetAt x 61 = 0x5A then .lastBlock else .stop)
          else if acked = false ∧ s.loader.next = 0 then .noMemory else .badCheck) ∧
        (t.loader.defaulted = true ↔ ¬(acked = true ∧ sound)) ∧
        t.loader.blocksTaken = s.loader.taken.length + (if acked = true ∧ sound then 1 else 0) ∧
        t.meter.windowTimer = some t.params.windowLength ∧ t.meter.snap = s.meter.snap ∧
        (∀ c, t.channel c = { s.channel c with
          last := some (s.pins.pickA.getLsbD c.val, s.pins.pickB.getLsbD c.val)
          acc := 0
          qerr := false
          overrange := false
          k := (t.channel c).k }) ∧
        BypassDutyLaw t ∧ t.alloc.bypassTarget = s.alloc.bypassTarget ∧ t.valves.driven = true ∧
        (s.loader.afterPowerOn = true → t.valves.bypassEnable = true ∧
          (s.iso.tripAsserted = false → t.valves.railEnable = true ∧ ∀ b, (t.br b).enable = true) ∧
          (s.iso.tripAsserted = true → t.valves.railEnable = s.valves.railEnable ∧
            ∀ b, (t.br b).enable = (s.br b).enable)) ∧
        (s.loader.afterPowerOn = false → t.valves.bypassEnable = s.valves.bypassEnable ∧
          t.valves.railEnable = s.valves.railEnable ∧ ∀ b, (t.br b).enable = (s.br b).enable) ∧
        (¬(acked = true ∧ sound) → s.loader.taken = [] → t.params = Params.default ∧
          ∀ b, (t.br b).tier = 0 ∧ (t.br b).floor = 150 ∧ (t.br b).cap = 2500 ∧ (t.br b).fopen = 3000) ∧
        SettingsTaken (s.loader.taken ++ if acked = true ∧ sound then [x] else []) t ∧
        t.valves.polarity = (if s.loader.afterPowerOn = true then t.valves.polarityNext else s.valves.polarity) ∧
        AllocatorResumes s t ∧ RailResumes s t ∧ WetStripsTaken s t ∧
        ((∀ n, (s.strip n).state ≠ .wet) →
          (s.loader.afterPowerOn = false → s.rail.state = .opened → ∀ b, BayResumes s t b) ∧
          (s.loader.afterPowerOn = true → s.rail.state = .closed → ∀ b, BayStarts s t b))))

/-- A received frame is taken and handed on translated, refused at the first test of R162 that applies, waits, or is
an overrun (model: logs 6, 27) -/
def Obligations.ReceivedFrameIsPlacedAndTaken : Prop :=
  ∀ (s : State) (l : LineNo) (kind tag : Byte) (body : List Byte),
    (∀ x ∈ kindTable, Kind.ofOctet x.1 = some x.2.1 ∧ x.2.1.takenOn .sled = x.2.2.1 ∧
      x.2.1.takenOn .supervisor = x.2.2.2.1 ∧ x.2.1.takenOn .plant = x.2.2.2.2.1 ∧
      x.2.1.bodyLength = x.2.2.2.2.2) ∧
    (∀ x : Byte, (∀ y ∈ kindTable, y.1 ≠ x) → Kind.ofOctet x = none) ∧
    (body.length ≤ 48 →
      let received := exec (.frameReceived l kind tag body (frameCheck kind tag body)) s
      let h := { s with lines := Vec.put s.lines l { s.line l with rx := .hunting, awaitIdle := false } }
      let refused := fun st => received = .next (replied h l (kind ||| 0x80) tag [st])
      ((s.line l).service ≠ .empty → (s.line l).waiting.length < 2 → received = .next
        { s with lines := Vec.put s.lines l { s.line l with
          rx := .hunting
          awaitIdle := false
          waiting := (s.line l).waiting ++ [⟨kind, tag, body⟩] } }) ∧
      ((s.line l).service ≠ .empty → 2 ≤ (s.line l).waiting.length → Answers received fun t =>
        (∃ e ∈ (t.attnOf supLine).entries, e.cause = .sup .lineFault ∧ e.key = l.val ∧ e.overrun = true) ∧
        t = { h with attn := t.attn }) ∧
      ((s.line l).service = .empty →
        (Kind.ofOctet kind = none → refused 0x0B) ∧
        (∀ k, Kind.ofOctet kind = some k →
          (k.takenOn (lineClass l) = false → refused 0x0A) ∧
          (k.takenOn (lineClass l) = true → s.loader.loading = true → k ≠ .readAttn → refused 0x05) ∧
          (k.takenOn (lineClass l) = true → s.loader.loading = false → body.length < k.bodyLength → refused 0x03) ∧
          (k.takenOn (lineClass l) = true → s.loader.loading = false ∨ k = .readAttn → k.bodyLength ≤ body.length →
            let handed := fun (r : Request) => received = .next
              { h with lines := Vec.put h.lines l { h.line l with service := .handed tag r } }
            HandsOn s l k body handed (refused 0x02)))) ∧
      (∀ r, (s.line l).service = .sending r → r.beginsRestart = false →
        ((s.line l).waiting = [] → exec (.replySent l) s = .next
          { s with lines := Vec.put s.lines l { s.line l with service := .empty } }) ∧
        ∀ rest, (s.line l).waiting = ⟨kind, tag, body⟩ :: rest →
          Answers (exec (.frameReceived l kind tag body (frameCheck kind tag body))
              { s with lines := Vec.put s.lines l { s.line l with service := .empty, waiting := rest } }) fun u =>
            exec (.replySent l) s = .next
              { u with lines := Vec.put u.lines l { u.line l with
                rx := (s.line l).rx
                awaitIdle := (s.line l).awaitIdle } }))

/-- Receiving a frame octet by octet is receiving the frame (model: logs 6, 27) -/
def Obligations.OctetsOfAFrameAreThatFrame : Prop :=
  ∀ (s : State) (l : LineNo) (kind tag : Byte) (body : List Byte) (check : BitVec 16),
    (s.line l).rx = .hunting → body.length ≤ 48 →
      ([0xC3, octet (body.length + 2), kind, tag] ++ body ++ toOctets 2 check.toNat).foldl
        (fun o x => match o with
          | .next u => exec (.octetReceived l x false) u
          | .fault f => .fault f
          | .refused r => .refused r) (Host.Outcome.next s) =
      exec (.frameReceived l kind tag body check) s

/-- Octets are collected, complete a frame or discard it; discards count to 8, the eighth raises LINE_FAULT; a break
empties its line (model: logs 4, 8, 27) -/
def Obligations.DiscardsAndBreaksActOnTheirLine : Prop :=
  ∀ (s : State) (l : LineNo) (kind tag octet : Byte) (body xs : List Byte) (check : BitVec 16),
    let receives := fun (e : Bool) (rx : Rx) => exec (.octetReceived l octet e) s = .next
      { s with lines := Vec.put s.lines l { s.line l with rx := rx, awaitIdle := e } }
    ((s.line l).rx = .hunting → octet = 0xC3 → receives false (.inFrame [])) ∧
    ((s.line l).rx = .hunting → octet ≠ 0xC3 → receives false .hunting) ∧
    ((s.line l).rx = .hunting → receives true .hunting) ∧
    ((s.line l).rx = .inFrame xs →
      let ys := xs ++ [octet]
      let len := octetAt ys 0
      2 ≤ len → len ≤ 50 →
        (ys.length < len + 3 → receives false (.inFrame ys)) ∧
        (len + 3 ≤ ys.length → exec (.octetReceived l octet false) s =
          exec (.frameReceived l (ys.getD 1 0) (ys.getD 2 0) ((ys.drop 3).take (len - 2))
            (BitVec.ofNat 16 (numberAt ys (len + 1) 2))) s)) ∧
    let counted := fun (o : Host.Outcome State Fault Refusal) (waits : Bool) => Answers o fun t =>
      (t.line l).rx = .hunting ∧ (t.line l).awaitIdle = waits ∧ (t.line l).badCount = min 8 ((s.line l).badCount + 1) ∧
      (t.line l).service = (s.line l).service ∧ (t.line l).waiting = (s.line l).waiting ∧
      (∀ k, k ≠ l → t.line k = s.line k) ∧
      ((s.line l).badCount = 7 → ∃ e ∈ (t.attnOf supLine).entries, e.cause = .sup .lineFault ∧ e.key = l.val) ∧
      ((s.line l).badCount ≠ 7 → t.attn = s.attn) ∧ t = { s with lines := t.lines, attn := t.attn }
    (body.length ≤ 48 → check ≠ frameCheck kind tag body → counted (exec (.frameReceived l kind tag body check) s) false) ∧
      ((s.line l).rx = .inFrame xs → counted (exec (.interOctetTimeout l) s) (s.line l).awaitIdle) ∧
      ((s.line l).rx = .inFrame xs → counted (exec (.octetReceived l octet true) s) true) ∧
      ((s.line l).rx = .inFrame [] → octet.toNat < 2 ∨ 50 < octet.toNat →
        counted (exec (.octetReceived l octet false) s) false) ∧
      ((s.line l).rx = .hunting → exec (.interOctetTimeout l) s = .next s) ∧
      ((s.line l).badCount = 7 → counted (exec (.badFrameCountReached l) s) (s.line l).awaitIdle) ∧
      ((s.line l).badCount ≠ 7 → exec (.badFrameCountReached l) s = .next s) ∧
      ((∀ r, (s.line l).service = .sending r → r.beginsRestart = false) →
        exec (.lineBreak l) s = .next
          { s with lines := Vec.put s.lines l ⟨.hunting, true, .empty, [], 0⟩ })

/-- SET_WINDOW: the tests of R166 in order, then the window and the owner lines; every reply carries them (model: log
22) -/
def Obligations.SetWindowMakesItsTests : Prop :=
  ∀ (s : State) (tag n base span : Byte),
    WindowLaw s → (s.line supLine).service = .empty → s.loader.loading = false →
      let w : Window := ⟨base.toNat, span.toNat⟩
      let taken := exec (.frameReceived supLine 0x10 tag [n, base, span] (frameCheck 0x10 tag [n, base, span])) s
      let refused := fun (st : Byte) (x : Window) => Answers taken fun t =>
        (t.line supLine).service = .sending ⟨0x90, tag, [st, octet x.base, octet x.span], false⟩ ∧
        t = { s with lines := t.lines }
      (11 < n.toNat → refused 0x02 (if n.toNat = 12 then ⟨0, 12⟩ else ⟨0, 0⟩)) ∧
      ∀ k : BranchNo, k.val = n.toNat →
        let fits := base.toNat ≤ 11 ∧ span.toNat ≤ 12 ∧ base.toNat + span.toNat ≤ 12
        let clash := ∃ m b, m ≠ k ∧ w.includes b = true ∧ (s.window m).includes b = true
        (¬fits → refused 0x03 (s.window k)) ∧ (fits → clash → refused 0x04 (s.window k)) ∧
        (fits → ¬clash → Answers taken fun t =>
          (t.line supLine).service = .sending ⟨0x90, tag, [0x00, base, span], false⟩ ∧ t.window k = w ∧
          (∀ m, m ≠ k → t.window m = s.window m) ∧
          (∀ b, t.br b = { s.br b with
            owner := if w.includes b = true then some k
              else if (s.window k).includes b = true then none else (s.br b).owner }) ∧
          t = { s with branches := t.branches, windows := t.windows, lines := t.lines })

/-- READ_BRANCH on every line returns every field of the record at the offsets of 9.7 and changes nothing but the
reply -/
def Obligations.ReadBranchReturnsTheRecord : Prop :=
  ∀ (s : State) (l : LineNo) (tag index : Byte),
    (s.line l).service = .empty → s.loader.loading = false →
      let h := { s with lines := Vec.put s.lines l { s.line l with rx := .hunting, awaitIdle := false } }
      let taken := exec (.frameReceived l 0x01 tag [index] (frameCheck 0x01 tag [index])) s
      (∀ b, Names s l index.toNat (.branch b) → ∃ x, taken = .next (replied h l 0x81 tag (0x00 :: x)) ∧
        BranchRecord s b index x) ∧
      (Names s l index.toNat .rail → ∃ x, taken = .next (replied h l 0x81 tag (0x00 :: x)) ∧ RailRecord s x) ∧
      ((∀ g, ¬Names s l index.toNat g) →
        (l ≠ plantLine → taken = .next (replied h l 0x81 tag
          ([0x00, index, 0xFE, 0, 0x10, 0, 0xFF, 0xFF] ++ List.replicate 33 0 ++ [0xFF, 0xFF, 0xFF, 0, 0]))) ∧
        (l = plantLine → taken = .next (replied h l 0x81 tag [0x02])))

/-- Contact events move a bay as the dock cycle gives, and only record the contact where it answers none (model: logs
4, 9, 20) -/
def Obligations.ContactsMoveTheBay : Prop :=
  ∀ (s : State) (b : BranchNo),
    let presentNow := fun (x : Bool) => { s with
      branches := Vec.put s.branches b { s.br b with present := x, presentRun := 0 }
      pins := { s.pins with present := Vec.put s.pins.present b x } }
    let latchNow := fun (x : Bool) => { s with
      branches := Vec.put s.branches b { s.br b with latched := x, latchRun := 0 }
      pins := { s.pins with latched := Vec.put s.pins.latched b x } }
    let only := fun (u t : State) => HotPullMarked s t b ∧ t = { u with ring := t.ring }
    (s.loader.loading = true →
      ((s.br b).present = false → exec (.presentCloses b) s = .next (presentNow true)) ∧
      ((s.br b).latched = false → exec (.latchCloses b) s = .next (latchNow true)) ∧
      ((s.br b).present = true → Answers (exec (.presentOpens b) s) (only (presentNow false))) ∧
      ((s.br b).latched = true → Answers (exec (.latchOpens b) s) (only (latchNow false)))) ∧
    ((s.br b).present = true → exec (.presentCloses b) s = .next s) ∧
    ((s.br b).present = false → exec (.presentOpens b) s = .next s) ∧
    ((s.br b).latched = false → exec (.latchOpens b) s = .next s) ∧
    ((s.br b).latched = true → exec (.latchCloses b) s = .next s) ∧
    (s.loader.loading = false →
      let pulled := fun (u t : State) =>
        let holds := fun (c : BranchCause) (d : DockState) =>
          (c ∉ (s.br b).causes → (t.br b).dock = d ∧ c ∈ (t.br b).causes ∧ OthersKept s t b ∧
            Recorded s t (.branch b) (.branch c) true ∧
            t = { u with branches := t.branches, ring := t.ring, attn := t.attn }) ∧
          (c ∈ (s.br b).causes → only u t)
        ((s.br b).dock ∈ [DockState.priming, .admitted, .adopting, .releasing, .isolating] → holds .hotPull .isolating) ∧
        ((s.br b).dock = .draining → holds .earlyPull .isolated) ∧
        ((s.br b).dock ∈ [DockState.vacant, .isolated] → only u t)
      let settles := (s.br b).hold = true ∨ s.params.seatSettle ≠ 0
      ((s.br b).present = false → Answers (exec (.presentCloses b) s) fun t =>
        (t.br b).present = true ∧
        ((s.br b).dock = .vacant → s.rail.state = .opened → (s.br b).latched = false → (t.br b).dock = .seated) ∧
        ((s.br b).dock = .vacant → s.rail.state = .opened → (s.br b).latched = true → settles → (t.br b).dock = .held) ∧
        ((s.br b).dock = .vacant → s.rail.state ≠ .opened → (s.br b).causes = [] →
          (t.br b).dock = .isolated ∧ (t.br b).causes = [.rail]) ∧
        ((s.br b).dock ≠ .vacant → t = presentNow true)) ∧
      ((s.br b).present = true → Answers (exec (.presentOpens b) s) fun t =>
        (t.br b).present = false ∧
        ((s.br b).dock ∈ [DockState.seated, .held, .pullReady] → (t.br b).dock = .vacant) ∧ pulled (presentNow false) t) ∧
      ((s.br b).latched = false → Answers (exec (.latchCloses b) s) fun t =>
        (t.br b).latched = true ∧
        ((s.br b).dock = .seated → (s.br b).present = true → settles → (t.br b).dock = .held) ∧
        ((s.br b).dock ≠ .seated ∨ (s.br b).present = false → t = latchNow true)) ∧
      ((s.br b).latched = true → Answers (exec (.latchOpens b) s) fun t =>
        (t.br b).latched = false ∧
        ((s.br b).present = true → ((s.br b).dock = .held → (t.br b).dock = .seated) ∧ pulled (latchNow false) t ∧
          ((s.br b).dock ∈ [DockState.seated, .pullReady] → only (latchNow false) t)) ∧
        ((s.br b).present = false →
          ((s.br b).dock = .isolating → pulled (latchNow false) t) ∧
          ((s.br b).dock ≠ .isolating → only (latchNow false) t))))

/-- The expiry of the dock timer moves a bay as its dock state gives (model: logs 3, 4) -/
def Obligations.DockTimersRunOut : Prop :=
  ∀ (s : State) (b : BranchNo) (left : Nat),
    (s.br b).dockTimer = some left →
      let docksKept := fun (t : State) => ∀ c, c ≠ b → (t.br c).dock = (s.br c).dock
      ((s.br b).dock = .held → Answers (exec (.seatSettleExpires b) s) fun t => docksKept t ∧
        ((s.br b).hold = false → MayPrime s b → EntersPriming s t b) ∧
        ((s.br b).hold = false → ¬MayPrime s b →
          (t.br b).dock = .held ∧ (t.br b).clearance = true ∧ (t.br b).dockTimer = none) ∧
        ((s.br b).hold = true →
          (t.br b).dock = .held ∧ (t.br b).clearance = (s.br b).clearance ∧ (t.br b).dockTimer = none)) ∧
      ((s.br b).dock = .priming → (s.br b).causes = [] → Answers (exec (.primeTimeoutExpires b) s) fun t => docksKept t ∧
        (t.br b).dock = .isolating ∧ (t.br b).causes = [.primeFail] ∧ (t.br b).grant = 0 ∧ (t.br b).commanded = 0 ∧
        ToldOwner s t b .isolated ∧ Recorded s t (.branch b) (.branch .primeFail) false) ∧
      ((s.br b).dock = .releasing → Answers (exec (.closeTimeExpires b) s) fun t => docksKept t ∧
        (t.br b).dock = .draining ∧ (t.br b).dockTimer = some (s.params.drainLimit * 1000) ∧
        (t.br b).causes = (s.br b).causes ∧ t.attn = s.attn) ∧
      ((s.br b).dock = .draining → (s.br b).causes = [] → Answers (exec (.drainLimitExpires b) s) fun t => docksKept t ∧
        (t.br b).dock = .isolated ∧ (t.br b).causes = [.valvePassing] ∧ (t.br b).dockTimer = none ∧
        Recorded s t (.branch b) (.branch .valvePassing) false) ∧
      ((s.br b).dock = .isolating → Answers (exec (.closeCompletes b) s) fun t =>
        RecordCloses s t (.branch b) ∧
        ((s.br b).causes ≠ [] → docksKept t ∧ (t.br b).dock = .isolated ∧ (t.br b).dockTimer = none ∧
          (t.br b).account = Account.zero ∧ (t.br b).causes = (s.br b).causes) ∧
        ((s.br b).causes = [] → (s.br b).hold = true ∨ s.params.seatSettle ≠ 0 →
          (t.br b).dock = dockByContacts (s.br b))) ∧
      ((s.br b).dock ≠ .held → exec (.seatSettleExpires b) s = .next s) ∧
      ((s.br b).dock ≠ .priming → exec (.primeTimeoutExpires b) s = .next s) ∧
      ((s.br b).dock ≠ .releasing → exec (.closeTimeExpires b) s = .next s) ∧
      ((s.br b).dock ≠ .draining → exec (.drainLimitExpires b) s = .next s) ∧
      ((s.br b).dock ≠ .isolating → exec (.closeCompletes b) s = .next s)

/-- A window close publishes every channel, then each block acts on the snapshot once, in the order given (model: logs
3, 4, 7, 25) -/
def Obligations.WindowClosePublishesTheSnapshot : Prop :=
  ∀ (s u : State) (order : List ClosePart) (left : Nat) (b : BranchNo),
    (s.meter.windowTimer = none → exec (.windowClose order) s = .next s) ∧
    (s.meter.windowTimer = some left → exec (.windowClose order) s =
      .next ((closeOrder order).foldl takePart (closeMeters (elapse left s)))) ∧
    (closeOrder order).isPerm ClosePart.all = true ∧
    (order.isPerm ClosePart.all = true → closeOrder order = order) ∧
    BranchBalanced u (takePart u .balance) b ∧ RailBalanced u (takePart u .balance) ∧
    (RingLaw u → LossesAdded u (takePart u .balance)) ∧ LocateEvaluated u (takePart u .locate) ∧
    TrimsUpdated u (takePart u .valves) ∧ DockChecked u (takePart u (.dock b)) b ∧
    TakeUpChecked u (takePart u .allocator) b ∧
    (s.meter.windowTimer = some left → Answers (exec (.windowClose order) s) fun t =>
      t.meter.snap.seq = s.meter.snap.seq + 1 ∧ t.meter.windowTimer = some s.params.windowLength ∧
      (∀ l, (t.line l).badCount = 0) ∧ t.alloc.round.seq = s.alloc.round.seq + 1 ∧
      t.alloc.effectiveBudget = s.alloc.pendingBudget ∧
      ∀ c, (t.snapChannel c).count = (s.channel c).acc ∧ (t.snapChannel c).qerr = (s.channel c).qerr ∧
        (t.snapChannel c).overrange = (s.channel c).overrange ∧ (t.channel c).acc = 0 ∧ (t.channel c).qerr = false ∧
        (t.channel c).overrange = false ∧ (t.snapChannel c).health = (t.channel c).health ∧
        (t.snapChannel c).rate =
          max (-32768) (min 32767 (((t.snapChannel c).volume * 6000).tdiv s.params.windowLength)) ∧
        (0 < (s.channel c).k →
          (s.channel c).acc * 1000 + (s.channel c).carry =
            (s.channel c).k * (t.snapChannel c).volume + (t.channel c).carry ∧
          (t.channel c).carry.natAbs < (s.channel c).k ∧
          0 ≤ (t.channel c).carry * ((s.channel c).acc * 1000 + (s.channel c).carry)))

/-- Three QERR windows degrade a channel, ten clean ones heal it, and only the entry into DEGRADED is told (model:
logs 3, 4, 8) -/
def Obligations.MeterHealthThresholds : Prop :=
  ∀ (s : State) (c : ChannelNo) (ch : MeterChannel) (order : List ClosePart) (left : Nat),
    let reaches := (s.channel c).health = .healthy ∧ (s.snapChannel c).qerr = true ∧ 2 ≤ (s.channel c).qerrRun
    let heals := (s.channel c).health = .degraded ∧ (s.snapChannel c).qerr = false ∧
      (s.snapChannel c).overrange = false ∧ 9 ≤ (s.channel c).cleanRun
    let becomes := fun (t : State) (x : Health) =>
      t.channel c = { s.channel c with health := x, qerrRun := 0, cleanRun := 0 } ∧
      t.snapChannel c = { s.snapChannel c with health := x } ∧
      (∀ d, d ≠ c → t.channel d = s.channel d ∧ t.snapChannel d = s.snapChannel d)
    (reaches → Answers (exec (.qerrRunReached c) s) fun t => becomes t .degraded ∧
      (∃ e ∈ (t.attnOf supLine).entries, e.cause = .sup .meterDegraded ∧ e.key = c.val) ∧
      t = { s with meter := t.meter, attn := t.attn }) ∧
    (¬reaches → exec (.qerrRunReached c) s = .next s) ∧
    (heals → Answers (exec (.cleanRunReached c) s) fun t => becomes t .healthy ∧ t = { s with meter := t.meter }) ∧
    (¬heals → exec (.cleanRunReached c) s = .next s) ∧
    (ch.health = .healthy → (ch.judge false true).health = .degraded ∧
      ((ch.judge true false).health = .degraded ↔ 2 ≤ ch.qerrRun)) ∧
    (s.meter.windowTimer = some left → Answers (exec (.windowClose order) s) fun t =>
      HealthJudged (s.channel c) (t.channel c) ∧ (t.snapChannel c).health = (t.channel c).health ∧
      (SupEntry t .meterDegraded c.val ↔ SupEntry s .meterDegraded c.val ∨
        (s.channel c).health = .healthy ∧ (t.channel c).health = .degraded))

/-- The prime-good, adoption and idle counts take a bay to ADMITTED or PRIMING (model: logs 4, 8) -/
def Obligations.DockCountsReachTheirThresholds : Prop :=
  ∀ (s : State) (b : BranchNo),
    let supply := s.snapChannel (supplyChannel b)
    let ret := s.snapChannel (returnChannel b)
    let admitted := fun (t : State) =>
      t.br b = { s.br b with
        dock := .admitted
        led := .off
        ledPhase := (t.br b).ledPhase
        dockTimer := none
        primeGood := 0
        idle := 0 } ∧
      ToldOwner s t b .admitted ∧ OthersKept s t b ∧ t = { s with branches := t.branches, attn := t.attn }
    ((s.br b).dock = .priming → supply.health = .healthy → ret.health = .healthy → 0 < supply.volume →
      (supply.volume * s.params.primeReturn).tdiv 1000 ≤ ret.volume → (s.br b).primeGood = 2 →
      Answers (exec (.primeGoodCountReached b) s) admitted) ∧
    ((s.br b).dock = .adopting → supply.health = .healthy → 0 < supply.volume → (s.br b).primeGood = 1 →
      Answers (exec (.adoptionGoodCountReached b) s) admitted) ∧
    ((s.br b).dock = .adopting → supply.health = .healthy → supply.volume = 0 → (s.br b).idle = 1 →
      Answers (exec (.idleCountReached b) s) fun t =>
        (t.br b).dock = .priming ∧ (t.br b).dockTimer = some (s.params.primeTimeout * 1000) ∧ (t.br b).primeGood = 0 ∧
        (t.br b).idle = 0 ∧ (t.br b).trim = 0 ∧ (t.br b).account = Account.zero ∧
        (t.br b).grant = min (s.br b).grant (min s.params.primeFlow (s.br b).cap) ∧
        (t.br b).commanded = (t.br b).duty ∧ (t.br b).causes = (s.br b).causes ∧ OthersKept s t b ∧
        t = { s with branches := t.branches }) ∧
    ((s.br b).dock ≠ .priming → exec (.primeGoodCountReached b) s = .next s) ∧
    ((s.br b).dock ≠ .adopting → exec (.adoptionGoodCountReached b) s = .next s ∧ exec (.idleCountReached b) s = .next s)

/-- A confirmed balance isolates its branch or closes the rail, a locate runs out ALARM_ONLY, and each leak cause has
its record (model: logs 8, 25) -/
def Obligations.LeakIsConfirmedAtTheCount : Prop :=
  ∀ (s u : State) (b : BranchNo) (c : BranchCause) (d : RailCause) (byContact : Bool),
    ((s.br b).dock ∈ [DockState.admitted, .adopting] → (s.snapChannel (supplyChannel b)).health = .healthy →
      (s.snapChannel (returnChannel b)).health = .healthy → (s.br b).causes = [] →
      s.params.tripThreshold ≤ (s.br b).account.integrator → s.params.confirmCount ≤ (s.br b).account.above + 1 →
      Answers (exec (.balanceConfirmed b) s) fun t =>
        (t.br b).causes = [.balance] ∧ (t.br b).dock = .isolating ∧ (t.br b).grant = 0 ∧ (t.br b).commanded = 0 ∧
        (t.br b).account.integrator = (s.br b).account.integrator ∧ (t.br b).account.state = .confirmed ∧
        ToldOwner s t b .isolated ∧ Recorded s t (.branch b) (.branch .balance) false ∧
        ∀ c, c ≠ b → (t.br c).dock = (s.br c).dock) ∧
    (s.rail.state = .opened → s.rail.causes = [] → railMetersHealthy s = true →
      s.params.railThreshold ≤ s.rail.account.integrator → s.params.confirmCount ≤ s.rail.account.above + 1 →
      Answers (exec .railBalanceConfirmed s) fun t =>
        t.rail.causes = [.railBalance] ∧ t.rail.state = .closing ∧ t.valves.railCommanded = 0 ∧ t.iso.tripOut = true ∧
        Recorded s t .rail (.rail .railBalance) false ∧
        ∀ c, (s.br c).dock ≠ .vacant → BranchCause.rail ∈ (t.br c).causes) ∧
    (s.drip.running = true → s.drip.windowsLeft ≤ 1 → s.rail.account.state = .clear →
      (∀ c, (s.br c).dock.participating = true → (s.br c).account.state = .clear) →
      exec .locateHoldExpires s = .next
        { s with drip := { s.drip with running := false, windowsLeft := 0, outcome := .alarmOnly } }) ∧
    takePart u .balance = handLosses (balanceRail (allBranches.foldl (fun x e => balanceBranch e x) u)) ∧
    BalanceHands u (balanceBranch b u) (balanceRail u) b ∧ LocateHands u (takePart u .locate) ∧
    (c ≠ .commanded → c ≠ .rail → c ∉ (u.br b).causes →
      Recorded u (addBranchCause b c byContact u) (.branch b) (.branch c) byContact) ∧
    (d = .railBalance ∨ d = .commonRail ∨ d = .tripLine → d ∉ u.rail.causes →
      Recorded u (addRailCause d u) .rail (.rail d) false)

/-- At the take-up threshold a branch gets a restricted cap: its supply rate rounded up to q, within floor and cap
(model: logs 4, 8) -/
def Obligations.TakeUpRestrictsTheDemand : Prop :=
  ∀ (s : State) (b : BranchNo) (m : Nat),
    let rate := (s.snapChannel (supplyChannel b)).rate
    ((s.br b).dock ≠ .admitted → exec (.takeUpWindowsReached b) s = .next s) ∧
    ((s.br b).dock = .admitted → (s.snapChannel (supplyChannel b)).health = .healthy → (s.br b).commanded = 1000 →
      rate < ((s.br b).grant * s.params.takeUpShare / 1000 : Nat) → s.params.takeUpWindows ≤ (s.br b).takeUp + 1 →
      0 < s.params.quantum → rate ≤ m * s.params.quantum → (∀ n : Nat, rate ≤ n * s.params.quantum → m ≤ n) →
      let v := min (s.br b).cap (max (s.br b).floor (m * s.params.quantum))
      Answers (exec (.takeUpWindowsReached b) s) fun t =>
        t.br b = { s.br b with restricted := some v, takeUp := 0 } ∧ OthersKept s t b ∧
        ((s.br b).restricted = some v → t.attn = s.attn) ∧
        ((s.br b).restricted ≠ some v → ToldOwner s t b .restricted ∧
          ∃ e ∈ (t.attnOf supLine).entries, e.cause = .sup .restricted ∧ e.key = b.val) ∧
        t = { s with branches := t.branches, attn := t.attn })

/-- Budget Hold makes the budget STALE and Fallback Time makes it fall back (model: logs 3, 4) -/
def Obligations.BudgetAgeReachesItsThresholds : Prop :=
  ∀ (s : State),
    let counts := s.loader.loading = false ∧ s.alloc.suspended = false
    let after := fun (left : Nat) (alloc : Allocator) (t : State) =>
      (∀ b, t.br b = { s.br b with
        dockTimer := (s.br b).dockTimer.map (· - left)
        ledPhase := (s.br b).ledPhase + left }) ∧
      t = { s with
        branches := t.branches
        rail := { s.rail with timer := s.rail.timer.map (· - left) }
        meter := { s.meter with windowTimer := s.meter.windowTimer.map (· - left) }
        alloc := alloc
        valves := { s.valves with periodTimer := s.valves.periodTimer - left }
        attn := t.attn }
    (counts → s.alloc.ageState = .fresh → Answers (exec .budgetHoldExpires s) fun t =>
      let left := s.params.budgetHold * 1000 - s.alloc.age
      isPending (t.attnOf plantLine) (.plant .budgetStale) = true ∧
      isPending (t.attnOf supLine) (.sup .budgetStale) = true ∧
      (∀ l, l ≠ plantLine → l ≠ supLine → t.attnOf l = s.attnOf l) ∧
      (∀ l c, c ≠ .plant .budgetStale → c ≠ .sup .budgetStale →
        detailList (t.attnOf l) c = detailList (s.attnOf l) c) ∧
      (s.params.budgetHold < s.params.fallbackTime →
        after left { s.alloc with age := s.alloc.age + left, ageState := .stale } t) ∧
      (s.params.fallbackTime ≤ s.params.budgetHold → after left { s.alloc with
        age := s.alloc.age + left
        ageState := .fallenBack
        pendingBudget := s.params.fallbackBudget } t)) ∧
    (counts → s.alloc.ageState = .stale → Answers (exec .fallbackTimeExpires s) fun t =>
      let left := s.params.fallbackTime * 1000 - s.alloc.age
      t.attn = s.attn ∧ after left { s.alloc with
        age := s.alloc.age + left
        ageState := .fallenBack
        pendingBudget := s.params.fallbackBudget } t) ∧
    (¬counts ∨ s.alloc.ageState ≠ .fresh → exec .budgetHoldExpires s = .next s) ∧
    (¬counts ∨ s.alloc.ageState ≠ .stale → exec .fallbackTimeExpires s = .next s)

/-- At a period start every enabled channel takes its commanded duty as its applied duty, and its output shows it
(model: log 3) -/
def Obligations.PeriodStartAppliesTheDuties : Prop :=
  ∀ (s : State),
    Answers (exec .periodStart s) fun t =>
      (∀ b, t.br b = { s.br b with
        applied := if (s.br b).enable = true then (s.br b).commanded else (s.br b).applied
        dockTimer := (t.br b).dockTimer
        ledPhase := (t.br b).ledPhase }) ∧
      t.valves = { s.valves with
        railApplied := if s.valves.railEnable = true then s.valves.railCommanded else s.valves.railApplied
        bypassApplied := if s.valves.bypassEnable = true then s.valves.bypassCommanded else s.valves.bypassApplied
        polarity := s.valves.polarityNext
        periodTimer := 20 } ∧
      t = { s with
        branches := t.branches
        rail := { s.rail with timer := t.rail.timer }
        meter := { s.meter with windowTimer := t.meter.windowTimer }
        alloc := { s.alloc with age := t.alloc.age }
        valves := t.valves } ∧
    (∀ b : BranchNo, ValveShows s ⟨b.val, by omega⟩ (s.br b).enable (s.br b).applied) ∧
    ValveShows s 12 s.valves.railEnable s.valves.railApplied ∧
    ValveShows s 13 s.valves.bypassEnable (1000 - s.valves.bypassApplied)

/-- A trip clears the enables 0 to 12 at once and closes the rail; its negation changes the level alone (model: logs
4, 9) -/
def Obligations.TripTakesTheDrivesAway : Prop :=
  ∀ (s : State),
    (s.iso.tripAsserted = false → Answers (exec .tripInAsserted s) fun t =>
      t.iso.tripAsserted = true ∧ t.pins = { s.pins with trip := true } ∧ (∀ b, (t.br b).enable = false ∧ ((s.br b).enable = true → (t.br b).applied = 0)) ∧
      t.valves.railEnable = false ∧ (s.valves.railEnable = true → t.valves.railApplied = 0) ∧
      t.valves.bypassEnable = s.valves.bypassEnable ∧ t.valves.bypassApplied = s.valves.bypassApplied ∧
      isPending (t.attnOf supLine) (.sup .tripLine) = true ∧
      (s.loader.loading = false ∨ s.loader.afterPowerOn = false →
        .tripLine ∈ t.rail.causes ∧ t.rail.state =
          (if .tripLine ∈ s.rail.causes then s.rail.state else railAfterCause s.rail.state) ∧
        (.tripLine ∉ s.rail.causes → Recorded s t .rail (.rail .tripLine) false)) ∧
      (s.loader.loading = true → s.loader.afterPowerOn = true → t.rail = s.rail)) ∧
    (s.iso.tripAsserted = true → exec .tripInAsserted s = .next s ∧ exec .tripInNegated s = .next
      { s with iso := { s.iso with tripAsserted := false, tripCandidate := 0 }, pins := { s.pins with trip := false } }) ∧
    (s.iso.tripAsserted = false → exec .tripInNegated s = .next s)

/-- The rail timer takes CLOSING to CLOSED, on to OPENING with an empty set, and OPENING to OPEN without RAIL (model:
logs 3, 4) -/
def Obligations.RailTimersMoveTheRail : Prop :=
  ∀ (s : State) (left : Nat),
    s.rail.timer = some left →
      (s.rail.state = .closing → Answers (exec .railCloseTimeExpires s) fun t =>
        t.rail.account = Account.zero ∧ t.rail.causes = s.rail.causes ∧
        isPending (t.attnOf plantLine) (.plant .railClosed) = true ∧
        RecordCloses s t .rail ∧
        (s.rail.causes ≠ [] → t.rail.state = .closed ∧ t.rail.timer = none) ∧
        (s.rail.causes = [] → t.rail.state = .opening ∧ t.valves.railCommanded = 1000) ∧
        ∀ b, (t.br b).dock = (s.br b).dock ∧ (t.br b).causes = (s.br b).causes) ∧
      (s.rail.state = .opening → Answers (exec .railOpenTimeExpires s) fun t =>
        (s.params.wetAction ≠ .rail ∨ (∀ b, ¬VacatesOverWetTray s b) →
          t.rail.state = .opened ∧ t.rail.timer = none) ∧
        (t.rail.state = .opened → ∀ b, (t.br b).causes = (s.br b).causes.filter (· ≠ .rail) ∧
          ((s.br b).dock ≠ .isolated ∨ (∃ c ∈ (s.br b).causes, c ≠ .rail) →
            (t.br b).dock = (s.br b).dock ∨ (s.br b).dock = .held) ∧
          ((s.br b).dock = .isolated → (s.br b).causes = [.rail] → (s.br b).hold = true ∨ s.params.seatSettle ≠ 0 →
            (t.br b).dock = dockByContacts (s.br b)))) ∧
      (s.rail.state ≠ .closing → exec .railCloseTimeExpires s = .next s) ∧
      (s.rail.state ≠ .opening → exec .railOpenTimeExpires s = .next s)

/-- A strip change enters the delta set and acts as its role and Common Wet Action give (model: logs 4, 9) -/
def Obligations.StripChangesReachTheirOwners : Prop :=
  ∀ (s : State) (n : StripNo) (level : StripState),
    Answers (exec (.stripStateChange n level) s) fun t =>
      (t.strip n).state = level ∧ (t.strip n).candidate = none ∧ (t.strip n).count = 0 ∧
      (∀ m, m ≠ n → t.strip m = s.strip m) ∧
      ((s.strip n).state = level → (t.strip n).changed = (s.strip n).changed ∧
        t = { s with drip := { s.drip with strips := t.drip.strips }, pins := t.pins }) ∧
      ((s.strip n).state ≠ level → (t.strip n).changed = true ∧
        isPending (t.attnOf supLine) (.sup .stripChange) = true ∧
        (s.loader.loading = true → t = { s with
          drip := { s.drip with strips := t.drip.strips }
          attn := t.attn
          pins := t.pins }) ∧
        (s.loader.loading = false → level = .wet →
          (∀ b, n = trayStrip b → (s.br b).dock ≠ .vacant →
            BranchCause.trayWet ∈ (t.br b).causes ∧ (BranchCause.trayWet ∉ (s.br b).causes →
              (t.br b).dock = isolatedFrom (s.br b).dock ∧ Recorded s t (.branch b) (.branch .trayWet) false)) ∧
          (CommonRole s n → isPending (t.attnOf supLine) (.sup .commonWet) = true ∧ AdmissionsFrozen t ∧
            (s.params.wetAction = .alarm → t.rail = s.rail ∧ t.drip.running = s.drip.running) ∧
            (s.params.wetAction = .locate → t.drip.running = true ∧ t.drip.windowsLeft = s.params.locateHold ∧
              t.drip.locateStrip = some n) ∧
            (s.params.wetAction = .rail → .commonRail ∈ t.rail.causes ∧ (TripOutLaw s → t.iso.tripOut = true) ∧
              (.commonRail ∉ s.rail.causes → Recorded s t .rail (.rail .commonRail) false)))) ∧
        (s.loader.loading = false → level ≠ .wet →
          t = { s with
            branches := t.branches
            drip := { s.drip with strips := t.drip.strips }
            attn := t.attn
            pins := t.pins } ∧
          (∀ b, (s.strip n).state = .wet ∧ ¬AdmissionsFrozen t ∧ (s.br b).dock = .held ∧ (s.br b).clearance = true ∧
            s.rail.state = .opened ∧ (s.br b).causes = [] → EntersPriming s t b) ∧
          (∀ b, ¬((s.strip n).state = .wet ∧ ¬AdmissionsFrozen t ∧ (s.br b).dock = .held ∧ (s.br b).clearance = true ∧
            s.rail.state = .opened ∧ (s.br b).causes = []) → t.br b = s.br b)))

/-- A sample in which both inputs changed leaves the accumulator and sets QERR; a forward edge adds 1, a reverse edge
takes 1 -/
def Obligations.InvalidTransitionSetsQerr : Prop :=
  ∀ (s : State) (a b : BitVec 26),
    Answers (exec (.pickupSample a b) s) fun t =>
      (∀ c, let new := (a.getLsbD c.val, b.getLsbD c.val)
        ((s.channel c).last = none → t.channel c = s.channel c) ∧
        ∀ last, (s.channel c).last = some last →
          (t.channel c).last = some new ∧
          (last = new → t.channel c = s.channel c) ∧
          (last.1 ≠ new.1 → last.2 ≠ new.2 → t.channel c = { s.channel c with qerr := true, last := some new }) ∧
          (∀ p ∈ [((false, false), (true, false)), ((true, false), (true, true)), ((true, true), (false, true)),
              ((false, true), (false, false))],
            ((last, new) = p → t.channel c =
              if (s.channel c).acc = 32767 then { s.channel c with overrange := true, last := some new }
              else { s.channel c with acc := (s.channel c).acc + 1, last := some new }) ∧
            ((new, last) = p → t.channel c =
              if (s.channel c).acc = -32767 then { s.channel c with overrange := true, last := some new }
              else { s.channel c with acc := (s.channel c).acc - 1, last := some new })) ∧
          (-32767 ≤ (s.channel c).acc → (s.channel c).acc ≤ 32767 →
            -32767 ≤ (t.channel c).acc ∧ (t.channel c).acc ≤ 32767)) ∧
      (∀ ch : MeterChannel, ch.health = .healthy →
        (ch.qerrRun = 0 → (ch.judge true false).health = .healthy) ∧
        (ch.qerrRun = 2 → (ch.judge true false).health = .degraded)) ∧
      t = { s with meter := { s.meter with channels := t.meter.channels }, pins := { s.pins with pickA := a, pickB := b } }
end

