-- ==== Sys2Proof/Laws/State.lean ====
section
/-! SUPPORT. One lemma for every field and every accessor under each update of the state, so that no proof unfolds a record
update. -/

namespace Sys2Proof.Machine

open Sys2Proof

/-! ## Fields -/

@[simp] theorem State.updBranch_branches (s : State) (b : BranchNo) (f : Branch → Branch) :
    (s.updBranch b f).branches = Vec.put s.branches b (f (s.br b)) := rfl
@[simp] theorem State.updBranch_rail (s : State) (b : BranchNo) (f : Branch → Branch) :
    (s.updBranch b f).rail = s.rail := rfl
@[simp] theorem State.updBranch_meter (s : State) (b : BranchNo) (f : Branch → Branch) :
    (s.updBranch b f).meter = s.meter := rfl
@[simp] theorem State.updBranch_alloc (s : State) (b : BranchNo) (f : Branch → Branch) :
    (s.updBranch b f).alloc = s.alloc := rfl
@[simp] theorem State.updBranch_valves (s : State) (b : BranchNo) (f : Branch → Branch) :
    (s.updBranch b f).valves = s.valves := rfl
@[simp] theorem State.updBranch_drip (s : State) (b : BranchNo) (f : Branch → Branch) :
    (s.updBranch b f).drip = s.drip := rfl
@[simp] theorem State.updBranch_iso (s : State) (b : BranchNo) (f : Branch → Branch) :
    (s.updBranch b f).iso = s.iso := rfl
@[simp] theorem State.updBranch_ring (s : State) (b : BranchNo) (f : Branch → Branch) :
    (s.updBranch b f).ring = s.ring := rfl
@[simp] theorem State.updBranch_lines (s : State) (b : BranchNo) (f : Branch → Branch) :
    (s.updBranch b f).lines = s.lines := rfl
@[simp] theorem State.updBranch_windows (s : State) (b : BranchNo) (f : Branch → Branch) :
    (s.updBranch b f).windows = s.windows := rfl
@[simp] theorem State.updBranch_attn (s : State) (b : BranchNo) (f : Branch → Branch) :
    (s.updBranch b f).attn = s.attn := rfl
@[simp] theorem State.updBranch_loader (s : State) (b : BranchNo) (f : Branch → Branch) :
    (s.updBranch b f).loader = s.loader := rfl
@[simp] theorem State.updBranch_params (s : State) (b : BranchNo) (f : Branch → Branch) :
    (s.updBranch b f).params = s.params := rfl
@[simp] theorem State.updBranch_eeprom (s : State) (b : BranchNo) (f : Branch → Branch) :
    (s.updBranch b f).eeprom = s.eeprom := rfl
@[simp] theorem State.updBranch_pins (s : State) (b : BranchNo) (f : Branch → Branch) :
    (s.updBranch b f).pins = s.pins := rfl
@[simp] theorem State.updBranch_sampleTimer (s : State) (b : BranchNo) (f : Branch → Branch) :
    (s.updBranch b f).sampleTimer = s.sampleTimer := rfl
@[simp] theorem State.updBranch_freeCount (s : State) (b : BranchNo) (f : Branch → Branch) :
    (s.updBranch b f).freeCount = s.freeCount := rfl
@[simp] theorem State.updBranch_pending (s : State) (b : BranchNo) (f : Branch → Branch) :
    (s.updBranch b f).pending = s.pending := rfl
@[simp] theorem State.mapBranches_branches (s : State) (f : Branch → Branch) :
    (s.mapBranches f).branches = Vec.map f s.branches := rfl
@[simp] theorem State.mapBranches_rail (s : State) (f : Branch → Branch) :
    (s.mapBranches f).rail = s.rail := rfl
@[simp] theorem State.mapBranches_meter (s : State) (f : Branch → Branch) :
    (s.mapBranches f).meter = s.meter := rfl
@[simp] theorem State.mapBranches_alloc (s : State) (f : Branch → Branch) :
    (s.mapBranches f).alloc = s.alloc := rfl
@[simp] theorem State.mapBranches_valves (s : State) (f : Branch → Branch) :
    (s.mapBranches f).valves = s.valves := rfl
@[simp] theorem State.mapBranches_drip (s : State) (f : Branch → Branch) :
    (s.mapBranches f).drip = s.drip := rfl
@[simp] theorem State.mapBranches_iso (s : State) (f : Branch → Branch) :
    (s.mapBranches f).iso = s.iso := rfl
@[simp] theorem State.mapBranches_ring (s : State) (f : Branch → Branch) :
    (s.mapBranches f).ring = s.ring := rfl
@[simp] theorem State.mapBranches_lines (s : State) (f : Branch → Branch) :
    (s.mapBranches f).lines = s.lines := rfl
@[simp] theorem State.mapBranches_windows (s : State) (f : Branch → Branch) :
    (s.mapBranches f).windows = s.windows := rfl
@[simp] theorem State.mapBranches_attn (s : State) (f : Branch → Branch) :
    (s.mapBranches f).attn = s.attn := rfl
@[simp] theorem State.mapBranches_loader (s : State) (f : Branch → Branch) :
    (s.mapBranches f).loader = s.loader := rfl
@[simp] theorem State.mapBranches_params (s : State) (f : Branch → Branch) :
    (s.mapBranches f).params = s.params := rfl
@[simp] theorem State.mapBranches_eeprom (s : State) (f : Branch → Branch) :
    (s.mapBranches f).eeprom = s.eeprom := rfl
@[simp] theorem State.mapBranches_pins (s : State) (f : Branch → Branch) :
    (s.mapBranches f).pins = s.pins := rfl
@[simp] theorem State.mapBranches_sampleTimer (s : State) (f : Branch → Branch) :
    (s.mapBranches f).sampleTimer = s.sampleTimer := rfl
@[simp] theorem State.mapBranches_freeCount (s : State) (f : Branch → Branch) :
    (s.mapBranches f).freeCount = s.freeCount := rfl
@[simp] theorem State.mapBranches_pending (s : State) (f : Branch → Branch) :
    (s.mapBranches f).pending = s.pending := rfl
@[simp] theorem State.updRail_branches (s : State) (f : Rail → Rail) :
    (s.updRail f).branches = s.branches := rfl
@[simp] theorem State.updRail_rail (s : State) (f : Rail → Rail) :
    (s.updRail f).rail = f s.rail := rfl
@[simp] theorem State.updRail_meter (s : State) (f : Rail → Rail) :
    (s.updRail f).meter = s.meter := rfl
@[simp] theorem State.updRail_alloc (s : State) (f : Rail → Rail) :
    (s.updRail f).alloc = s.alloc := rfl
@[simp] theorem State.updRail_valves (s : State) (f : Rail → Rail) :
    (s.updRail f).valves = s.valves := rfl
@[simp] theorem State.updRail_drip (s : State) (f : Rail → Rail) :
    (s.updRail f).drip = s.drip := rfl
@[simp] theorem State.updRail_iso (s : State) (f : Rail → Rail) :
    (s.updRail f).iso = s.iso := rfl
@[simp] theorem State.updRail_ring (s : State) (f : Rail → Rail) :
    (s.updRail f).ring = s.ring := rfl
@[simp] theorem State.updRail_lines (s : State) (f : Rail → Rail) :
    (s.updRail f).lines = s.lines := rfl
@[simp] theorem State.updRail_windows (s : State) (f : Rail → Rail) :
    (s.updRail f).windows = s.windows := rfl
@[simp] theorem State.updRail_attn (s : State) (f : Rail → Rail) :
    (s.updRail f).attn = s.attn := rfl
@[simp] theorem State.updRail_loader (s : State) (f : Rail → Rail) :
    (s.updRail f).loader = s.loader := rfl
@[simp] theorem State.updRail_params (s : State) (f : Rail → Rail) :
    (s.updRail f).params = s.params := rfl
@[simp] theorem State.updRail_eeprom (s : State) (f : Rail → Rail) :
    (s.updRail f).eeprom = s.eeprom := rfl
@[simp] theorem State.updRail_pins (s : State) (f : Rail → Rail) :
    (s.updRail f).pins = s.pins := rfl
@[simp] theorem State.updRail_sampleTimer (s : State) (f : Rail → Rail) :
    (s.updRail f).sampleTimer = s.sampleTimer := rfl
@[simp] theorem State.updRail_freeCount (s : State) (f : Rail → Rail) :
    (s.updRail f).freeCount = s.freeCount := rfl
@[simp] theorem State.updRail_pending (s : State) (f : Rail → Rail) :
    (s.updRail f).pending = s.pending := rfl
@[simp] theorem State.updMeter_branches (s : State) (f : MeterUnit → MeterUnit) :
    (s.updMeter f).branches = s.branches := rfl
@[simp] theorem State.updMeter_rail (s : State) (f : MeterUnit → MeterUnit) :
    (s.updMeter f).rail = s.rail := rfl
@[simp] theorem State.updMeter_meter (s : State) (f : MeterUnit → MeterUnit) :
    (s.updMeter f).meter = f s.meter := rfl
@[simp] theorem State.updMeter_alloc (s : State) (f : MeterUnit → MeterUnit) :
    (s.updMeter f).alloc = s.alloc := rfl
@[simp] theorem State.updMeter_valves (s : State) (f : MeterUnit → MeterUnit) :
    (s.updMeter f).valves = s.valves := rfl
@[simp] theorem State.updMeter_drip (s : State) (f : MeterUnit → MeterUnit) :
    (s.updMeter f).drip = s.drip := rfl
@[simp] theorem State.updMeter_iso (s : State) (f : MeterUnit → MeterUnit) :
    (s.updMeter f).iso = s.iso := rfl
@[simp] theorem State.updMeter_ring (s : State) (f : MeterUnit → MeterUnit) :
    (s.updMeter f).ring = s.ring := rfl
@[simp] theorem State.updMeter_lines (s : State) (f : MeterUnit → MeterUnit) :
    (s.updMeter f).lines = s.lines := rfl
@[simp] theorem State.updMeter_windows (s : State) (f : MeterUnit → MeterUnit) :
    (s.updMeter f).windows = s.windows := rfl
@[simp] theorem State.updMeter_attn (s : State) (f : MeterUnit → MeterUnit) :
    (s.updMeter f).attn = s.attn := rfl
@[simp] theorem State.updMeter_loader (s : State) (f : MeterUnit → MeterUnit) :
    (s.updMeter f).loader = s.loader := rfl
@[simp] theorem State.updMeter_params (s : State) (f : MeterUnit → MeterUnit) :
    (s.updMeter f).params = s.params := rfl
@[simp] theorem State.updMeter_eeprom (s : State) (f : MeterUnit → MeterUnit) :
    (s.updMeter f).eeprom = s.eeprom := rfl
@[simp] theorem State.updMeter_pins (s : State) (f : MeterUnit → MeterUnit) :
    (s.updMeter f).pins = s.pins := rfl
@[simp] theorem State.updMeter_sampleTimer (s : State) (f : MeterUnit → MeterUnit) :
    (s.updMeter f).sampleTimer = s.sampleTimer := rfl
@[simp] theorem State.updMeter_freeCount (s : State) (f : MeterUnit → MeterUnit) :
    (s.updMeter f).freeCount = s.freeCount := rfl
@[simp] theorem State.updMeter_pending (s : State) (f : MeterUnit → MeterUnit) :
    (s.updMeter f).pending = s.pending := rfl
@[simp] theorem State.updAlloc_branches (s : State) (f : Allocator → Allocator) :
    (s.updAlloc f).branches = s.branches := rfl
@[simp] theorem State.updAlloc_rail (s : State) (f : Allocator → Allocator) :
    (s.updAlloc f).rail = s.rail := rfl
@[simp] theorem State.updAlloc_meter (s : State) (f : Allocator → Allocator) :
    (s.updAlloc f).meter = s.meter := rfl
@[simp] theorem State.updAlloc_alloc (s : State) (f : Allocator → Allocator) :
    (s.updAlloc f).alloc = f s.alloc := rfl
@[simp] theorem State.updAlloc_valves (s : State) (f : Allocator → Allocator) :
    (s.updAlloc f).valves = s.valves := rfl
@[simp] theorem State.updAlloc_drip (s : State) (f : Allocator → Allocator) :
    (s.updAlloc f).drip = s.drip := rfl
@[simp] theorem State.updAlloc_iso (s : State) (f : Allocator → Allocator) :
    (s.updAlloc f).iso = s.iso := rfl
@[simp] theorem State.updAlloc_ring (s : State) (f : Allocator → Allocator) :
    (s.updAlloc f).ring = s.ring := rfl
@[simp] theorem State.updAlloc_lines (s : State) (f : Allocator → Allocator) :
    (s.updAlloc f).lines = s.lines := rfl
@[simp] theorem State.updAlloc_windows (s : State) (f : Allocator → Allocator) :
    (s.updAlloc f).windows = s.windows := rfl
@[simp] theorem State.updAlloc_attn (s : State) (f : Allocator → Allocator) :
    (s.updAlloc f).attn = s.attn := rfl
@[simp] theorem State.updAlloc_loader (s : State) (f : Allocator → Allocator) :
    (s.updAlloc f).loader = s.loader := rfl
@[simp] theorem State.updAlloc_params (s : State) (f : Allocator → Allocator) :
    (s.updAlloc f).params = s.params := rfl
@[simp] theorem State.updAlloc_eeprom (s : State) (f : Allocator → Allocator) :
    (s.updAlloc f).eeprom = s.eeprom := rfl
@[simp] theorem State.updAlloc_pins (s : State) (f : Allocator → Allocator) :
    (s.updAlloc f).pins = s.pins := rfl
@[simp] theorem State.updAlloc_sampleTimer (s : State) (f : Allocator → Allocator) :
    (s.updAlloc f).sampleTimer = s.sampleTimer := rfl
@[simp] theorem State.updAlloc_freeCount (s : State) (f : Allocator → Allocator) :
    (s.updAlloc f).freeCount = s.freeCount := rfl
@[simp] theorem State.updAlloc_pending (s : State) (f : Allocator → Allocator) :
    (s.updAlloc f).pending = s.pending := rfl
@[simp] theorem State.updValves_branches (s : State) (f : ValveUnit → ValveUnit) :
    (s.updValves f).branches = s.branches := rfl
@[simp] theorem State.updValves_rail (s : State) (f : ValveUnit → ValveUnit) :
    (s.updValves f).rail = s.rail := rfl
@[simp] theorem State.updValves_meter (s : State) (f : ValveUnit → ValveUnit) :
    (s.updValves f).meter = s.meter := rfl
@[simp] theorem State.updValves_alloc (s : State) (f : ValveUnit → ValveUnit) :
    (s.updValves f).alloc = s.alloc := rfl
@[simp] theorem State.updValves_valves (s : State) (f : ValveUnit → ValveUnit) :
    (s.updValves f).valves = f s.valves := rfl
@[simp] theorem State.updValves_drip (s : State) (f : ValveUnit → ValveUnit) :
    (s.updValves f).drip = s.drip := rfl
@[simp] theorem State.updValves_iso (s : State) (f : ValveUnit → ValveUnit) :
    (s.updValves f).iso = s.iso := rfl
@[simp] theorem State.updValves_ring (s : State) (f : ValveUnit → ValveUnit) :
    (s.updValves f).ring = s.ring := rfl
@[simp] theorem State.updValves_lines (s : State) (f : ValveUnit → ValveUnit) :
    (s.updValves f).lines = s.lines := rfl
@[simp] theorem State.updValves_windows (s : State) (f : ValveUnit → ValveUnit) :
    (s.updValves f).windows = s.windows := rfl
@[simp] theorem State.updValves_attn (s : State) (f : ValveUnit → ValveUnit) :
    (s.updValves f).attn = s.attn := rfl
@[simp] theorem State.updValves_loader (s : State) (f : ValveUnit → ValveUnit) :
    (s.updValves f).loader = s.loader := rfl
@[simp] theorem State.updValves_params (s : State) (f : ValveUnit → ValveUnit) :
    (s.updValves f).params = s.params := rfl
@[simp] theorem State.updValves_eeprom (s : State) (f : ValveUnit → ValveUnit) :
    (s.updValves f).eeprom = s.eeprom := rfl
@[simp] theorem State.updValves_pins (s : State) (f : ValveUnit → ValveUnit) :
    (s.updValves f).pins = s.pins := rfl
@[simp] theorem State.updValves_sampleTimer (s : State) (f : ValveUnit → ValveUnit) :
    (s.updValves f).sampleTimer = s.sampleTimer := rfl
@[simp] theorem State.updValves_freeCount (s : State) (f : ValveUnit → ValveUnit) :
    (s.updValves f).freeCount = s.freeCount := rfl
@[simp] theorem State.updValves_pending (s : State) (f : ValveUnit → ValveUnit) :
    (s.updValves f).pending = s.pending := rfl
@[simp] theorem State.updDrip_branches (s : State) (f : DripUnit → DripUnit) :
    (s.updDrip f).branches = s.branches := rfl
@[simp] theorem State.updDrip_rail (s : State) (f : DripUnit → DripUnit) :
    (s.updDrip f).rail = s.rail := rfl
@[simp] theorem State.updDrip_meter (s : State) (f : DripUnit → DripUnit) :
    (s.updDrip f).meter = s.meter := rfl
@[simp] theorem State.updDrip_alloc (s : State) (f : DripUnit → DripUnit) :
    (s.updDrip f).alloc = s.alloc := rfl
@[simp] theorem State.updDrip_valves (s : State) (f : DripUnit → DripUnit) :
    (s.updDrip f).valves = s.valves := rfl
@[simp] theorem State.updDrip_drip (s : State) (f : DripUnit → DripUnit) :
    (s.updDrip f).drip = f s.drip := rfl
@[simp] theorem State.updDrip_iso (s : State) (f : DripUnit → DripUnit) :
    (s.updDrip f).iso = s.iso := rfl
@[simp] theorem State.updDrip_ring (s : State) (f : DripUnit → DripUnit) :
    (s.updDrip f).ring = s.ring := rfl
@[simp] theorem State.updDrip_lines (s : State) (f : DripUnit → DripUnit) :
    (s.updDrip f).lines = s.lines := rfl
@[simp] theorem State.updDrip_windows (s : State) (f : DripUnit → DripUnit) :
    (s.updDrip f).windows = s.windows := rfl
@[simp] theorem State.updDrip_attn (s : State) (f : DripUnit → DripUnit) :
    (s.updDrip f).attn = s.attn := rfl
@[simp] theorem State.updDrip_loader (s : State) (f : DripUnit → DripUnit) :
    (s.updDrip f).loader = s.loader := rfl
@[simp] theorem State.updDrip_params (s : State) (f : DripUnit → DripUnit) :
    (s.updDrip f).params = s.params := rfl
@[simp] theorem State.updDrip_eeprom (s : State) (f : DripUnit → DripUnit) :
    (s.updDrip f).eeprom = s.eeprom := rfl
@[simp] theorem State.updDrip_pins (s : State) (f : DripUnit → DripUnit) :
    (s.updDrip f).pins = s.pins := rfl
@[simp] theorem State.updDrip_sampleTimer (s : State) (f : DripUnit → DripUnit) :
    (s.updDrip f).sampleTimer = s.sampleTimer := rfl
@[simp] theorem State.updDrip_freeCount (s : State) (f : DripUnit → DripUnit) :
    (s.updDrip f).freeCount = s.freeCount := rfl
@[simp] theorem State.updDrip_pending (s : State) (f : DripUnit → DripUnit) :
    (s.updDrip f).pending = s.pending := rfl
@[simp] theorem State.updIso_branches (s : State) (f : IsoUnit → IsoUnit) :
    (s.updIso f).branches = s.branches := rfl
@[simp] theorem State.updIso_rail (s : State) (f : IsoUnit → IsoUnit) :
    (s.updIso f).rail = s.rail := rfl
@[simp] theorem State.updIso_meter (s : State) (f : IsoUnit → IsoUnit) :
    (s.updIso f).meter = s.meter := rfl
@[simp] theorem State.updIso_alloc (s : State) (f : IsoUnit → IsoUnit) :
    (s.updIso f).alloc = s.alloc := rfl
@[simp] theorem State.updIso_valves (s : State) (f : IsoUnit → IsoUnit) :
    (s.updIso f).valves = s.valves := rfl
@[simp] theorem State.updIso_drip (s : State) (f : IsoUnit → IsoUnit) :
    (s.updIso f).drip = s.drip := rfl
@[simp] theorem State.updIso_iso (s : State) (f : IsoUnit → IsoUnit) :
    (s.updIso f).iso = f s.iso := rfl
@[simp] theorem State.updIso_ring (s : State) (f : IsoUnit → IsoUnit) :
    (s.updIso f).ring = s.ring := rfl
@[simp] theorem State.updIso_lines (s : State) (f : IsoUnit → IsoUnit) :
    (s.updIso f).lines = s.lines := rfl
@[simp] theorem State.updIso_windows (s : State) (f : IsoUnit → IsoUnit) :
    (s.updIso f).windows = s.windows := rfl
@[simp] theorem State.updIso_attn (s : State) (f : IsoUnit → IsoUnit) :
    (s.updIso f).attn = s.attn := rfl
@[simp] theorem State.updIso_loader (s : State) (f : IsoUnit → IsoUnit) :
    (s.updIso f).loader = s.loader := rfl
@[simp] theorem State.updIso_params (s : State) (f : IsoUnit → IsoUnit) :
    (s.updIso f).params = s.params := rfl
@[simp] theorem State.updIso_eeprom (s : State) (f : IsoUnit → IsoUnit) :
    (s.updIso f).eeprom = s.eeprom := rfl
@[simp] theorem State.updIso_pins (s : State) (f : IsoUnit → IsoUnit) :
    (s.updIso f).pins = s.pins := rfl
@[simp] theorem State.updIso_sampleTimer (s : State) (f : IsoUnit → IsoUnit) :
    (s.updIso f).sampleTimer = s.sampleTimer := rfl
@[simp] theorem State.updIso_freeCount (s : State) (f : IsoUnit → IsoUnit) :
    (s.updIso f).freeCount = s.freeCount := rfl
@[simp] theorem State.updIso_pending (s : State) (f : IsoUnit → IsoUnit) :
    (s.updIso f).pending = s.pending := rfl
@[simp] theorem State.updRing_branches (s : State) (f : Ring → Ring) :
    (s.updRing f).branches = s.branches := rfl
@[simp] theorem State.updRing_rail (s : State) (f : Ring → Ring) :
    (s.updRing f).rail = s.rail := rfl
@[simp] theorem State.updRing_meter (s : State) (f : Ring → Ring) :
    (s.updRing f).meter = s.meter := rfl
@[simp] theorem State.updRing_alloc (s : State) (f : Ring → Ring) :
    (s.updRing f).alloc = s.alloc := rfl
@[simp] theorem State.updRing_valves (s : State) (f : Ring → Ring) :
    (s.updRing f).valves = s.valves := rfl
@[simp] theorem State.updRing_drip (s : State) (f : Ring → Ring) :
    (s.updRing f).drip = s.drip := rfl
@[simp] theorem State.updRing_iso (s : State) (f : Ring → Ring) :
    (s.updRing f).iso = s.iso := rfl
@[simp] theorem State.updRing_ring (s : State) (f : Ring → Ring) :
    (s.updRing f).ring = f s.ring := rfl
@[simp] theorem State.updRing_lines (s : State) (f : Ring → Ring) :
    (s.updRing f).lines = s.lines := rfl
@[simp] theorem State.updRing_windows (s : State) (f : Ring → Ring) :
    (s.updRing f).windows = s.windows := rfl
@[simp] theorem State.updRing_attn (s : State) (f : Ring → Ring) :
    (s.updRing f).attn = s.attn := rfl
@[simp] theorem State.updRing_loader (s : State) (f : Ring → Ring) :
    (s.updRing f).loader = s.loader := rfl
@[simp] theorem State.updRing_params (s : State) (f : Ring → Ring) :
    (s.updRing f).params = s.params := rfl
@[simp] theorem State.updRing_eeprom (s : State) (f : Ring → Ring) :
    (s.updRing f).eeprom = s.eeprom := rfl
@[simp] theorem State.updRing_pins (s : State) (f : Ring → Ring) :
    (s.updRing f).pins = s.pins := rfl
@[simp] theorem State.updRing_sampleTimer (s : State) (f : Ring → Ring) :
    (s.updRing f).sampleTimer = s.sampleTimer := rfl
@[simp] theorem State.updRing_freeCount (s : State) (f : Ring → Ring) :
    (s.updRing f).freeCount = s.freeCount := rfl
@[simp] theorem State.updRing_pending (s : State) (f : Ring → Ring) :
    (s.updRing f).pending = s.pending := rfl
@[simp] theorem State.updLoader_branches (s : State) (f : Loader → Loader) :
    (s.updLoader f).branches = s.branches := rfl
@[simp] theorem State.updLoader_rail (s : State) (f : Loader → Loader) :
    (s.updLoader f).rail = s.rail := rfl
@[simp] theorem State.updLoader_meter (s : State) (f : Loader → Loader) :
    (s.updLoader f).meter = s.meter := rfl
@[simp] theorem State.updLoader_alloc (s : State) (f : Loader → Loader) :
    (s.updLoader f).alloc = s.alloc := rfl
@[simp] theorem State.updLoader_valves (s : State) (f : Loader → Loader) :
    (s.updLoader f).valves = s.valves := rfl
@[simp] theorem State.updLoader_drip (s : State) (f : Loader → Loader) :
    (s.updLoader f).drip = s.drip := rfl
@[simp] theorem State.updLoader_iso (s : State) (f : Loader → Loader) :
    (s.updLoader f).iso = s.iso := rfl
@[simp] theorem State.updLoader_ring (s : State) (f : Loader → Loader) :
    (s.updLoader f).ring = s.ring := rfl
@[simp] theorem State.updLoader_lines (s : State) (f : Loader → Loader) :
    (s.updLoader f).lines = s.lines := rfl
@[simp] theorem State.updLoader_windows (s : State) (f : Loader → Loader) :
    (s.updLoader f).windows = s.windows := rfl
@[simp] theorem State.updLoader_attn (s : State) (f : Loader → Loader) :
    (s.updLoader f).attn = s.attn := rfl
@[simp] theorem State.updLoader_loader (s : State) (f : Loader → Loader) :
    (s.updLoader f).loader = f s.loader := rfl
@[simp] theorem State.updLoader_params (s : State) (f : Loader → Loader) :
    (s.updLoader f).params = s.params := rfl
@[simp] theorem State.updLoader_eeprom (s : State) (f : Loader → Loader) :
    (s.updLoader f).eeprom = s.eeprom := rfl
@[simp] theorem State.updLoader_pins (s : State) (f : Loader → Loader) :
    (s.updLoader f).pins = s.pins := rfl
@[simp] theorem State.updLoader_sampleTimer (s : State) (f : Loader → Loader) :
    (s.updLoader f).sampleTimer = s.sampleTimer := rfl
@[simp] theorem State.updLoader_freeCount (s : State) (f : Loader → Loader) :
    (s.updLoader f).freeCount = s.freeCount := rfl
@[simp] theorem State.updLoader_pending (s : State) (f : Loader → Loader) :
    (s.updLoader f).pending = s.pending := rfl
@[simp] theorem State.updPins_branches (s : State) (f : Pins → Pins) :
    (s.updPins f).branches = s.branches := rfl
@[simp] theorem State.updPins_rail (s : State) (f : Pins → Pins) :
    (s.updPins f).rail = s.rail := rfl
@[simp] theorem State.updPins_meter (s : State) (f : Pins → Pins) :
    (s.updPins f).meter = s.meter := rfl
@[simp] theorem State.updPins_alloc (s : State) (f : Pins → Pins) :
    (s.updPins f).alloc = s.alloc := rfl
@[simp] theorem State.updPins_valves (s : State) (f : Pins → Pins) :
    (s.updPins f).valves = s.valves := rfl
@[simp] theorem State.updPins_drip (s : State) (f : Pins → Pins) :
    (s.updPins f).drip = s.drip := rfl
@[simp] theorem State.updPins_iso (s : State) (f : Pins → Pins) :
    (s.updPins f).iso = s.iso := rfl
@[simp] theorem State.updPins_ring (s : State) (f : Pins → Pins) :
    (s.updPins f).ring = s.ring := rfl
@[simp] theorem State.updPins_lines (s : State) (f : Pins → Pins) :
    (s.updPins f).lines = s.lines := rfl
@[simp] theorem State.updPins_windows (s : State) (f : Pins → Pins) :
    (s.updPins f).windows = s.windows := rfl
@[simp] theorem State.updPins_attn (s : State) (f : Pins → Pins) :
    (s.updPins f).attn = s.attn := rfl
@[simp] theorem State.updPins_loader (s : State) (f : Pins → Pins) :
    (s.updPins f).loader = s.loader := rfl
@[simp] theorem State.updPins_params (s : State) (f : Pins → Pins) :
    (s.updPins f).params = s.params := rfl
@[simp] theorem State.updPins_eeprom (s : State) (f : Pins → Pins) :
    (s.updPins f).eeprom = s.eeprom := rfl
@[simp] theorem State.updPins_pins (s : State) (f : Pins → Pins) :
    (s.updPins f).pins = f s.pins := rfl
@[simp] theorem State.updPins_sampleTimer (s : State) (f : Pins → Pins) :
    (s.updPins f).sampleTimer = s.sampleTimer := rfl
@[simp] theorem State.updPins_freeCount (s : State) (f : Pins → Pins) :
    (s.updPins f).freeCount = s.freeCount := rfl
@[simp] theorem State.updPins_pending (s : State) (f : Pins → Pins) :
    (s.updPins f).pending = s.pending := rfl
@[simp] theorem State.updLine_branches (s : State) (l : LineNo) (f : Line → Line) :
    (s.updLine l f).branches = s.branches := rfl
@[simp] theorem State.updLine_rail (s : State) (l : LineNo) (f : Line → Line) :
    (s.updLine l f).rail = s.rail := rfl
@[simp] theorem State.updLine_meter (s : State) (l : LineNo) (f : Line → Line) :
    (s.updLine l f).meter = s.meter := rfl
@[simp] theorem State.updLine_alloc (s : State) (l : LineNo) (f : Line → Line) :
    (s.updLine l f).alloc = s.alloc := rfl
@[simp] theorem State.updLine_valves (s : State) (l : LineNo) (f : Line → Line) :
    (s.updLine l f).valves = s.valves := rfl
@[simp] theorem State.updLine_drip (s : State) (l : LineNo) (f : Line → Line) :
    (s.updLine l f).drip = s.drip := rfl
@[simp] theorem State.updLine_iso (s : State) (l : LineNo) (f : Line → Line) :
    (s.updLine l f).iso = s.iso := rfl
@[simp] theorem State.updLine_ring (s : State) (l : LineNo) (f : Line → Line) :
    (s.updLine l f).ring = s.ring := rfl
@[simp] theorem State.updLine_lines (s : State) (l : LineNo) (f : Line → Line) :
    (s.updLine l f).lines = Vec.put s.lines l (f (s.line l)) := rfl
@[simp] theorem State.updLine_windows (s : State) (l : LineNo) (f : Line → Line) :
    (s.updLine l f).windows = s.windows := rfl
@[simp] theorem State.updLine_attn (s : State) (l : LineNo) (f : Line → Line) :
    (s.updLine l f).attn = s.attn := rfl
@[simp] theorem State.updLine_loader (s : State) (l : LineNo) (f : Line → Line) :
    (s.updLine l f).loader = s.loader := rfl
@[simp] theorem State.updLine_params (s : State) (l : LineNo) (f : Line → Line) :
    (s.updLine l f).params = s.params := rfl
@[simp] theorem State.updLine_eeprom (s : State) (l : LineNo) (f : Line → Line) :
    (s.updLine l f).eeprom = s.eeprom := rfl
@[simp] theorem State.updLine_pins (s : State) (l : LineNo) (f : Line → Line) :
    (s.updLine l f).pins = s.pins := rfl
@[simp] theorem State.updLine_sampleTimer (s : State) (l : LineNo) (f : Line → Line) :
    (s.updLine l f).sampleTimer = s.sampleTimer := rfl
@[simp] theorem State.updLine_freeCount (s : State) (l : LineNo) (f : Line → Line) :
    (s.updLine l f).freeCount = s.freeCount := rfl
@[simp] theorem State.updLine_pending (s : State) (l : LineNo) (f : Line → Line) :
    (s.updLine l f).pending = s.pending := rfl
@[simp] theorem State.setWindow_branches (s : State) (n : BranchNo) (w : Window) :
    (s.setWindow n w).branches = s.branches := rfl
@[simp] theorem State.setWindow_rail (s : State) (n : BranchNo) (w : Window) :
    (s.setWindow n w).rail = s.rail := rfl
@[simp] theorem State.setWindow_meter (s : State) (n : BranchNo) (w : Window) :
    (s.setWindow n w).meter = s.meter := rfl
@[simp] theorem State.setWindow_alloc (s : State) (n : BranchNo) (w : Window) :
    (s.setWindow n w).alloc = s.alloc := rfl
@[simp] theorem State.setWindow_valves (s : State) (n : BranchNo) (w : Window) :
    (s.setWindow n w).valves = s.valves := rfl
@[simp] theorem State.setWindow_drip (s : State) (n : BranchNo) (w : Window) :
    (s.setWindow n w).drip = s.drip := rfl
@[simp] theorem State.setWindow_iso (s : State) (n : BranchNo) (w : Window) :
    (s.setWindow n w).iso = s.iso := rfl
@[simp] theorem State.setWindow_ring (s : State) (n : BranchNo) (w : Window) :
    (s.setWindow n w).ring = s.ring := rfl
@[simp] theorem State.setWindow_lines (s : State) (n : BranchNo) (w : Window) :
    (s.setWindow n w).lines = s.lines := rfl
@[simp] theorem State.setWindow_windows (s : State) (n : BranchNo) (w : Window) :
    (s.setWindow n w).windows = Vec.put s.windows n w := rfl
@[simp] theorem State.setWindow_attn (s : State) (n : BranchNo) (w : Window) :
    (s.setWindow n w).attn = s.attn := rfl
@[simp] theorem State.setWindow_loader (s : State) (n : BranchNo) (w : Window) :
    (s.setWindow n w).loader = s.loader := rfl
@[simp] theorem State.setWindow_params (s : State) (n : BranchNo) (w : Window) :
    (s.setWindow n w).params = s.params := rfl
@[simp] theorem State.setWindow_eeprom (s : State) (n : BranchNo) (w : Window) :
    (s.setWindow n w).eeprom = s.eeprom := rfl
@[simp] theorem State.setWindow_pins (s : State) (n : BranchNo) (w : Window) :
    (s.setWindow n w).pins = s.pins := rfl
@[simp] theorem State.setWindow_sampleTimer (s : State) (n : BranchNo) (w : Window) :
    (s.setWindow n w).sampleTimer = s.sampleTimer := rfl
@[simp] theorem State.setWindow_freeCount (s : State) (n : BranchNo) (w : Window) :
    (s.setWindow n w).freeCount = s.freeCount := rfl
@[simp] theorem State.setWindow_pending (s : State) (n : BranchNo) (w : Window) :
    (s.setWindow n w).pending = s.pending := rfl
@[simp] theorem State.updAttn_branches (s : State) (l : LineNo) (f : AttnLine → AttnLine) :
    (s.updAttn l f).branches = s.branches := rfl
@[simp] theorem State.updAttn_rail (s : State) (l : LineNo) (f : AttnLine → AttnLine) :
    (s.updAttn l f).rail = s.rail := rfl
@[simp] theorem State.updAttn_meter (s : State) (l : LineNo) (f : AttnLine → AttnLine) :
    (s.updAttn l f).meter = s.meter := rfl
@[simp] theorem State.updAttn_alloc (s : State) (l : LineNo) (f : AttnLine → AttnLine) :
    (s.updAttn l f).alloc = s.alloc := rfl
@[simp] theorem State.updAttn_valves (s : State) (l : LineNo) (f : AttnLine → AttnLine) :
    (s.updAttn l f).valves = s.valves := rfl
@[simp] theorem State.updAttn_drip (s : State) (l : LineNo) (f : AttnLine → AttnLine) :
    (s.updAttn l f).drip = s.drip := rfl
@[simp] theorem State.updAttn_iso (s : State) (l : LineNo) (f : AttnLine → AttnLine) :
    (s.updAttn l f).iso = s.iso := rfl
@[simp] theorem State.updAttn_ring (s : State) (l : LineNo) (f : AttnLine → AttnLine) :
    (s.updAttn l f).ring = s.ring := rfl
@[simp] theorem State.updAttn_lines (s : State) (l : LineNo) (f : AttnLine → AttnLine) :
    (s.updAttn l f).lines = s.lines := rfl
@[simp] theorem State.updAttn_windows (s : State) (l : LineNo) (f : AttnLine → AttnLine) :
    (s.updAttn l f).windows = s.windows := rfl
@[simp] theorem State.updAttn_attn (s : State) (l : LineNo) (f : AttnLine → AttnLine) :
    (s.updAttn l f).attn = Vec.put s.attn l (f (s.attnOf l)) := rfl
@[simp] theorem State.updAttn_loader (s : State) (l : LineNo) (f : AttnLine → AttnLine) :
    (s.updAttn l f).loader = s.loader := rfl
@[simp] theorem State.updAttn_params (s : State) (l : LineNo) (f : AttnLine → AttnLine) :
    (s.updAttn l f).params = s.params := rfl
@[simp] theorem State.updAttn_eeprom (s : State) (l : LineNo) (f : AttnLine → AttnLine) :
    (s.updAttn l f).eeprom = s.eeprom := rfl
@[simp] theorem State.updAttn_pins (s : State) (l : LineNo) (f : AttnLine → AttnLine) :
    (s.updAttn l f).pins = s.pins := rfl
@[simp] theorem State.updAttn_sampleTimer (s : State) (l : LineNo) (f : AttnLine → AttnLine) :
    (s.updAttn l f).sampleTimer = s.sampleTimer := rfl
@[simp] theorem State.updAttn_freeCount (s : State) (l : LineNo) (f : AttnLine → AttnLine) :
    (s.updAttn l f).freeCount = s.freeCount := rfl
@[simp] theorem State.updAttn_pending (s : State) (l : LineNo) (f : AttnLine → AttnLine) :
    (s.updAttn l f).pending = s.pending := rfl
@[simp] theorem State.updSlot_branches (s : State) (k : SlotNo) (f : Slot → Slot) :
    (s.updSlot k f).branches = s.branches := rfl
@[simp] theorem State.updSlot_rail (s : State) (k : SlotNo) (f : Slot → Slot) :
    (s.updSlot k f).rail = s.rail := rfl
@[simp] theorem State.updSlot_meter (s : State) (k : SlotNo) (f : Slot → Slot) :
    (s.updSlot k f).meter = s.meter := rfl
@[simp] theorem State.updSlot_alloc (s : State) (k : SlotNo) (f : Slot → Slot) :
    (s.updSlot k f).alloc = s.alloc := rfl
@[simp] theorem State.updSlot_valves (s : State) (k : SlotNo) (f : Slot → Slot) :
    (s.updSlot k f).valves = s.valves := rfl
@[simp] theorem State.updSlot_drip (s : State) (k : SlotNo) (f : Slot → Slot) :
    (s.updSlot k f).drip = s.drip := rfl
@[simp] theorem State.updSlot_iso (s : State) (k : SlotNo) (f : Slot → Slot) :
    (s.updSlot k f).iso = s.iso := rfl
@[simp] theorem State.updSlot_ring (s : State) (k : SlotNo) (f : Slot → Slot) :
    (s.updSlot k f).ring = { s.ring with slots := Vec.put s.ring.slots k (f (s.slot k)) } := rfl
@[simp] theorem State.updSlot_lines (s : State) (k : SlotNo) (f : Slot → Slot) :
    (s.updSlot k f).lines = s.lines := rfl
@[simp] theorem State.updSlot_windows (s : State) (k : SlotNo) (f : Slot → Slot) :
    (s.updSlot k f).windows = s.windows := rfl
@[simp] theorem State.updSlot_attn (s : State) (k : SlotNo) (f : Slot → Slot) :
    (s.updSlot k f).attn = s.attn := rfl
@[simp] theorem State.updSlot_loader (s : State) (k : SlotNo) (f : Slot → Slot) :
    (s.updSlot k f).loader = s.loader := rfl
@[simp] theorem State.updSlot_params (s : State) (k : SlotNo) (f : Slot → Slot) :
    (s.updSlot k f).params = s.params := rfl
@[simp] theorem State.updSlot_eeprom (s : State) (k : SlotNo) (f : Slot → Slot) :
    (s.updSlot k f).eeprom = s.eeprom := rfl
@[simp] theorem State.updSlot_pins (s : State) (k : SlotNo) (f : Slot → Slot) :
    (s.updSlot k f).pins = s.pins := rfl
@[simp] theorem State.updSlot_sampleTimer (s : State) (k : SlotNo) (f : Slot → Slot) :
    (s.updSlot k f).sampleTimer = s.sampleTimer := rfl
@[simp] theorem State.updSlot_freeCount (s : State) (k : SlotNo) (f : Slot → Slot) :
    (s.updSlot k f).freeCount = s.freeCount := rfl
@[simp] theorem State.updSlot_pending (s : State) (k : SlotNo) (f : Slot → Slot) :
    (s.updSlot k f).pending = s.pending := rfl
@[simp] theorem State.updStrip_branches (s : State) (n : StripNo) (f : Strip → Strip) :
    (s.updStrip n f).branches = s.branches := rfl
@[simp] theorem State.updStrip_rail (s : State) (n : StripNo) (f : Strip → Strip) :
    (s.updStrip n f).rail = s.rail := rfl
@[simp] theorem State.updStrip_meter (s : State) (n : StripNo) (f : Strip → Strip) :
    (s.updStrip n f).meter = s.meter := rfl
@[simp] theorem State.updStrip_alloc (s : State) (n : StripNo) (f : Strip → Strip) :
    (s.updStrip n f).alloc = s.alloc := rfl
@[simp] theorem State.updStrip_valves (s : State) (n : StripNo) (f : Strip → Strip) :
    (s.updStrip n f).valves = s.valves := rfl
@[simp] theorem State.updStrip_drip (s : State) (n : StripNo) (f : Strip → Strip) :
    (s.updStrip n f).drip = { s.drip with strips := Vec.put s.drip.strips n (f (s.strip n)) } := rfl
@[simp] theorem State.updStrip_iso (s : State) (n : StripNo) (f : Strip → Strip) :
    (s.updStrip n f).iso = s.iso := rfl
@[simp] theorem State.updStrip_ring (s : State) (n : StripNo) (f : Strip → Strip) :
    (s.updStrip n f).ring = s.ring := rfl
@[simp] theorem State.updStrip_lines (s : State) (n : StripNo) (f : Strip → Strip) :
    (s.updStrip n f).lines = s.lines := rfl
@[simp] theorem State.updStrip_windows (s : State) (n : StripNo) (f : Strip → Strip) :
    (s.updStrip n f).windows = s.windows := rfl
@[simp] theorem State.updStrip_attn (s : State) (n : StripNo) (f : Strip → Strip) :
    (s.updStrip n f).attn = s.attn := rfl
@[simp] theorem State.updStrip_loader (s : State) (n : StripNo) (f : Strip → Strip) :
    (s.updStrip n f).loader = s.loader := rfl
@[simp] theorem State.updStrip_params (s : State) (n : StripNo) (f : Strip → Strip) :
    (s.updStrip n f).params = s.params := rfl
@[simp] theorem State.updStrip_eeprom (s : State) (n : StripNo) (f : Strip → Strip) :
    (s.updStrip n f).eeprom = s.eeprom := rfl
@[simp] theorem State.updStrip_pins (s : State) (n : StripNo) (f : Strip → Strip) :
    (s.updStrip n f).pins = s.pins := rfl
@[simp] theorem State.updStrip_sampleTimer (s : State) (n : StripNo) (f : Strip → Strip) :
    (s.updStrip n f).sampleTimer = s.sampleTimer := rfl
@[simp] theorem State.updStrip_freeCount (s : State) (n : StripNo) (f : Strip → Strip) :
    (s.updStrip n f).freeCount = s.freeCount := rfl
@[simp] theorem State.updStrip_pending (s : State) (n : StripNo) (f : Strip → Strip) :
    (s.updStrip n f).pending = s.pending := rfl
@[simp] theorem State.updChannel_branches (s : State) (c : ChannelNo) (f : MeterChannel → MeterChannel) :
    (s.updChannel c f).branches = s.branches := rfl
@[simp] theorem State.updChannel_rail (s : State) (c : ChannelNo) (f : MeterChannel → MeterChannel) :
    (s.updChannel c f).rail = s.rail := rfl
@[simp] theorem State.updChannel_meter (s : State) (c : ChannelNo) (f : MeterChannel → MeterChannel) :
    (s.updChannel c f).meter = { s.meter with channels := Vec.put s.meter.channels c (f (s.channel c)) } := rfl
@[simp] theorem State.updChannel_alloc (s : State) (c : ChannelNo) (f : MeterChannel → MeterChannel) :
    (s.updChannel c f).alloc = s.alloc := rfl
@[simp] theorem State.updChannel_valves (s : State) (c : ChannelNo) (f : MeterChannel → MeterChannel) :
    (s.updChannel c f).valves = s.valves := rfl
@[simp] theorem State.updChannel_drip (s : State) (c : ChannelNo) (f : MeterChannel → MeterChannel) :
    (s.updChannel c f).drip = s.drip := rfl
@[simp] theorem State.updChannel_iso (s : State) (c : ChannelNo) (f : MeterChannel → MeterChannel) :
    (s.updChannel c f).iso = s.iso := rfl
@[simp] theorem State.updChannel_ring (s : State) (c : ChannelNo) (f : MeterChannel → MeterChannel) :
    (s.updChannel c f).ring = s.ring := rfl
@[simp] theorem State.updChannel_lines (s : State) (c : ChannelNo) (f : MeterChannel → MeterChannel) :
    (s.updChannel c f).lines = s.lines := rfl
@[simp] theorem State.updChannel_windows (s : State) (c : ChannelNo) (f : MeterChannel → MeterChannel) :
    (s.updChannel c f).windows = s.windows := rfl
@[simp] theorem State.updChannel_attn (s : State) (c : ChannelNo) (f : MeterChannel → MeterChannel) :
    (s.updChannel c f).attn = s.attn := rfl
@[simp] theorem State.updChannel_loader (s : State) (c : ChannelNo) (f : MeterChannel → MeterChannel) :
    (s.updChannel c f).loader = s.loader := rfl
@[simp] theorem State.updChannel_params (s : State) (c : ChannelNo) (f : MeterChannel → MeterChannel) :
    (s.updChannel c f).params = s.params := rfl
@[simp] theorem State.updChannel_eeprom (s : State) (c : ChannelNo) (f : MeterChannel → MeterChannel) :
    (s.updChannel c f).eeprom = s.eeprom := rfl
@[simp] theorem State.updChannel_pins (s : State) (c : ChannelNo) (f : MeterChannel → MeterChannel) :
    (s.updChannel c f).pins = s.pins := rfl
@[simp] theorem State.updChannel_sampleTimer (s : State) (c : ChannelNo) (f : MeterChannel → MeterChannel) :
    (s.updChannel c f).sampleTimer = s.sampleTimer := rfl
@[simp] theorem State.updChannel_freeCount (s : State) (c : ChannelNo) (f : MeterChannel → MeterChannel) :
    (s.updChannel c f).freeCount = s.freeCount := rfl
@[simp] theorem State.updChannel_pending (s : State) (c : ChannelNo) (f : MeterChannel → MeterChannel) :
    (s.updChannel c f).pending = s.pending := rfl
@[simp] theorem State.storeHalf_branches (s : State) (k : Fin 4) (h : Fin 2) (f : Nat → Byte) :
    (s.storeHalf k h f).branches = s.branches := by simp only [State.storeHalf]
@[simp] theorem State.storeHalf_rail (s : State) (k : Fin 4) (h : Fin 2) (f : Nat → Byte) :
    (s.storeHalf k h f).rail = s.rail := by simp only [State.storeHalf]
@[simp] theorem State.storeHalf_meter (s : State) (k : Fin 4) (h : Fin 2) (f : Nat → Byte) :
    (s.storeHalf k h f).meter = s.meter := by simp only [State.storeHalf]
@[simp] theorem State.storeHalf_alloc (s : State) (k : Fin 4) (h : Fin 2) (f : Nat → Byte) :
    (s.storeHalf k h f).alloc = s.alloc := by simp only [State.storeHalf]
@[simp] theorem State.storeHalf_valves (s : State) (k : Fin 4) (h : Fin 2) (f : Nat → Byte) :
    (s.storeHalf k h f).valves = s.valves := by simp only [State.storeHalf]
@[simp] theorem State.storeHalf_drip (s : State) (k : Fin 4) (h : Fin 2) (f : Nat → Byte) :
    (s.storeHalf k h f).drip = s.drip := by simp only [State.storeHalf]
@[simp] theorem State.storeHalf_iso (s : State) (k : Fin 4) (h : Fin 2) (f : Nat → Byte) :
    (s.storeHalf k h f).iso = s.iso := by simp only [State.storeHalf]
@[simp] theorem State.storeHalf_ring (s : State) (k : Fin 4) (h : Fin 2) (f : Nat → Byte) :
    (s.storeHalf k h f).ring = s.ring := by simp only [State.storeHalf]
@[simp] theorem State.storeHalf_lines (s : State) (k : Fin 4) (h : Fin 2) (f : Nat → Byte) :
    (s.storeHalf k h f).lines = s.lines := by simp only [State.storeHalf]
@[simp] theorem State.storeHalf_windows (s : State) (k : Fin 4) (h : Fin 2) (f : Nat → Byte) :
    (s.storeHalf k h f).windows = s.windows := by simp only [State.storeHalf]
@[simp] theorem State.storeHalf_attn (s : State) (k : Fin 4) (h : Fin 2) (f : Nat → Byte) :
    (s.storeHalf k h f).attn = s.attn := by simp only [State.storeHalf]
@[simp] theorem State.storeHalf_loader (s : State) (k : Fin 4) (h : Fin 2) (f : Nat → Byte) :
    (s.storeHalf k h f).loader = s.loader := by simp only [State.storeHalf]
@[simp] theorem State.storeHalf_params (s : State) (k : Fin 4) (h : Fin 2) (f : Nat → Byte) :
    (s.storeHalf k h f).params = s.params := by simp only [State.storeHalf]
@[simp] theorem State.storeHalf_eeprom (s : State) (k : Fin 4) (h : Fin 2) (f : Nat → Byte) :
    (s.storeHalf k h f).eeprom = Memory.writeAll s.eeprom (halfAddress k h) ((List.range 32).map f) := by simp only [State.storeHalf]
@[simp] theorem State.storeHalf_pins (s : State) (k : Fin 4) (h : Fin 2) (f : Nat → Byte) :
    (s.storeHalf k h f).pins = s.pins := by simp only [State.storeHalf]
@[simp] theorem State.storeHalf_sampleTimer (s : State) (k : Fin 4) (h : Fin 2) (f : Nat → Byte) :
    (s.storeHalf k h f).sampleTimer = s.sampleTimer := by simp only [State.storeHalf]
@[simp] theorem State.storeHalf_freeCount (s : State) (k : Fin 4) (h : Fin 2) (f : Nat → Byte) :
    (s.storeHalf k h f).freeCount = s.freeCount := by simp only [State.storeHalf]
@[simp] theorem State.storeHalf_pending (s : State) (k : Fin 4) (h : Fin 2) (f : Nat → Byte) :
    (s.storeHalf k h f).pending = s.pending := by simp only [State.storeHalf]

/-! ## Accessors of the tables an update leaves alone -/

@[simp] theorem State.updBranch_line (s : State) (b : BranchNo) (f : Branch → Branch) (i : LineNo) :
    (s.updBranch b f).line i = s.line i := rfl
@[simp] theorem State.updBranch_window (s : State) (b : BranchNo) (f : Branch → Branch) (i : BranchNo) :
    (s.updBranch b f).window i = s.window i := rfl
@[simp] theorem State.updBranch_attnOf (s : State) (b : BranchNo) (f : Branch → Branch) (i : LineNo) :
    (s.updBranch b f).attnOf i = s.attnOf i := rfl
@[simp] theorem State.updBranch_slot (s : State) (b : BranchNo) (f : Branch → Branch) (i : SlotNo) :
    (s.updBranch b f).slot i = s.slot i := rfl
@[simp] theorem State.updBranch_strip (s : State) (b : BranchNo) (f : Branch → Branch) (i : StripNo) :
    (s.updBranch b f).strip i = s.strip i := rfl
@[simp] theorem State.updBranch_channel (s : State) (b : BranchNo) (f : Branch → Branch) (i : ChannelNo) :
    (s.updBranch b f).channel i = s.channel i := rfl
@[simp] theorem State.updBranch_snapChannel (s : State) (b : BranchNo) (f : Branch → Branch) (i : ChannelNo) :
    (s.updBranch b f).snapChannel i = s.snapChannel i := rfl
@[simp] theorem State.mapBranches_line (s : State) (f : Branch → Branch) (i : LineNo) :
    (s.mapBranches f).line i = s.line i := rfl
@[simp] theorem State.mapBranches_window (s : State) (f : Branch → Branch) (i : BranchNo) :
    (s.mapBranches f).window i = s.window i := rfl
@[simp] theorem State.mapBranches_attnOf (s : State) (f : Branch → Branch) (i : LineNo) :
    (s.mapBranches f).attnOf i = s.attnOf i := rfl
@[simp] theorem State.mapBranches_slot (s : State) (f : Branch → Branch) (i : SlotNo) :
    (s.mapBranches f).slot i = s.slot i := rfl
@[simp] theorem State.mapBranches_strip (s : State) (f : Branch → Branch) (i : StripNo) :
    (s.mapBranches f).strip i = s.strip i := rfl
@[simp] theorem State.mapBranches_channel (s : State) (f : Branch → Branch) (i : ChannelNo) :
    (s.mapBranches f).channel i = s.channel i := rfl
@[simp] theorem State.mapBranches_snapChannel (s : State) (f : Branch → Branch) (i : ChannelNo) :
    (s.mapBranches f).snapChannel i = s.snapChannel i := rfl
@[simp] theorem State.updRail_br (s : State) (f : Rail → Rail) (i : BranchNo) :
    (s.updRail f).br i = s.br i := rfl
@[simp] theorem State.updRail_line (s : State) (f : Rail → Rail) (i : LineNo) :
    (s.updRail f).line i = s.line i := rfl
@[simp] theorem State.updRail_window (s : State) (f : Rail → Rail) (i : BranchNo) :
    (s.updRail f).window i = s.window i := rfl
@[simp] theorem State.updRail_attnOf (s : State) (f : Rail → Rail) (i : LineNo) :
    (s.updRail f).attnOf i = s.attnOf i := rfl
@[simp] theorem State.updRail_slot (s : State) (f : Rail → Rail) (i : SlotNo) :
    (s.updRail f).slot i = s.slot i := rfl
@[simp] theorem State.updRail_strip (s : State) (f : Rail → Rail) (i : StripNo) :
    (s.updRail f).strip i = s.strip i := rfl
@[simp] theorem State.updRail_channel (s : State) (f : Rail → Rail) (i : ChannelNo) :
    (s.updRail f).channel i = s.channel i := rfl
@[simp] theorem State.updRail_snapChannel (s : State) (f : Rail → Rail) (i : ChannelNo) :
    (s.updRail f).snapChannel i = s.snapChannel i := rfl
@[simp] theorem State.updMeter_br (s : State) (f : MeterUnit → MeterUnit) (i : BranchNo) :
    (s.updMeter f).br i = s.br i := rfl
@[simp] theorem State.updMeter_line (s : State) (f : MeterUnit → MeterUnit) (i : LineNo) :
    (s.updMeter f).line i = s.line i := rfl
@[simp] theorem State.updMeter_window (s : State) (f : MeterUnit → MeterUnit) (i : BranchNo) :
    (s.updMeter f).window i = s.window i := rfl
@[simp] theorem State.updMeter_attnOf (s : State) (f : MeterUnit → MeterUnit) (i : LineNo) :
    (s.updMeter f).attnOf i = s.attnOf i := rfl
@[simp] theorem State.updMeter_slot (s : State) (f : MeterUnit → MeterUnit) (i : SlotNo) :
    (s.updMeter f).slot i = s.slot i := rfl
@[simp] theorem State.updMeter_strip (s : State) (f : MeterUnit → MeterUnit) (i : StripNo) :
    (s.updMeter f).strip i = s.strip i := rfl
@[simp] theorem State.updAlloc_br (s : State) (f : Allocator → Allocator) (i : BranchNo) :
    (s.updAlloc f).br i = s.br i := rfl
@[simp] theorem State.updAlloc_line (s : State) (f : Allocator → Allocator) (i : LineNo) :
    (s.updAlloc f).line i = s.line i := rfl
@[simp] theorem State.updAlloc_window (s : State) (f : Allocator → Allocator) (i : BranchNo) :
    (s.updAlloc f).window i = s.window i := rfl
@[simp] theorem State.updAlloc_attnOf (s : State) (f : Allocator → Allocator) (i : LineNo) :
    (s.updAlloc f).attnOf i = s.attnOf i := rfl
@[simp] theorem State.updAlloc_slot (s : State) (f : Allocator → Allocator) (i : SlotNo) :
    (s.updAlloc f).slot i = s.slot i := rfl
@[simp] theorem State.updAlloc_strip (s : State) (f : Allocator → Allocator) (i : StripNo) :
    (s.updAlloc f).strip i = s.strip i := rfl
@[simp] theorem State.updAlloc_channel (s : State) (f : Allocator → Allocator) (i : ChannelNo) :
    (s.updAlloc f).channel i = s.channel i := rfl
@[simp] theorem State.updAlloc_snapChannel (s : State) (f : Allocator → Allocator) (i : ChannelNo) :
    (s.updAlloc f).snapChannel i = s.snapChannel i := rfl
@[simp] theorem State.updValves_br (s : State) (f : ValveUnit → ValveUnit) (i : BranchNo) :
    (s.updValves f).br i = s.br i := rfl
@[simp] theorem State.updValves_line (s : State) (f : ValveUnit → ValveUnit) (i : LineNo) :
    (s.updValves f).line i = s.line i := rfl
@[simp] theorem State.updValves_window (s : State) (f : ValveUnit → ValveUnit) (i : BranchNo) :
    (s.updValves f).window i = s.window i := rfl
@[simp] theorem State.updValves_attnOf (s : State) (f : ValveUnit → ValveUnit) (i : LineNo) :
    (s.updValves f).attnOf i = s.attnOf i := rfl
@[simp] theorem State.updValves_slot (s : State) (f : ValveUnit → ValveUnit) (i : SlotNo) :
    (s.updValves f).slot i = s.slot i := rfl
@[simp] theorem State.updValves_strip (s : State) (f : ValveUnit → ValveUnit) (i : StripNo) :
    (s.updValves f).strip i = s.strip i := rfl
@[simp] theorem State.updValves_channel (s : State) (f : ValveUnit → ValveUnit) (i : ChannelNo) :
    (s.updValves f).channel i = s.channel i := rfl
@[simp] theorem State.updValves_snapChannel (s : State) (f : ValveUnit → ValveUnit) (i : ChannelNo) :
    (s.updValves f).snapChannel i = s.snapChannel i := rfl
@[simp] theorem State.updDrip_br (s : State) (f : DripUnit → DripUnit) (i : BranchNo) :
    (s.updDrip f).br i = s.br i := rfl
@[simp] theorem State.updDrip_line (s : State) (f : DripUnit → DripUnit) (i : LineNo) :
    (s.updDrip f).line i = s.line i := rfl
@[simp] theorem State.updDrip_window (s : State) (f : DripUnit → DripUnit) (i : BranchNo) :
    (s.updDrip f).window i = s.window i := rfl
@[simp] theorem State.updDrip_attnOf (s : State) (f : DripUnit → DripUnit) (i : LineNo) :
    (s.updDrip f).attnOf i = s.attnOf i := rfl
@[simp] theorem State.updDrip_slot (s : State) (f : DripUnit → DripUnit) (i : SlotNo) :
    (s.updDrip f).slot i = s.slot i := rfl
@[simp] theorem State.updDrip_channel (s : State) (f : DripUnit → DripUnit) (i : ChannelNo) :
    (s.updDrip f).channel i = s.channel i := rfl
@[simp] theorem State.updDrip_snapChannel (s : State) (f : DripUnit → DripUnit) (i : ChannelNo) :
    (s.updDrip f).snapChannel i = s.snapChannel i := rfl
@[simp] theorem State.updIso_br (s : State) (f : IsoUnit → IsoUnit) (i : BranchNo) :
    (s.updIso f).br i = s.br i := rfl
@[simp] theorem State.updIso_line (s : State) (f : IsoUnit → IsoUnit) (i : LineNo) :
    (s.updIso f).line i = s.line i := rfl
@[simp] theorem State.updIso_window (s : State) (f : IsoUnit → IsoUnit) (i : BranchNo) :
    (s.updIso f).window i = s.window i := rfl
@[simp] theorem State.updIso_attnOf (s : State) (f : IsoUnit → IsoUnit) (i : LineNo) :
    (s.updIso f).attnOf i = s.attnOf i := rfl
@[simp] theorem State.updIso_slot (s : State) (f : IsoUnit → IsoUnit) (i : SlotNo) :
    (s.updIso f).slot i = s.slot i := rfl
@[simp] theorem State.updIso_strip (s : State) (f : IsoUnit → IsoUnit) (i : StripNo) :
    (s.updIso f).strip i = s.strip i := rfl
@[simp] theorem State.updIso_channel (s : State) (f : IsoUnit → IsoUnit) (i : ChannelNo) :
    (s.updIso f).channel i = s.channel i := rfl
@[simp] theorem State.updIso_snapChannel (s : State) (f : IsoUnit → IsoUnit) (i : ChannelNo) :
    (s.updIso f).snapChannel i = s.snapChannel i := rfl
@[simp] theorem State.updRing_br (s : State) (f : Ring → Ring) (i : BranchNo) :
    (s.updRing f).br i = s.br i := rfl
@[simp] theorem State.updRing_line (s : State) (f : Ring → Ring) (i : LineNo) :
    (s.updRing f).line i = s.line i := rfl
@[simp] theorem State.updRing_window (s : State) (f : Ring → Ring) (i : BranchNo) :
    (s.updRing f).window i = s.window i := rfl
@[simp] theorem State.updRing_attnOf (s : State) (f : Ring → Ring) (i : LineNo) :
    (s.updRing f).attnOf i = s.attnOf i := rfl
@[simp] theorem State.updRing_strip (s : State) (f : Ring → Ring) (i : StripNo) :
    (s.updRing f).strip i = s.strip i := rfl
@[simp] theorem State.updRing_channel (s : State) (f : Ring → Ring) (i : ChannelNo) :
    (s.updRing f).channel i = s.channel i := rfl
@[simp] theorem State.updRing_snapChannel (s : State) (f : Ring → Ring) (i : ChannelNo) :
    (s.updRing f).snapChannel i = s.snapChannel i := rfl
@[simp] theorem State.updLoader_br (s : State) (f : Loader → Loader) (i : BranchNo) :
    (s.updLoader f).br i = s.br i := rfl
@[simp] theorem State.updLoader_line (s : State) (f : Loader → Loader) (i : LineNo) :
    (s.updLoader f).line i = s.line i := rfl
@[simp] theorem State.updLoader_window (s : State) (f : Loader → Loader) (i : BranchNo) :
    (s.updLoader f).window i = s.window i := rfl
@[simp] theorem State.updLoader_attnOf (s : State) (f : Loader → Loader) (i : LineNo) :
    (s.updLoader f).attnOf i = s.attnOf i := rfl
@[simp] theorem State.updLoader_slot (s : State) (f : Loader → Loader) (i : SlotNo) :
    (s.updLoader f).slot i = s.slot i := rfl
@[simp] theorem State.updLoader_strip (s : State) (f : Loader → Loader) (i : StripNo) :
    (s.updLoader f).strip i = s.strip i := rfl
@[simp] theorem State.updLoader_channel (s : State) (f : Loader → Loader) (i : ChannelNo) :
    (s.updLoader f).channel i = s.channel i := rfl
@[simp] theorem State.updLoader_snapChannel (s : State) (f : Loader → Loader) (i : ChannelNo) :
    (s.updLoader f).snapChannel i = s.snapChannel i := rfl
@[simp] theorem State.updPins_br (s : State) (f : Pins → Pins) (i : BranchNo) :
    (s.updPins f).br i = s.br i := rfl
@[simp] theorem State.updPins_line (s : State) (f : Pins → Pins) (i : LineNo) :
    (s.updPins f).line i = s.line i := rfl
@[simp] theorem State.updPins_window (s : State) (f : Pins → Pins) (i : BranchNo) :
    (s.updPins f).window i = s.window i := rfl
@[simp] theorem State.updPins_attnOf (s : State) (f : Pins → Pins) (i : LineNo) :
    (s.updPins f).attnOf i = s.attnOf i := rfl
@[simp] theorem State.updPins_slot (s : State) (f : Pins → Pins) (i : SlotNo) :
    (s.updPins f).slot i = s.slot i := rfl
@[simp] theorem State.updPins_strip (s : State) (f : Pins → Pins) (i : StripNo) :
    (s.updPins f).strip i = s.strip i := rfl
@[simp] theorem State.updPins_channel (s : State) (f : Pins → Pins) (i : ChannelNo) :
    (s.updPins f).channel i = s.channel i := rfl
@[simp] theorem State.updPins_snapChannel (s : State) (f : Pins → Pins) (i : ChannelNo) :
    (s.updPins f).snapChannel i = s.snapChannel i := rfl
@[simp] theorem State.updLine_br (s : State) (l : LineNo) (f : Line → Line) (i : BranchNo) :
    (s.updLine l f).br i = s.br i := rfl
@[simp] theorem State.updLine_window (s : State) (l : LineNo) (f : Line → Line) (i : BranchNo) :
    (s.updLine l f).window i = s.window i := rfl
@[simp] theorem State.updLine_attnOf (s : State) (l : LineNo) (f : Line → Line) (i : LineNo) :
    (s.updLine l f).attnOf i = s.attnOf i := rfl
@[simp] theorem State.updLine_slot (s : State) (l : LineNo) (f : Line → Line) (i : SlotNo) :
    (s.updLine l f).slot i = s.slot i := rfl
@[simp] theorem State.updLine_strip (s : State) (l : LineNo) (f : Line → Line) (i : StripNo) :
    (s.updLine l f).strip i = s.strip i := rfl
@[simp] theorem State.updLine_channel (s : State) (l : LineNo) (f : Line → Line) (i : ChannelNo) :
    (s.updLine l f).channel i = s.channel i := rfl
@[simp] theorem State.updLine_snapChannel (s : State) (l : LineNo) (f : Line → Line) (i : ChannelNo) :
    (s.updLine l f).snapChannel i = s.snapChannel i := rfl
@[simp] theorem State.setWindow_br (s : State) (n : BranchNo) (w : Window) (i : BranchNo) :
    (s.setWindow n w).br i = s.br i := rfl
@[simp] theorem State.setWindow_line (s : State) (n : BranchNo) (w : Window) (i : LineNo) :
    (s.setWindow n w).line i = s.line i := rfl
@[simp] theorem State.setWindow_attnOf (s : State) (n : BranchNo) (w : Window) (i : LineNo) :
    (s.setWindow n w).attnOf i = s.attnOf i := rfl
@[simp] theorem State.setWindow_slot (s : State) (n : BranchNo) (w : Window) (i : SlotNo) :
    (s.setWindow n w).slot i = s.slot i := rfl
@[simp] theorem State.setWindow_strip (s : State) (n : BranchNo) (w : Window) (i : StripNo) :
    (s.setWindow n w).strip i = s.strip i := rfl
@[simp] theorem State.setWindow_channel (s : State) (n : BranchNo) (w : Window) (i : ChannelNo) :
    (s.setWindow n w).channel i = s.channel i := rfl
@[simp] theorem State.setWindow_snapChannel (s : State) (n : BranchNo) (w : Window) (i : ChannelNo) :
    (s.setWindow n w).snapChannel i = s.snapChannel i := rfl
@[simp] theorem State.updAttn_br (s : State) (l : LineNo) (f : AttnLine → AttnLine) (i : BranchNo) :
    (s.updAttn l f).br i = s.br i := rfl
@[simp] theorem State.updAttn_line (s : State) (l : LineNo) (f : AttnLine → AttnLine) (i : LineNo) :
    (s.updAttn l f).line i = s.line i := rfl
@[simp] theorem State.updAttn_window (s : State) (l : LineNo) (f : AttnLine → AttnLine) (i : BranchNo) :
    (s.updAttn l f).window i = s.window i := rfl
@[simp] theorem State.updAttn_slot (s : State) (l : LineNo) (f : AttnLine → AttnLine) (i : SlotNo) :
    (s.updAttn l f).slot i = s.slot i := rfl
@[simp] theorem State.updAttn_strip (s : State) (l : LineNo) (f : AttnLine → AttnLine) (i : StripNo) :
    (s.updAttn l f).strip i = s.strip i := rfl
@[simp] theorem State.updAttn_channel (s : State) (l : LineNo) (f : AttnLine → AttnLine) (i : ChannelNo) :
    (s.updAttn l f).channel i = s.channel i := rfl
@[simp] theorem State.updAttn_snapChannel (s : State) (l : LineNo) (f : AttnLine → AttnLine) (i : ChannelNo) :
    (s.updAttn l f).snapChannel i = s.snapChannel i := rfl
@[simp] theorem State.updSlot_br (s : State) (k : SlotNo) (f : Slot → Slot) (i : BranchNo) :
    (s.updSlot k f).br i = s.br i := rfl
@[simp] theorem State.updSlot_line (s : State) (k : SlotNo) (f : Slot → Slot) (i : LineNo) :
    (s.updSlot k f).line i = s.line i := rfl
@[simp] theorem State.updSlot_window (s : State) (k : SlotNo) (f : Slot → Slot) (i : BranchNo) :
    (s.updSlot k f).window i = s.window i := rfl
@[simp] theorem State.updSlot_attnOf (s : State) (k : SlotNo) (f : Slot → Slot) (i : LineNo) :
    (s.updSlot k f).attnOf i = s.attnOf i := rfl
@[simp] theorem State.updSlot_strip (s : State) (k : SlotNo) (f : Slot → Slot) (i : StripNo) :
    (s.updSlot k f).strip i = s.strip i := rfl
@[simp] theorem State.updSlot_channel (s : State) (k : SlotNo) (f : Slot → Slot) (i : ChannelNo) :
    (s.updSlot k f).channel i = s.channel i := rfl
@[simp] theorem State.updSlot_snapChannel (s : State) (k : SlotNo) (f : Slot → Slot) (i : ChannelNo) :
    (s.updSlot k f).snapChannel i = s.snapChannel i := rfl
@[simp] theorem State.updStrip_br (s : State) (n : StripNo) (f : Strip → Strip) (i : BranchNo) :
    (s.updStrip n f).br i = s.br i := rfl
@[simp] theorem State.updStrip_line (s : State) (n : StripNo) (f : Strip → Strip) (i : LineNo) :
    (s.updStrip n f).line i = s.line i := rfl
@[simp] theorem State.updStrip_window (s : State) (n : StripNo) (f : Strip → Strip) (i : BranchNo) :
    (s.updStrip n f).window i = s.window i := rfl
@[simp] theorem State.updStrip_attnOf (s : State) (n : StripNo) (f : Strip → Strip) (i : LineNo) :
    (s.updStrip n f).attnOf i = s.attnOf i := rfl
@[simp] theorem State.updStrip_slot (s : State) (n : StripNo) (f : Strip → Strip) (i : SlotNo) :
    (s.updStrip n f).slot i = s.slot i := rfl
@[simp] theorem State.updStrip_channel (s : State) (n : StripNo) (f : Strip → Strip) (i : ChannelNo) :
    (s.updStrip n f).channel i = s.channel i := rfl
@[simp] theorem State.updStrip_snapChannel (s : State) (n : StripNo) (f : Strip → Strip) (i : ChannelNo) :
    (s.updStrip n f).snapChannel i = s.snapChannel i := rfl
@[simp] theorem State.updChannel_br (s : State) (c : ChannelNo) (f : MeterChannel → MeterChannel) (i : BranchNo) :
    (s.updChannel c f).br i = s.br i := rfl
@[simp] theorem State.updChannel_line (s : State) (c : ChannelNo) (f : MeterChannel → MeterChannel) (i : LineNo) :
    (s.updChannel c f).line i = s.line i := rfl
@[simp] theorem State.updChannel_window (s : State) (c : ChannelNo) (f : MeterChannel → MeterChannel) (i : BranchNo) :
    (s.updChannel c f).window i = s.window i := rfl
@[simp] theorem State.updChannel_attnOf (s : State) (c : ChannelNo) (f : MeterChannel → MeterChannel) (i : LineNo) :
    (s.updChannel c f).attnOf i = s.attnOf i := rfl
@[simp] theorem State.updChannel_slot (s : State) (c : ChannelNo) (f : MeterChannel → MeterChannel) (i : SlotNo) :
    (s.updChannel c f).slot i = s.slot i := rfl
@[simp] theorem State.updChannel_strip (s : State) (c : ChannelNo) (f : MeterChannel → MeterChannel) (i : StripNo) :
    (s.updChannel c f).strip i = s.strip i := rfl
@[simp] theorem State.storeHalf_br (s : State) (k : Fin 4) (h : Fin 2) (f : Nat → Byte) (i : BranchNo) :
    (s.storeHalf k h f).br i = s.br i := by simp only [State.storeHalf, State.br]
@[simp] theorem State.storeHalf_line (s : State) (k : Fin 4) (h : Fin 2) (f : Nat → Byte) (i : LineNo) :
    (s.storeHalf k h f).line i = s.line i := by simp only [State.storeHalf, State.line]
@[simp] theorem State.storeHalf_window (s : State) (k : Fin 4) (h : Fin 2) (f : Nat → Byte) (i : BranchNo) :
    (s.storeHalf k h f).window i = s.window i := by simp only [State.storeHalf, State.window]
@[simp] theorem State.storeHalf_attnOf (s : State) (k : Fin 4) (h : Fin 2) (f : Nat → Byte) (i : LineNo) :
    (s.storeHalf k h f).attnOf i = s.attnOf i := by simp only [State.storeHalf, State.attnOf]
@[simp] theorem State.storeHalf_slot (s : State) (k : Fin 4) (h : Fin 2) (f : Nat → Byte) (i : SlotNo) :
    (s.storeHalf k h f).slot i = s.slot i := by simp only [State.storeHalf, State.slot]
@[simp] theorem State.storeHalf_strip (s : State) (k : Fin 4) (h : Fin 2) (f : Nat → Byte) (i : StripNo) :
    (s.storeHalf k h f).strip i = s.strip i := by simp only [State.storeHalf, State.strip]
@[simp] theorem State.storeHalf_channel (s : State) (k : Fin 4) (h : Fin 2) (f : Nat → Byte) (i : ChannelNo) :
    (s.storeHalf k h f).channel i = s.channel i := by simp only [State.storeHalf, State.channel]
@[simp] theorem State.storeHalf_snapChannel (s : State) (k : Fin 4) (h : Fin 2) (f : Nat → Byte) (i : ChannelNo) :
    (s.storeHalf k h f).snapChannel i = s.snapChannel i := by simp only [State.storeHalf, State.snapChannel]

/-! ## Accessors of the table an update changes -/

@[simp] theorem State.updBranch_br_same (s : State) (b : BranchNo) (f : Branch → Branch) : (s.updBranch b f).br b = f (s.br b) := by
  simp [State.updBranch, State.br]
@[simp] theorem State.updBranch_br_ne (s : State) (b : BranchNo) (f : Branch → Branch) {i : BranchNo} (h : b ≠ i) :
    (s.updBranch b f).br i = s.br i := by
  simp [State.updBranch, State.br, h]
theorem State.updBranch_br (s : State) (b : BranchNo) (f : Branch → Branch) (i : BranchNo) :
    (s.updBranch b f).br i = if b = i then f (s.br b) else s.br i := by
  simp [State.updBranch, State.br, Vec.pick_put]
@[simp] theorem State.updLine_line_same (s : State) (l : LineNo) (f : Line → Line) : (s.updLine l f).line l = f (s.line l) := by
  simp [State.updLine, State.line]
@[simp] theorem State.updLine_line_ne (s : State) (l : LineNo) (f : Line → Line) {i : LineNo} (h : l ≠ i) :
    (s.updLine l f).line i = s.line i := by
  simp [State.updLine, State.line, h]
theorem State.updLine_line (s : State) (l : LineNo) (f : Line → Line) (i : LineNo) :
    (s.updLine l f).line i = if l = i then f (s.line l) else s.line i := by
  simp [State.updLine, State.line, Vec.pick_put]
@[simp] theorem State.setWindow_window_same (s : State) (n : BranchNo) (w : Window) : (s.setWindow n w).window n = w := by
  simp [State.setWindow, State.window]
@[simp] theorem State.setWindow_window_ne (s : State) (n : BranchNo) (w : Window) {i : BranchNo} (h : n ≠ i) :
    (s.setWindow n w).window i = s.window i := by
  simp [State.setWindow, State.window, h]
theorem State.setWindow_window (s : State) (n : BranchNo) (w : Window) (i : BranchNo) :
    (s.setWindow n w).window i = if n = i then w else s.window i := by
  simp [State.setWindow, State.window, Vec.pick_put]
@[simp] theorem State.updAttn_attnOf_same (s : State) (l : LineNo) (f : AttnLine → AttnLine) : (s.updAttn l f).attnOf l = f (s.attnOf l) := by
  simp [State.updAttn, State.attnOf]
@[simp] theorem State.updAttn_attnOf_ne (s : State) (l : LineNo) (f : AttnLine → AttnLine) {i : LineNo} (h : l ≠ i) :
    (s.updAttn l f).attnOf i = s.attnOf i := by
  simp [State.updAttn, State.attnOf, h]
theorem State.updAttn_attnOf (s : State) (l : LineNo) (f : AttnLine → AttnLine) (i : LineNo) :
    (s.updAttn l f).attnOf i = if l = i then f (s.attnOf l) else s.attnOf i := by
  simp [State.updAttn, State.attnOf, Vec.pick_put]
@[simp] theorem State.updSlot_slot_same (s : State) (k : SlotNo) (f : Slot → Slot) : (s.updSlot k f).slot k = f (s.slot k) := by
  simp [State.updSlot, State.slot]
@[simp] theorem State.updSlot_slot_ne (s : State) (k : SlotNo) (f : Slot → Slot) {i : SlotNo} (h : k ≠ i) :
    (s.updSlot k f).slot i = s.slot i := by
  simp [State.updSlot, State.slot, h]
theorem State.updSlot_slot (s : State) (k : SlotNo) (f : Slot → Slot) (i : SlotNo) :
    (s.updSlot k f).slot i = if k = i then f (s.slot k) else s.slot i := by
  simp [State.updSlot, State.slot, Vec.pick_put]
@[simp] theorem State.updStrip_strip_same (s : State) (n : StripNo) (f : Strip → Strip) : (s.updStrip n f).strip n = f (s.strip n) := by
  simp [State.updStrip, State.strip]
@[simp] theorem State.updStrip_strip_ne (s : State) (n : StripNo) (f : Strip → Strip) {i : StripNo} (h : n ≠ i) :
    (s.updStrip n f).strip i = s.strip i := by
  simp [State.updStrip, State.strip, h]
theorem State.updStrip_strip (s : State) (n : StripNo) (f : Strip → Strip) (i : StripNo) :
    (s.updStrip n f).strip i = if n = i then f (s.strip n) else s.strip i := by
  simp [State.updStrip, State.strip, Vec.pick_put]
@[simp] theorem State.updChannel_channel_same (s : State) (c : ChannelNo) (f : MeterChannel → MeterChannel) : (s.updChannel c f).channel c = f (s.channel c) := by
  simp [State.updChannel, State.channel]
@[simp] theorem State.updChannel_channel_ne (s : State) (c : ChannelNo) (f : MeterChannel → MeterChannel) {i : ChannelNo} (h : c ≠ i) :
    (s.updChannel c f).channel i = s.channel i := by
  simp [State.updChannel, State.channel, h]
theorem State.updChannel_channel (s : State) (c : ChannelNo) (f : MeterChannel → MeterChannel) (i : ChannelNo) :
    (s.updChannel c f).channel i = if c = i then f (s.channel c) else s.channel i := by
  simp [State.updChannel, State.channel, Vec.pick_put]
@[simp] theorem State.mapBranches_br (s : State) (f : Branch → Branch) (b : BranchNo) :
    (s.mapBranches f).br b = f (s.br b) := by
  simp [State.mapBranches, State.br]
@[simp] theorem State.updRing_slot_fill (s : State) (n : SlotNo) (x : Bool) (k : SlotNo) :
    (s.updRing fun g => { g with fill := n, suspended := x }).slot k = s.slot k := rfl
@[simp] theorem State.updChannel_snapChannel (s : State) (c : ChannelNo) (f : MeterChannel → MeterChannel) (i : ChannelNo) :
    (s.updChannel c f).snapChannel i = s.snapChannel i := rfl

end Sys2Proof.Machine
end

