-- ==== Sys2Proof/Laws/Frames.lean ====
section
/-! SUPPORT. What each shared operation leaves alone: one lemma for every operation and every field of the state it never
changes. -/

namespace Sys2Proof.Machine

open Sys2Proof

/-- What every turn of a loop over the branches keeps, the loop keeps. -/
theorem forBranches_keeps {α : Type} (P : State → α) (f : BranchNo → State → State) (h : ∀ b s, P (f b s) = P s)
    (s : State) : P (forBranches f s) = P s := by
  unfold forBranches
  generalize allBranches = bs
  induction bs generalizing s with
  | nil => rfl
  | cons b bs ih => rw [List.foldl_cons, ih, h]

/-- An invariant of every turn of a loop over the branches is one of the loop. -/
theorem forBranches_inv (P : State → Prop) (f : BranchNo → State → State) (h : ∀ b s, P s → P (f b s)) (s : State)
    (hs : P s) : P (forBranches f s) := by
  unfold forBranches
  generalize allBranches = bs
  induction bs generalizing s with
  | nil => exact hs
  | cons b bs ih => rw [List.foldl_cons]; exact ih _ (h b s hs)

/-! ## raise -/

@[simp] theorem raise_branches (l : LineNo) (e : AttnEntry) (s : State) : (raise l e s).branches = s.branches := rfl
@[simp] theorem raise_rail (l : LineNo) (e : AttnEntry) (s : State) : (raise l e s).rail = s.rail := rfl
@[simp] theorem raise_meter (l : LineNo) (e : AttnEntry) (s : State) : (raise l e s).meter = s.meter := rfl
@[simp] theorem raise_alloc (l : LineNo) (e : AttnEntry) (s : State) : (raise l e s).alloc = s.alloc := rfl
@[simp] theorem raise_valves (l : LineNo) (e : AttnEntry) (s : State) : (raise l e s).valves = s.valves := rfl
@[simp] theorem raise_drip (l : LineNo) (e : AttnEntry) (s : State) : (raise l e s).drip = s.drip := rfl
@[simp] theorem raise_iso (l : LineNo) (e : AttnEntry) (s : State) : (raise l e s).iso = s.iso := rfl
@[simp] theorem raise_ring (l : LineNo) (e : AttnEntry) (s : State) : (raise l e s).ring = s.ring := rfl
@[simp] theorem raise_lines (l : LineNo) (e : AttnEntry) (s : State) : (raise l e s).lines = s.lines := rfl
@[simp] theorem raise_windows (l : LineNo) (e : AttnEntry) (s : State) : (raise l e s).windows = s.windows := rfl
@[simp] theorem raise_loader (l : LineNo) (e : AttnEntry) (s : State) : (raise l e s).loader = s.loader := rfl
@[simp] theorem raise_params (l : LineNo) (e : AttnEntry) (s : State) : (raise l e s).params = s.params := rfl
@[simp] theorem raise_eeprom (l : LineNo) (e : AttnEntry) (s : State) : (raise l e s).eeprom = s.eeprom := rfl
@[simp] theorem raise_pins (l : LineNo) (e : AttnEntry) (s : State) : (raise l e s).pins = s.pins := rfl
@[simp] theorem raise_sampleTimer (l : LineNo) (e : AttnEntry) (s : State) : (raise l e s).sampleTimer = s.sampleTimer := rfl
@[simp] theorem raise_freeCount (l : LineNo) (e : AttnEntry) (s : State) : (raise l e s).freeCount = s.freeCount := rfl
@[simp] theorem raise_pending (l : LineNo) (e : AttnEntry) (s : State) : (raise l e s).pending = s.pending := rfl

/-! ## raiseSup -/

@[simp] theorem raiseSup_branches (c : SupCause) (k : Nat) (s : State) : (raiseSup c k s).branches = s.branches := rfl
@[simp] theorem raiseSup_rail (c : SupCause) (k : Nat) (s : State) : (raiseSup c k s).rail = s.rail := rfl
@[simp] theorem raiseSup_meter (c : SupCause) (k : Nat) (s : State) : (raiseSup c k s).meter = s.meter := rfl
@[simp] theorem raiseSup_alloc (c : SupCause) (k : Nat) (s : State) : (raiseSup c k s).alloc = s.alloc := rfl
@[simp] theorem raiseSup_valves (c : SupCause) (k : Nat) (s : State) : (raiseSup c k s).valves = s.valves := rfl
@[simp] theorem raiseSup_drip (c : SupCause) (k : Nat) (s : State) : (raiseSup c k s).drip = s.drip := rfl
@[simp] theorem raiseSup_iso (c : SupCause) (k : Nat) (s : State) : (raiseSup c k s).iso = s.iso := rfl
@[simp] theorem raiseSup_ring (c : SupCause) (k : Nat) (s : State) : (raiseSup c k s).ring = s.ring := rfl
@[simp] theorem raiseSup_lines (c : SupCause) (k : Nat) (s : State) : (raiseSup c k s).lines = s.lines := rfl
@[simp] theorem raiseSup_windows (c : SupCause) (k : Nat) (s : State) : (raiseSup c k s).windows = s.windows := rfl
@[simp] theorem raiseSup_loader (c : SupCause) (k : Nat) (s : State) : (raiseSup c k s).loader = s.loader := rfl
@[simp] theorem raiseSup_params (c : SupCause) (k : Nat) (s : State) : (raiseSup c k s).params = s.params := rfl
@[simp] theorem raiseSup_eeprom (c : SupCause) (k : Nat) (s : State) : (raiseSup c k s).eeprom = s.eeprom := rfl
@[simp] theorem raiseSup_pins (c : SupCause) (k : Nat) (s : State) : (raiseSup c k s).pins = s.pins := rfl
@[simp] theorem raiseSup_sampleTimer (c : SupCause) (k : Nat) (s : State) : (raiseSup c k s).sampleTimer = s.sampleTimer := rfl
@[simp] theorem raiseSup_freeCount (c : SupCause) (k : Nat) (s : State) : (raiseSup c k s).freeCount = s.freeCount := rfl
@[simp] theorem raiseSup_pending (c : SupCause) (k : Nat) (s : State) : (raiseSup c k s).pending = s.pending := rfl

/-! ## raisePlant -/

@[simp] theorem raisePlant_branches (c : PlantCause) (s : State) : (raisePlant c s).branches = s.branches := rfl
@[simp] theorem raisePlant_rail (c : PlantCause) (s : State) : (raisePlant c s).rail = s.rail := rfl
@[simp] theorem raisePlant_meter (c : PlantCause) (s : State) : (raisePlant c s).meter = s.meter := rfl
@[simp] theorem raisePlant_alloc (c : PlantCause) (s : State) : (raisePlant c s).alloc = s.alloc := rfl
@[simp] theorem raisePlant_valves (c : PlantCause) (s : State) : (raisePlant c s).valves = s.valves := rfl
@[simp] theorem raisePlant_drip (c : PlantCause) (s : State) : (raisePlant c s).drip = s.drip := rfl
@[simp] theorem raisePlant_iso (c : PlantCause) (s : State) : (raisePlant c s).iso = s.iso := rfl
@[simp] theorem raisePlant_ring (c : PlantCause) (s : State) : (raisePlant c s).ring = s.ring := rfl
@[simp] theorem raisePlant_lines (c : PlantCause) (s : State) : (raisePlant c s).lines = s.lines := rfl
@[simp] theorem raisePlant_windows (c : PlantCause) (s : State) : (raisePlant c s).windows = s.windows := rfl
@[simp] theorem raisePlant_loader (c : PlantCause) (s : State) : (raisePlant c s).loader = s.loader := rfl
@[simp] theorem raisePlant_params (c : PlantCause) (s : State) : (raisePlant c s).params = s.params := rfl
@[simp] theorem raisePlant_eeprom (c : PlantCause) (s : State) : (raisePlant c s).eeprom = s.eeprom := rfl
@[simp] theorem raisePlant_pins (c : PlantCause) (s : State) : (raisePlant c s).pins = s.pins := rfl
@[simp] theorem raisePlant_sampleTimer (c : PlantCause) (s : State) : (raisePlant c s).sampleTimer = s.sampleTimer := rfl
@[simp] theorem raisePlant_freeCount (c : PlantCause) (s : State) : (raisePlant c s).freeCount = s.freeCount := rfl
@[simp] theorem raisePlant_pending (c : PlantCause) (s : State) : (raisePlant c s).pending = s.pending := rfl

/-! ## raiseOwner -/

@[simp] theorem raiseOwner_branches (b : BranchNo) (c : SledCause) (x : List BranchCause) (s : State) : (raiseOwner b c x s).branches = s.branches := by
  unfold raiseOwner; (repeat' split) <;> simp
@[simp] theorem raiseOwner_rail (b : BranchNo) (c : SledCause) (x : List BranchCause) (s : State) : (raiseOwner b c x s).rail = s.rail := by
  unfold raiseOwner; (repeat' split) <;> simp
@[simp] theorem raiseOwner_meter (b : BranchNo) (c : SledCause) (x : List BranchCause) (s : State) : (raiseOwner b c x s).meter = s.meter := by
  unfold raiseOwner; (repeat' split) <;> simp
@[simp] theorem raiseOwner_alloc (b : BranchNo) (c : SledCause) (x : List BranchCause) (s : State) : (raiseOwner b c x s).alloc = s.alloc := by
  unfold raiseOwner; (repeat' split) <;> simp
@[simp] theorem raiseOwner_valves (b : BranchNo) (c : SledCause) (x : List BranchCause) (s : State) : (raiseOwner b c x s).valves = s.valves := by
  unfold raiseOwner; (repeat' split) <;> simp
@[simp] theorem raiseOwner_drip (b : BranchNo) (c : SledCause) (x : List BranchCause) (s : State) : (raiseOwner b c x s).drip = s.drip := by
  unfold raiseOwner; (repeat' split) <;> simp
@[simp] theorem raiseOwner_iso (b : BranchNo) (c : SledCause) (x : List BranchCause) (s : State) : (raiseOwner b c x s).iso = s.iso := by
  unfold raiseOwner; (repeat' split) <;> simp
@[simp] theorem raiseOwner_ring (b : BranchNo) (c : SledCause) (x : List BranchCause) (s : State) : (raiseOwner b c x s).ring = s.ring := by
  unfold raiseOwner; (repeat' split) <;> simp
@[simp] theorem raiseOwner_lines (b : BranchNo) (c : SledCause) (x : List BranchCause) (s : State) : (raiseOwner b c x s).lines = s.lines := by
  unfold raiseOwner; (repeat' split) <;> simp
@[simp] theorem raiseOwner_windows (b : BranchNo) (c : SledCause) (x : List BranchCause) (s : State) : (raiseOwner b c x s).windows = s.windows := by
  unfold raiseOwner; (repeat' split) <;> simp
@[simp] theorem raiseOwner_loader (b : BranchNo) (c : SledCause) (x : List BranchCause) (s : State) : (raiseOwner b c x s).loader = s.loader := by
  unfold raiseOwner; (repeat' split) <;> simp
@[simp] theorem raiseOwner_params (b : BranchNo) (c : SledCause) (x : List BranchCause) (s : State) : (raiseOwner b c x s).params = s.params := by
  unfold raiseOwner; (repeat' split) <;> simp
@[simp] theorem raiseOwner_eeprom (b : BranchNo) (c : SledCause) (x : List BranchCause) (s : State) : (raiseOwner b c x s).eeprom = s.eeprom := by
  unfold raiseOwner; (repeat' split) <;> simp
@[simp] theorem raiseOwner_pins (b : BranchNo) (c : SledCause) (x : List BranchCause) (s : State) : (raiseOwner b c x s).pins = s.pins := by
  unfold raiseOwner; (repeat' split) <;> simp
@[simp] theorem raiseOwner_sampleTimer (b : BranchNo) (c : SledCause) (x : List BranchCause) (s : State) : (raiseOwner b c x s).sampleTimer = s.sampleTimer := by
  unfold raiseOwner; (repeat' split) <;> simp
@[simp] theorem raiseOwner_freeCount (b : BranchNo) (c : SledCause) (x : List BranchCause) (s : State) : (raiseOwner b c x s).freeCount = s.freeCount := by
  unfold raiseOwner; (repeat' split) <;> simp
@[simp] theorem raiseOwner_pending (b : BranchNo) (c : SledCause) (x : List BranchCause) (s : State) : (raiseOwner b c x s).pending = s.pending := by
  unfold raiseOwner; (repeat' split) <;> simp

/-! ## dropCause -/

@[simp] theorem dropCause_branches (l : LineNo) (c : AttnCause) (s : State) : (dropCause l c s).branches = s.branches := rfl
@[simp] theorem dropCause_rail (l : LineNo) (c : AttnCause) (s : State) : (dropCause l c s).rail = s.rail := rfl
@[simp] theorem dropCause_meter (l : LineNo) (c : AttnCause) (s : State) : (dropCause l c s).meter = s.meter := rfl
@[simp] theorem dropCause_alloc (l : LineNo) (c : AttnCause) (s : State) : (dropCause l c s).alloc = s.alloc := rfl
@[simp] theorem dropCause_valves (l : LineNo) (c : AttnCause) (s : State) : (dropCause l c s).valves = s.valves := rfl
@[simp] theorem dropCause_drip (l : LineNo) (c : AttnCause) (s : State) : (dropCause l c s).drip = s.drip := rfl
@[simp] theorem dropCause_iso (l : LineNo) (c : AttnCause) (s : State) : (dropCause l c s).iso = s.iso := rfl
@[simp] theorem dropCause_ring (l : LineNo) (c : AttnCause) (s : State) : (dropCause l c s).ring = s.ring := rfl
@[simp] theorem dropCause_lines (l : LineNo) (c : AttnCause) (s : State) : (dropCause l c s).lines = s.lines := rfl
@[simp] theorem dropCause_windows (l : LineNo) (c : AttnCause) (s : State) : (dropCause l c s).windows = s.windows := rfl
@[simp] theorem dropCause_loader (l : LineNo) (c : AttnCause) (s : State) : (dropCause l c s).loader = s.loader := rfl
@[simp] theorem dropCause_params (l : LineNo) (c : AttnCause) (s : State) : (dropCause l c s).params = s.params := rfl
@[simp] theorem dropCause_eeprom (l : LineNo) (c : AttnCause) (s : State) : (dropCause l c s).eeprom = s.eeprom := rfl
@[simp] theorem dropCause_pins (l : LineNo) (c : AttnCause) (s : State) : (dropCause l c s).pins = s.pins := rfl
@[simp] theorem dropCause_sampleTimer (l : LineNo) (c : AttnCause) (s : State) : (dropCause l c s).sampleTimer = s.sampleTimer := rfl
@[simp] theorem dropCause_freeCount (l : LineNo) (c : AttnCause) (s : State) : (dropCause l c s).freeCount = s.freeCount := rfl
@[simp] theorem dropCause_pending (l : LineNo) (c : AttnCause) (s : State) : (dropCause l c s).pending = s.pending := rfl

/-! ## clearCauses -/

@[simp] theorem clearCauses_branches (l : LineNo) (x : BitVec 16) (s : State) : (clearCauses l x s).branches = s.branches := rfl
@[simp] theorem clearCauses_rail (l : LineNo) (x : BitVec 16) (s : State) : (clearCauses l x s).rail = s.rail := rfl
@[simp] theorem clearCauses_meter (l : LineNo) (x : BitVec 16) (s : State) : (clearCauses l x s).meter = s.meter := rfl
@[simp] theorem clearCauses_alloc (l : LineNo) (x : BitVec 16) (s : State) : (clearCauses l x s).alloc = s.alloc := rfl
@[simp] theorem clearCauses_valves (l : LineNo) (x : BitVec 16) (s : State) : (clearCauses l x s).valves = s.valves := rfl
@[simp] theorem clearCauses_drip (l : LineNo) (x : BitVec 16) (s : State) : (clearCauses l x s).drip = s.drip := rfl
@[simp] theorem clearCauses_iso (l : LineNo) (x : BitVec 16) (s : State) : (clearCauses l x s).iso = s.iso := rfl
@[simp] theorem clearCauses_ring (l : LineNo) (x : BitVec 16) (s : State) : (clearCauses l x s).ring = s.ring := rfl
@[simp] theorem clearCauses_lines (l : LineNo) (x : BitVec 16) (s : State) : (clearCauses l x s).lines = s.lines := rfl
@[simp] theorem clearCauses_windows (l : LineNo) (x : BitVec 16) (s : State) : (clearCauses l x s).windows = s.windows := rfl
@[simp] theorem clearCauses_loader (l : LineNo) (x : BitVec 16) (s : State) : (clearCauses l x s).loader = s.loader := rfl
@[simp] theorem clearCauses_params (l : LineNo) (x : BitVec 16) (s : State) : (clearCauses l x s).params = s.params := rfl
@[simp] theorem clearCauses_eeprom (l : LineNo) (x : BitVec 16) (s : State) : (clearCauses l x s).eeprom = s.eeprom := rfl
@[simp] theorem clearCauses_pins (l : LineNo) (x : BitVec 16) (s : State) : (clearCauses l x s).pins = s.pins := rfl
@[simp] theorem clearCauses_sampleTimer (l : LineNo) (x : BitVec 16) (s : State) : (clearCauses l x s).sampleTimer = s.sampleTimer := rfl
@[simp] theorem clearCauses_freeCount (l : LineNo) (x : BitVec 16) (s : State) : (clearCauses l x s).freeCount = s.freeCount := rfl
@[simp] theorem clearCauses_pending (l : LineNo) (x : BitVec 16) (s : State) : (clearCauses l x s).pending = s.pending := rfl

/-! ## startReply -/

@[simp] theorem startReply_branches (l : LineNo) (k t : Byte) (st : Status) (xs : List Byte) (s : State) : (startReply l k t st xs s).branches = s.branches := rfl
@[simp] theorem startReply_rail (l : LineNo) (k t : Byte) (st : Status) (xs : List Byte) (s : State) : (startReply l k t st xs s).rail = s.rail := rfl
@[simp] theorem startReply_meter (l : LineNo) (k t : Byte) (st : Status) (xs : List Byte) (s : State) : (startReply l k t st xs s).meter = s.meter := rfl
@[simp] theorem startReply_alloc (l : LineNo) (k t : Byte) (st : Status) (xs : List Byte) (s : State) : (startReply l k t st xs s).alloc = s.alloc := rfl
@[simp] theorem startReply_valves (l : LineNo) (k t : Byte) (st : Status) (xs : List Byte) (s : State) : (startReply l k t st xs s).valves = s.valves := rfl
@[simp] theorem startReply_drip (l : LineNo) (k t : Byte) (st : Status) (xs : List Byte) (s : State) : (startReply l k t st xs s).drip = s.drip := rfl
@[simp] theorem startReply_iso (l : LineNo) (k t : Byte) (st : Status) (xs : List Byte) (s : State) : (startReply l k t st xs s).iso = s.iso := rfl
@[simp] theorem startReply_ring (l : LineNo) (k t : Byte) (st : Status) (xs : List Byte) (s : State) : (startReply l k t st xs s).ring = s.ring := rfl
@[simp] theorem startReply_windows (l : LineNo) (k t : Byte) (st : Status) (xs : List Byte) (s : State) : (startReply l k t st xs s).windows = s.windows := rfl
@[simp] theorem startReply_attn (l : LineNo) (k t : Byte) (st : Status) (xs : List Byte) (s : State) : (startReply l k t st xs s).attn = s.attn := rfl
@[simp] theorem startReply_loader (l : LineNo) (k t : Byte) (st : Status) (xs : List Byte) (s : State) : (startReply l k t st xs s).loader = s.loader := rfl
@[simp] theorem startReply_params (l : LineNo) (k t : Byte) (st : Status) (xs : List Byte) (s : State) : (startReply l k t st xs s).params = s.params := rfl
@[simp] theorem startReply_eeprom (l : LineNo) (k t : Byte) (st : Status) (xs : List Byte) (s : State) : (startReply l k t st xs s).eeprom = s.eeprom := rfl
@[simp] theorem startReply_pins (l : LineNo) (k t : Byte) (st : Status) (xs : List Byte) (s : State) : (startReply l k t st xs s).pins = s.pins := rfl
@[simp] theorem startReply_sampleTimer (l : LineNo) (k t : Byte) (st : Status) (xs : List Byte) (s : State) : (startReply l k t st xs s).sampleTimer = s.sampleTimer := rfl
@[simp] theorem startReply_freeCount (l : LineNo) (k t : Byte) (st : Status) (xs : List Byte) (s : State) : (startReply l k t st xs s).freeCount = s.freeCount := rfl
@[simp] theorem startReply_pending (l : LineNo) (k t : Byte) (st : Status) (xs : List Byte) (s : State) : (startReply l k t st xs s).pending = s.pending := rfl

/-! ## setIncident -/

@[simp] theorem setIncident_meter (t : Target) (r : Option SlotNo) (x : Bool) (s : State) : (setIncident t r x s).meter = s.meter := by
  unfold setIncident; (repeat' split) <;> simp
@[simp] theorem setIncident_alloc (t : Target) (r : Option SlotNo) (x : Bool) (s : State) : (setIncident t r x s).alloc = s.alloc := by
  unfold setIncident; (repeat' split) <;> simp
@[simp] theorem setIncident_valves (t : Target) (r : Option SlotNo) (x : Bool) (s : State) : (setIncident t r x s).valves = s.valves := by
  unfold setIncident; (repeat' split) <;> simp
@[simp] theorem setIncident_drip (t : Target) (r : Option SlotNo) (x : Bool) (s : State) : (setIncident t r x s).drip = s.drip := by
  unfold setIncident; (repeat' split) <;> simp
@[simp] theorem setIncident_iso (t : Target) (r : Option SlotNo) (x : Bool) (s : State) : (setIncident t r x s).iso = s.iso := by
  unfold setIncident; (repeat' split) <;> simp
@[simp] theorem setIncident_ring (t : Target) (r : Option SlotNo) (x : Bool) (s : State) : (setIncident t r x s).ring = s.ring := by
  unfold setIncident; (repeat' split) <;> simp
@[simp] theorem setIncident_lines (t : Target) (r : Option SlotNo) (x : Bool) (s : State) : (setIncident t r x s).lines = s.lines := by
  unfold setIncident; (repeat' split) <;> simp
@[simp] theorem setIncident_windows (t : Target) (r : Option SlotNo) (x : Bool) (s : State) : (setIncident t r x s).windows = s.windows := by
  unfold setIncident; (repeat' split) <;> simp
@[simp] theorem setIncident_attn (t : Target) (r : Option SlotNo) (x : Bool) (s : State) : (setIncident t r x s).attn = s.attn := by
  unfold setIncident; (repeat' split) <;> simp
@[simp] theorem setIncident_loader (t : Target) (r : Option SlotNo) (x : Bool) (s : State) : (setIncident t r x s).loader = s.loader := by
  unfold setIncident; (repeat' split) <;> simp
@[simp] theorem setIncident_params (t : Target) (r : Option SlotNo) (x : Bool) (s : State) : (setIncident t r x s).params = s.params := by
  unfold setIncident; (repeat' split) <;> simp
@[simp] theorem setIncident_eeprom (t : Target) (r : Option SlotNo) (x : Bool) (s : State) : (setIncident t r x s).eeprom = s.eeprom := by
  unfold setIncident; (repeat' split) <;> simp
@[simp] theorem setIncident_pins (t : Target) (r : Option SlotNo) (x : Bool) (s : State) : (setIncident t r x s).pins = s.pins := by
  unfold setIncident; (repeat' split) <;> simp
@[simp] theorem setIncident_sampleTimer (t : Target) (r : Option SlotNo) (x : Bool) (s : State) : (setIncident t r x s).sampleTimer = s.sampleTimer := by
  unfold setIncident; (repeat' split) <;> simp
@[simp] theorem setIncident_freeCount (t : Target) (r : Option SlotNo) (x : Bool) (s : State) : (setIncident t r x s).freeCount = s.freeCount := by
  unfold setIncident; (repeat' split) <;> simp
@[simp] theorem setIncident_pending (t : Target) (r : Option SlotNo) (x : Bool) (s : State) : (setIncident t r x s).pending = s.pending := by
  unfold setIncident; (repeat' split) <;> simp

/-! ## closeRecord -/

@[simp] theorem closeRecord_branches (t : Target) (s : State) : (closeRecord t s).branches = s.branches := by
  unfold closeRecord; (repeat' split) <;> simp
@[simp] theorem closeRecord_rail (t : Target) (s : State) : (closeRecord t s).rail = s.rail := by
  unfold closeRecord; (repeat' split) <;> simp
@[simp] theorem closeRecord_meter (t : Target) (s : State) : (closeRecord t s).meter = s.meter := by
  unfold closeRecord; (repeat' split) <;> simp
@[simp] theorem closeRecord_alloc (t : Target) (s : State) : (closeRecord t s).alloc = s.alloc := by
  unfold closeRecord; (repeat' split) <;> simp
@[simp] theorem closeRecord_valves (t : Target) (s : State) : (closeRecord t s).valves = s.valves := by
  unfold closeRecord; (repeat' split) <;> simp
@[simp] theorem closeRecord_drip (t : Target) (s : State) : (closeRecord t s).drip = s.drip := by
  unfold closeRecord; (repeat' split) <;> simp
@[simp] theorem closeRecord_iso (t : Target) (s : State) : (closeRecord t s).iso = s.iso := by
  unfold closeRecord; (repeat' split) <;> simp
@[simp] theorem closeRecord_lines (t : Target) (s : State) : (closeRecord t s).lines = s.lines := by
  unfold closeRecord; (repeat' split) <;> simp
@[simp] theorem closeRecord_windows (t : Target) (s : State) : (closeRecord t s).windows = s.windows := by
  unfold closeRecord; (repeat' split) <;> simp
@[simp] theorem closeRecord_loader (t : Target) (s : State) : (closeRecord t s).loader = s.loader := by
  unfold closeRecord; (repeat' split) <;> simp
@[simp] theorem closeRecord_params (t : Target) (s : State) : (closeRecord t s).params = s.params := by
  unfold closeRecord; (repeat' split) <;> simp
@[simp] theorem closeRecord_eeprom (t : Target) (s : State) : (closeRecord t s).eeprom = s.eeprom := by
  unfold closeRecord; (repeat' split) <;> simp
@[simp] theorem closeRecord_pins (t : Target) (s : State) : (closeRecord t s).pins = s.pins := by
  unfold closeRecord; (repeat' split) <;> simp
@[simp] theorem closeRecord_sampleTimer (t : Target) (s : State) : (closeRecord t s).sampleTimer = s.sampleTimer := by
  unfold closeRecord; (repeat' split) <;> simp
@[simp] theorem closeRecord_freeCount (t : Target) (s : State) : (closeRecord t s).freeCount = s.freeCount := by
  unfold closeRecord; (repeat' split) <;> simp
@[simp] theorem closeRecord_pending (t : Target) (s : State) : (closeRecord t s).pending = s.pending := by
  unfold closeRecord; (repeat' split) <;> simp

/-! ## openRecord -/

@[simp] theorem openRecord_meter (t : Target) (c : Cause) (x : Bool) (s : State) : (openRecord t c x s).meter = s.meter := by
  unfold openRecord; dsimp only; split <;> simp
@[simp] theorem openRecord_alloc (t : Target) (c : Cause) (x : Bool) (s : State) : (openRecord t c x s).alloc = s.alloc := by
  unfold openRecord; dsimp only; split <;> simp
@[simp] theorem openRecord_valves (t : Target) (c : Cause) (x : Bool) (s : State) : (openRecord t c x s).valves = s.valves := by
  unfold openRecord; dsimp only; split <;> simp
@[simp] theorem openRecord_drip (t : Target) (c : Cause) (x : Bool) (s : State) : (openRecord t c x s).drip = s.drip := by
  unfold openRecord; dsimp only; split <;> simp
@[simp] theorem openRecord_iso (t : Target) (c : Cause) (x : Bool) (s : State) : (openRecord t c x s).iso = s.iso := by
  unfold openRecord; dsimp only; split <;> simp
@[simp] theorem openRecord_lines (t : Target) (c : Cause) (x : Bool) (s : State) : (openRecord t c x s).lines = s.lines := by
  unfold openRecord; dsimp only; split <;> simp
@[simp] theorem openRecord_windows (t : Target) (c : Cause) (x : Bool) (s : State) : (openRecord t c x s).windows = s.windows := by
  unfold openRecord; dsimp only; split <;> simp
@[simp] theorem openRecord_loader (t : Target) (c : Cause) (x : Bool) (s : State) : (openRecord t c x s).loader = s.loader := by
  unfold openRecord; dsimp only; split <;> simp
@[simp] theorem openRecord_params (t : Target) (c : Cause) (x : Bool) (s : State) : (openRecord t c x s).params = s.params := by
  unfold openRecord; dsimp only; split <;> simp
@[simp] theorem openRecord_eeprom (t : Target) (c : Cause) (x : Bool) (s : State) : (openRecord t c x s).eeprom = s.eeprom := by
  unfold openRecord; dsimp only; split <;> simp
@[simp] theorem openRecord_pins (t : Target) (c : Cause) (x : Bool) (s : State) : (openRecord t c x s).pins = s.pins := by
  unfold openRecord; dsimp only; split <;> simp
@[simp] theorem openRecord_sampleTimer (t : Target) (c : Cause) (x : Bool) (s : State) : (openRecord t c x s).sampleTimer = s.sampleTimer := by
  unfold openRecord; dsimp only; split <;> simp
@[simp] theorem openRecord_freeCount (t : Target) (c : Cause) (x : Bool) (s : State) : (openRecord t c x s).freeCount = s.freeCount := by
  unfold openRecord; dsimp only; split <;> simp
@[simp] theorem openRecord_pending (t : Target) (c : Cause) (x : Bool) (s : State) : (openRecord t c x s).pending = s.pending := by
  unfold openRecord; dsimp only; split <;> simp

/-! ## loseIncident -/

@[simp] theorem loseIncident_meter (t : Target) (x : Bool) (s : State) : (loseIncident t x s).meter = s.meter := by simp [loseIncident]
@[simp] theorem loseIncident_alloc (t : Target) (x : Bool) (s : State) : (loseIncident t x s).alloc = s.alloc := by simp [loseIncident]
@[simp] theorem loseIncident_valves (t : Target) (x : Bool) (s : State) : (loseIncident t x s).valves = s.valves := by simp [loseIncident]
@[simp] theorem loseIncident_drip (t : Target) (x : Bool) (s : State) : (loseIncident t x s).drip = s.drip := by simp [loseIncident]
@[simp] theorem loseIncident_iso (t : Target) (x : Bool) (s : State) : (loseIncident t x s).iso = s.iso := by simp [loseIncident]
@[simp] theorem loseIncident_lines (t : Target) (x : Bool) (s : State) : (loseIncident t x s).lines = s.lines := by simp [loseIncident]
@[simp] theorem loseIncident_windows (t : Target) (x : Bool) (s : State) : (loseIncident t x s).windows = s.windows := by simp [loseIncident]
@[simp] theorem loseIncident_loader (t : Target) (x : Bool) (s : State) : (loseIncident t x s).loader = s.loader := by simp [loseIncident]
@[simp] theorem loseIncident_params (t : Target) (x : Bool) (s : State) : (loseIncident t x s).params = s.params := by simp [loseIncident]
@[simp] theorem loseIncident_eeprom (t : Target) (x : Bool) (s : State) : (loseIncident t x s).eeprom = s.eeprom := by simp [loseIncident]
@[simp] theorem loseIncident_pins (t : Target) (x : Bool) (s : State) : (loseIncident t x s).pins = s.pins := by simp [loseIncident]
@[simp] theorem loseIncident_sampleTimer (t : Target) (x : Bool) (s : State) : (loseIncident t x s).sampleTimer = s.sampleTimer := by simp [loseIncident]
@[simp] theorem loseIncident_freeCount (t : Target) (x : Bool) (s : State) : (loseIncident t x s).freeCount = s.freeCount := by simp [loseIncident]
@[simp] theorem loseIncident_pending (t : Target) (x : Bool) (s : State) : (loseIncident t x s).pending = s.pending := by simp [loseIncident]

/-! ## ringAdd -/

@[simp] theorem ringAdd_meter (t : Target) (c : Cause) (x : Bool) (s : State) : (ringAdd t c x s).meter = s.meter := by
  unfold ringAdd; (repeat' split) <;> simp
@[simp] theorem ringAdd_alloc (t : Target) (c : Cause) (x : Bool) (s : State) : (ringAdd t c x s).alloc = s.alloc := by
  unfold ringAdd; (repeat' split) <;> simp
@[simp] theorem ringAdd_valves (t : Target) (c : Cause) (x : Bool) (s : State) : (ringAdd t c x s).valves = s.valves := by
  unfold ringAdd; (repeat' split) <;> simp
@[simp] theorem ringAdd_drip (t : Target) (c : Cause) (x : Bool) (s : State) : (ringAdd t c x s).drip = s.drip := by
  unfold ringAdd; (repeat' split) <;> simp
@[simp] theorem ringAdd_iso (t : Target) (c : Cause) (x : Bool) (s : State) : (ringAdd t c x s).iso = s.iso := by
  unfold ringAdd; (repeat' split) <;> simp
@[simp] theorem ringAdd_lines (t : Target) (c : Cause) (x : Bool) (s : State) : (ringAdd t c x s).lines = s.lines := by
  unfold ringAdd; (repeat' split) <;> simp
@[simp] theorem ringAdd_windows (t : Target) (c : Cause) (x : Bool) (s : State) : (ringAdd t c x s).windows = s.windows := by
  unfold ringAdd; (repeat' split) <;> simp
@[simp] theorem ringAdd_loader (t : Target) (c : Cause) (x : Bool) (s : State) : (ringAdd t c x s).loader = s.loader := by
  unfold ringAdd; (repeat' split) <;> simp
@[simp] theorem ringAdd_params (t : Target) (c : Cause) (x : Bool) (s : State) : (ringAdd t c x s).params = s.params := by
  unfold ringAdd; (repeat' split) <;> simp
@[simp] theorem ringAdd_eeprom (t : Target) (c : Cause) (x : Bool) (s : State) : (ringAdd t c x s).eeprom = s.eeprom := by
  unfold ringAdd; (repeat' split) <;> simp
@[simp] theorem ringAdd_pins (t : Target) (c : Cause) (x : Bool) (s : State) : (ringAdd t c x s).pins = s.pins := by
  unfold ringAdd; (repeat' split) <;> simp
@[simp] theorem ringAdd_sampleTimer (t : Target) (c : Cause) (x : Bool) (s : State) : (ringAdd t c x s).sampleTimer = s.sampleTimer := by
  unfold ringAdd; (repeat' split) <;> simp
@[simp] theorem ringAdd_freeCount (t : Target) (c : Cause) (x : Bool) (s : State) : (ringAdd t c x s).freeCount = s.freeCount := by
  unfold ringAdd; (repeat' split) <;> simp
@[simp] theorem ringAdd_pending (t : Target) (c : Cause) (x : Bool) (s : State) : (ringAdd t c x s).pending = s.pending := by
  unfold ringAdd; (repeat' split) <;> simp

/-! ## markHotPull -/

@[simp] theorem markHotPull_branches (b : BranchNo) (s : State) : (markHotPull b s).branches = s.branches := by
  unfold markHotPull; (repeat' split) <;> simp
@[simp] theorem markHotPull_rail (b : BranchNo) (s : State) : (markHotPull b s).rail = s.rail := by
  unfold markHotPull; (repeat' split) <;> simp
@[simp] theorem markHotPull_meter (b : BranchNo) (s : State) : (markHotPull b s).meter = s.meter := by
  unfold markHotPull; (repeat' split) <;> simp
@[simp] theorem markHotPull_alloc (b : BranchNo) (s : State) : (markHotPull b s).alloc = s.alloc := by
  unfold markHotPull; (repeat' split) <;> simp
@[simp] theorem markHotPull_valves (b : BranchNo) (s : State) : (markHotPull b s).valves = s.valves := by
  unfold markHotPull; (repeat' split) <;> simp
@[simp] theorem markHotPull_drip (b : BranchNo) (s : State) : (markHotPull b s).drip = s.drip := by
  unfold markHotPull; (repeat' split) <;> simp
@[simp] theorem markHotPull_iso (b : BranchNo) (s : State) : (markHotPull b s).iso = s.iso := by
  unfold markHotPull; (repeat' split) <;> simp
@[simp] theorem markHotPull_lines (b : BranchNo) (s : State) : (markHotPull b s).lines = s.lines := by
  unfold markHotPull; (repeat' split) <;> simp
@[simp] theorem markHotPull_windows (b : BranchNo) (s : State) : (markHotPull b s).windows = s.windows := by
  unfold markHotPull; (repeat' split) <;> simp
@[simp] theorem markHotPull_attn (b : BranchNo) (s : State) : (markHotPull b s).attn = s.attn := by
  unfold markHotPull; (repeat' split) <;> simp
@[simp] theorem markHotPull_loader (b : BranchNo) (s : State) : (markHotPull b s).loader = s.loader := by
  unfold markHotPull; (repeat' split) <;> simp
@[simp] theorem markHotPull_params (b : BranchNo) (s : State) : (markHotPull b s).params = s.params := by
  unfold markHotPull; (repeat' split) <;> simp
@[simp] theorem markHotPull_eeprom (b : BranchNo) (s : State) : (markHotPull b s).eeprom = s.eeprom := by
  unfold markHotPull; (repeat' split) <;> simp
@[simp] theorem markHotPull_pins (b : BranchNo) (s : State) : (markHotPull b s).pins = s.pins := by
  unfold markHotPull; (repeat' split) <;> simp
@[simp] theorem markHotPull_sampleTimer (b : BranchNo) (s : State) : (markHotPull b s).sampleTimer = s.sampleTimer := by
  unfold markHotPull; (repeat' split) <;> simp
@[simp] theorem markHotPull_freeCount (b : BranchNo) (s : State) : (markHotPull b s).freeCount = s.freeCount := by
  unfold markHotPull; (repeat' split) <;> simp
@[simp] theorem markHotPull_pending (b : BranchNo) (s : State) : (markHotPull b s).pending = s.pending := by
  unfold markHotPull; (repeat' split) <;> simp

/-! ## addLoss -/

@[simp] theorem addLoss_branches (t : Target) (d : Int) (s : State) : (addLoss t d s).branches = s.branches := by
  unfold addLoss; (repeat' split) <;> simp
@[simp] theorem addLoss_rail (t : Target) (d : Int) (s : State) : (addLoss t d s).rail = s.rail := by
  unfold addLoss; (repeat' split) <;> simp
@[simp] theorem addLoss_meter (t : Target) (d : Int) (s : State) : (addLoss t d s).meter = s.meter := by
  unfold addLoss; (repeat' split) <;> simp
@[simp] theorem addLoss_alloc (t : Target) (d : Int) (s : State) : (addLoss t d s).alloc = s.alloc := by
  unfold addLoss; (repeat' split) <;> simp
@[simp] theorem addLoss_valves (t : Target) (d : Int) (s : State) : (addLoss t d s).valves = s.valves := by
  unfold addLoss; (repeat' split) <;> simp
@[simp] theorem addLoss_drip (t : Target) (d : Int) (s : State) : (addLoss t d s).drip = s.drip := by
  unfold addLoss; (repeat' split) <;> simp
@[simp] theorem addLoss_iso (t : Target) (d : Int) (s : State) : (addLoss t d s).iso = s.iso := by
  unfold addLoss; (repeat' split) <;> simp
@[simp] theorem addLoss_lines (t : Target) (d : Int) (s : State) : (addLoss t d s).lines = s.lines := by
  unfold addLoss; (repeat' split) <;> simp
@[simp] theorem addLoss_windows (t : Target) (d : Int) (s : State) : (addLoss t d s).windows = s.windows := by
  unfold addLoss; (repeat' split) <;> simp
@[simp] theorem addLoss_attn (t : Target) (d : Int) (s : State) : (addLoss t d s).attn = s.attn := by
  unfold addLoss; (repeat' split) <;> simp
@[simp] theorem addLoss_loader (t : Target) (d : Int) (s : State) : (addLoss t d s).loader = s.loader := by
  unfold addLoss; (repeat' split) <;> simp
@[simp] theorem addLoss_params (t : Target) (d : Int) (s : State) : (addLoss t d s).params = s.params := by
  unfold addLoss; (repeat' split) <;> simp
@[simp] theorem addLoss_eeprom (t : Target) (d : Int) (s : State) : (addLoss t d s).eeprom = s.eeprom := by
  unfold addLoss; (repeat' split) <;> simp
@[simp] theorem addLoss_pins (t : Target) (d : Int) (s : State) : (addLoss t d s).pins = s.pins := by
  unfold addLoss; (repeat' split) <;> simp
@[simp] theorem addLoss_sampleTimer (t : Target) (d : Int) (s : State) : (addLoss t d s).sampleTimer = s.sampleTimer := by
  unfold addLoss; (repeat' split) <;> simp
@[simp] theorem addLoss_freeCount (t : Target) (d : Int) (s : State) : (addLoss t d s).freeCount = s.freeCount := by
  unfold addLoss; (repeat' split) <;> simp
@[simp] theorem addLoss_pending (t : Target) (d : Int) (s : State) : (addLoss t d s).pending = s.pending := by
  unfold addLoss; (repeat' split) <;> simp

/-! ## enterPriming -/

@[simp] theorem enterPriming_rail (b : BranchNo) (s : State) : (enterPriming b s).rail = s.rail := rfl
@[simp] theorem enterPriming_meter (b : BranchNo) (s : State) : (enterPriming b s).meter = s.meter := rfl
@[simp] theorem enterPriming_alloc (b : BranchNo) (s : State) : (enterPriming b s).alloc = s.alloc := rfl
@[simp] theorem enterPriming_valves (b : BranchNo) (s : State) : (enterPriming b s).valves = s.valves := rfl
@[simp] theorem enterPriming_drip (b : BranchNo) (s : State) : (enterPriming b s).drip = s.drip := rfl
@[simp] theorem enterPriming_iso (b : BranchNo) (s : State) : (enterPriming b s).iso = s.iso := rfl
@[simp] theorem enterPriming_ring (b : BranchNo) (s : State) : (enterPriming b s).ring = s.ring := rfl
@[simp] theorem enterPriming_lines (b : BranchNo) (s : State) : (enterPriming b s).lines = s.lines := rfl
@[simp] theorem enterPriming_windows (b : BranchNo) (s : State) : (enterPriming b s).windows = s.windows := rfl
@[simp] theorem enterPriming_attn (b : BranchNo) (s : State) : (enterPriming b s).attn = s.attn := rfl
@[simp] theorem enterPriming_loader (b : BranchNo) (s : State) : (enterPriming b s).loader = s.loader := rfl
@[simp] theorem enterPriming_params (b : BranchNo) (s : State) : (enterPriming b s).params = s.params := rfl
@[simp] theorem enterPriming_eeprom (b : BranchNo) (s : State) : (enterPriming b s).eeprom = s.eeprom := rfl
@[simp] theorem enterPriming_pins (b : BranchNo) (s : State) : (enterPriming b s).pins = s.pins := rfl
@[simp] theorem enterPriming_sampleTimer (b : BranchNo) (s : State) : (enterPriming b s).sampleTimer = s.sampleTimer := rfl
@[simp] theorem enterPriming_freeCount (b : BranchNo) (s : State) : (enterPriming b s).freeCount = s.freeCount := rfl
@[simp] theorem enterPriming_pending (b : BranchNo) (s : State) : (enterPriming b s).pending = s.pending := rfl

/-! ## gate -/

@[simp] theorem gate_rail (b : BranchNo) (s : State) : (gate b s).rail = s.rail := by
  unfold gate; (repeat' split) <;> simp
@[simp] theorem gate_meter (b : BranchNo) (s : State) : (gate b s).meter = s.meter := by
  unfold gate; (repeat' split) <;> simp
@[simp] theorem gate_alloc (b : BranchNo) (s : State) : (gate b s).alloc = s.alloc := by
  unfold gate; (repeat' split) <;> simp
@[simp] theorem gate_valves (b : BranchNo) (s : State) : (gate b s).valves = s.valves := by
  unfold gate; (repeat' split) <;> simp
@[simp] theorem gate_drip (b : BranchNo) (s : State) : (gate b s).drip = s.drip := by
  unfold gate; (repeat' split) <;> simp
@[simp] theorem gate_iso (b : BranchNo) (s : State) : (gate b s).iso = s.iso := by
  unfold gate; (repeat' split) <;> simp
@[simp] theorem gate_ring (b : BranchNo) (s : State) : (gate b s).ring = s.ring := by
  unfold gate; (repeat' split) <;> simp
@[simp] theorem gate_lines (b : BranchNo) (s : State) : (gate b s).lines = s.lines := by
  unfold gate; (repeat' split) <;> simp
@[simp] theorem gate_windows (b : BranchNo) (s : State) : (gate b s).windows = s.windows := by
  unfold gate; (repeat' split) <;> simp
@[simp] theorem gate_attn (b : BranchNo) (s : State) : (gate b s).attn = s.attn := by
  unfold gate; (repeat' split) <;> simp
@[simp] theorem gate_loader (b : BranchNo) (s : State) : (gate b s).loader = s.loader := by
  unfold gate; (repeat' split) <;> simp
@[simp] theorem gate_params (b : BranchNo) (s : State) : (gate b s).params = s.params := by
  unfold gate; (repeat' split) <;> simp
@[simp] theorem gate_eeprom (b : BranchNo) (s : State) : (gate b s).eeprom = s.eeprom := by
  unfold gate; (repeat' split) <;> simp
@[simp] theorem gate_pins (b : BranchNo) (s : State) : (gate b s).pins = s.pins := by
  unfold gate; (repeat' split) <;> simp
@[simp] theorem gate_sampleTimer (b : BranchNo) (s : State) : (gate b s).sampleTimer = s.sampleTimer := by
  unfold gate; (repeat' split) <;> simp
@[simp] theorem gate_freeCount (b : BranchNo) (s : State) : (gate b s).freeCount = s.freeCount := by
  unfold gate; (repeat' split) <;> simp
@[simp] theorem gate_pending (b : BranchNo) (s : State) : (gate b s).pending = s.pending := by
  unfold gate; (repeat' split) <;> simp

/-! ## gateAll -/

@[simp] theorem gateAll_rail (s : State) : (gateAll s).rail = s.rail := forBranches_keeps (fun s : State => s.rail) gate (fun b s => by simp) s
@[simp] theorem gateAll_meter (s : State) : (gateAll s).meter = s.meter := forBranches_keeps (fun s : State => s.meter) gate (fun b s => by simp) s
@[simp] theorem gateAll_alloc (s : State) : (gateAll s).alloc = s.alloc := forBranches_keeps (fun s : State => s.alloc) gate (fun b s => by simp) s
@[simp] theorem gateAll_valves (s : State) : (gateAll s).valves = s.valves := forBranches_keeps (fun s : State => s.valves) gate (fun b s => by simp) s
@[simp] theorem gateAll_drip (s : State) : (gateAll s).drip = s.drip := forBranches_keeps (fun s : State => s.drip) gate (fun b s => by simp) s
@[simp] theorem gateAll_iso (s : State) : (gateAll s).iso = s.iso := forBranches_keeps (fun s : State => s.iso) gate (fun b s => by simp) s
@[simp] theorem gateAll_ring (s : State) : (gateAll s).ring = s.ring := forBranches_keeps (fun s : State => s.ring) gate (fun b s => by simp) s
@[simp] theorem gateAll_lines (s : State) : (gateAll s).lines = s.lines := forBranches_keeps (fun s : State => s.lines) gate (fun b s => by simp) s
@[simp] theorem gateAll_windows (s : State) : (gateAll s).windows = s.windows := forBranches_keeps (fun s : State => s.windows) gate (fun b s => by simp) s
@[simp] theorem gateAll_attn (s : State) : (gateAll s).attn = s.attn := forBranches_keeps (fun s : State => s.attn) gate (fun b s => by simp) s
@[simp] theorem gateAll_loader (s : State) : (gateAll s).loader = s.loader := forBranches_keeps (fun s : State => s.loader) gate (fun b s => by simp) s
@[simp] theorem gateAll_params (s : State) : (gateAll s).params = s.params := forBranches_keeps (fun s : State => s.params) gate (fun b s => by simp) s
@[simp] theorem gateAll_eeprom (s : State) : (gateAll s).eeprom = s.eeprom := forBranches_keeps (fun s : State => s.eeprom) gate (fun b s => by simp) s
@[simp] theorem gateAll_pins (s : State) : (gateAll s).pins = s.pins := forBranches_keeps (fun s : State => s.pins) gate (fun b s => by simp) s
@[simp] theorem gateAll_sampleTimer (s : State) : (gateAll s).sampleTimer = s.sampleTimer := forBranches_keeps (fun s : State => s.sampleTimer) gate (fun b s => by simp) s
@[simp] theorem gateAll_freeCount (s : State) : (gateAll s).freeCount = s.freeCount := forBranches_keeps (fun s : State => s.freeCount) gate (fun b s => by simp) s
@[simp] theorem gateAll_pending (s : State) : (gateAll s).pending = s.pending := forBranches_keeps (fun s : State => s.pending) gate (fun b s => by simp) s

/-! ## addCauseCore -/

@[simp] theorem addCauseCore_meter (b : BranchNo) (c : BranchCause) (x : Bool) (s : State) : (addCauseCore b c x s).meter = s.meter := by
  unfold addCauseCore; (repeat' split) <;> simp
@[simp] theorem addCauseCore_alloc (b : BranchNo) (c : BranchCause) (x : Bool) (s : State) : (addCauseCore b c x s).alloc = s.alloc := by
  unfold addCauseCore; (repeat' split) <;> simp
@[simp] theorem addCauseCore_valves (b : BranchNo) (c : BranchCause) (x : Bool) (s : State) : (addCauseCore b c x s).valves = s.valves := by
  unfold addCauseCore; (repeat' split) <;> simp
@[simp] theorem addCauseCore_drip (b : BranchNo) (c : BranchCause) (x : Bool) (s : State) : (addCauseCore b c x s).drip = s.drip := by
  unfold addCauseCore; (repeat' split) <;> simp
@[simp] theorem addCauseCore_iso (b : BranchNo) (c : BranchCause) (x : Bool) (s : State) : (addCauseCore b c x s).iso = s.iso := by
  unfold addCauseCore; (repeat' split) <;> simp
@[simp] theorem addCauseCore_lines (b : BranchNo) (c : BranchCause) (x : Bool) (s : State) : (addCauseCore b c x s).lines = s.lines := by
  unfold addCauseCore; (repeat' split) <;> simp
@[simp] theorem addCauseCore_windows (b : BranchNo) (c : BranchCause) (x : Bool) (s : State) : (addCauseCore b c x s).windows = s.windows := by
  unfold addCauseCore; (repeat' split) <;> simp
@[simp] theorem addCauseCore_loader (b : BranchNo) (c : BranchCause) (x : Bool) (s : State) : (addCauseCore b c x s).loader = s.loader := by
  unfold addCauseCore; (repeat' split) <;> simp
@[simp] theorem addCauseCore_params (b : BranchNo) (c : BranchCause) (x : Bool) (s : State) : (addCauseCore b c x s).params = s.params := by
  unfold addCauseCore; (repeat' split) <;> simp
@[simp] theorem addCauseCore_eeprom (b : BranchNo) (c : BranchCause) (x : Bool) (s : State) : (addCauseCore b c x s).eeprom = s.eeprom := by
  unfold addCauseCore; (repeat' split) <;> simp
@[simp] theorem addCauseCore_pins (b : BranchNo) (c : BranchCause) (x : Bool) (s : State) : (addCauseCore b c x s).pins = s.pins := by
  unfold addCauseCore; (repeat' split) <;> simp
@[simp] theorem addCauseCore_sampleTimer (b : BranchNo) (c : BranchCause) (x : Bool) (s : State) : (addCauseCore b c x s).sampleTimer = s.sampleTimer := by
  unfold addCauseCore; (repeat' split) <;> simp
@[simp] theorem addCauseCore_freeCount (b : BranchNo) (c : BranchCause) (x : Bool) (s : State) : (addCauseCore b c x s).freeCount = s.freeCount := by
  unfold addCauseCore; (repeat' split) <;> simp
@[simp] theorem addCauseCore_pending (b : BranchNo) (c : BranchCause) (x : Bool) (s : State) : (addCauseCore b c x s).pending = s.pending := by
  unfold addCauseCore; (repeat' split) <;> simp

/-! ## leftVacant -/

@[simp] theorem leftVacant_meter (b : BranchNo) (s : State) : (leftVacant b s).meter = s.meter := by
  unfold leftVacant; (repeat' split) <;> simp
@[simp] theorem leftVacant_alloc (b : BranchNo) (s : State) : (leftVacant b s).alloc = s.alloc := by
  unfold leftVacant; (repeat' split) <;> simp
@[simp] theorem leftVacant_valves (b : BranchNo) (s : State) : (leftVacant b s).valves = s.valves := by
  unfold leftVacant; (repeat' split) <;> simp
@[simp] theorem leftVacant_drip (b : BranchNo) (s : State) : (leftVacant b s).drip = s.drip := by
  unfold leftVacant; (repeat' split) <;> simp
@[simp] theorem leftVacant_iso (b : BranchNo) (s : State) : (leftVacant b s).iso = s.iso := by
  unfold leftVacant; (repeat' split) <;> simp
@[simp] theorem leftVacant_lines (b : BranchNo) (s : State) : (leftVacant b s).lines = s.lines := by
  unfold leftVacant; (repeat' split) <;> simp
@[simp] theorem leftVacant_windows (b : BranchNo) (s : State) : (leftVacant b s).windows = s.windows := by
  unfold leftVacant; (repeat' split) <;> simp
@[simp] theorem leftVacant_loader (b : BranchNo) (s : State) : (leftVacant b s).loader = s.loader := by
  unfold leftVacant; (repeat' split) <;> simp
@[simp] theorem leftVacant_params (b : BranchNo) (s : State) : (leftVacant b s).params = s.params := by
  unfold leftVacant; (repeat' split) <;> simp
@[simp] theorem leftVacant_eeprom (b : BranchNo) (s : State) : (leftVacant b s).eeprom = s.eeprom := by
  unfold leftVacant; (repeat' split) <;> simp
@[simp] theorem leftVacant_pins (b : BranchNo) (s : State) : (leftVacant b s).pins = s.pins := by
  unfold leftVacant; (repeat' split) <;> simp
@[simp] theorem leftVacant_sampleTimer (b : BranchNo) (s : State) : (leftVacant b s).sampleTimer = s.sampleTimer := by
  unfold leftVacant; (repeat' split) <;> simp
@[simp] theorem leftVacant_freeCount (b : BranchNo) (s : State) : (leftVacant b s).freeCount = s.freeCount := by
  unfold leftVacant; (repeat' split) <;> simp
@[simp] theorem leftVacant_pending (b : BranchNo) (s : State) : (leftVacant b s).pending = s.pending := by
  unfold leftVacant; (repeat' split) <;> simp

/-! ## addBranchCause -/

@[simp] theorem addBranchCause_meter (b : BranchNo) (c : BranchCause) (x : Bool) (s : State) : (addBranchCause b c x s).meter = s.meter := by
  unfold addBranchCause; dsimp only; split <;> simp
@[simp] theorem addBranchCause_alloc (b : BranchNo) (c : BranchCause) (x : Bool) (s : State) : (addBranchCause b c x s).alloc = s.alloc := by
  unfold addBranchCause; dsimp only; split <;> simp
@[simp] theorem addBranchCause_valves (b : BranchNo) (c : BranchCause) (x : Bool) (s : State) : (addBranchCause b c x s).valves = s.valves := by
  unfold addBranchCause; dsimp only; split <;> simp
@[simp] theorem addBranchCause_drip (b : BranchNo) (c : BranchCause) (x : Bool) (s : State) : (addBranchCause b c x s).drip = s.drip := by
  unfold addBranchCause; dsimp only; split <;> simp
@[simp] theorem addBranchCause_iso (b : BranchNo) (c : BranchCause) (x : Bool) (s : State) : (addBranchCause b c x s).iso = s.iso := by
  unfold addBranchCause; dsimp only; split <;> simp
@[simp] theorem addBranchCause_lines (b : BranchNo) (c : BranchCause) (x : Bool) (s : State) : (addBranchCause b c x s).lines = s.lines := by
  unfold addBranchCause; dsimp only; split <;> simp
@[simp] theorem addBranchCause_windows (b : BranchNo) (c : BranchCause) (x : Bool) (s : State) : (addBranchCause b c x s).windows = s.windows := by
  unfold addBranchCause; dsimp only; split <;> simp
@[simp] theorem addBranchCause_loader (b : BranchNo) (c : BranchCause) (x : Bool) (s : State) : (addBranchCause b c x s).loader = s.loader := by
  unfold addBranchCause; dsimp only; split <;> simp
@[simp] theorem addBranchCause_params (b : BranchNo) (c : BranchCause) (x : Bool) (s : State) : (addBranchCause b c x s).params = s.params := by
  unfold addBranchCause; dsimp only; split <;> simp
@[simp] theorem addBranchCause_eeprom (b : BranchNo) (c : BranchCause) (x : Bool) (s : State) : (addBranchCause b c x s).eeprom = s.eeprom := by
  unfold addBranchCause; dsimp only; split <;> simp
@[simp] theorem addBranchCause_pins (b : BranchNo) (c : BranchCause) (x : Bool) (s : State) : (addBranchCause b c x s).pins = s.pins := by
  unfold addBranchCause; dsimp only; split <;> simp
@[simp] theorem addBranchCause_sampleTimer (b : BranchNo) (c : BranchCause) (x : Bool) (s : State) : (addBranchCause b c x s).sampleTimer = s.sampleTimer := by
  unfold addBranchCause; dsimp only; split <;> simp
@[simp] theorem addBranchCause_freeCount (b : BranchNo) (c : BranchCause) (x : Bool) (s : State) : (addBranchCause b c x s).freeCount = s.freeCount := by
  unfold addBranchCause; dsimp only; split <;> simp
@[simp] theorem addBranchCause_pending (b : BranchNo) (c : BranchCause) (x : Bool) (s : State) : (addBranchCause b c x s).pending = s.pending := by
  unfold addBranchCause; dsimp only; split <;> simp

/-! ## addRailToOccupied -/

@[simp] theorem addRailToOccupied_meter (s : State) : (addRailToOccupied s).meter = s.meter := by
  unfold addRailToOccupied
  apply forBranches_keeps (fun s : State => s.meter)
  intro b s
  split_ifs <;> simp
@[simp] theorem addRailToOccupied_alloc (s : State) : (addRailToOccupied s).alloc = s.alloc := by
  unfold addRailToOccupied
  apply forBranches_keeps (fun s : State => s.alloc)
  intro b s
  split_ifs <;> simp
@[simp] theorem addRailToOccupied_valves (s : State) : (addRailToOccupied s).valves = s.valves := by
  unfold addRailToOccupied
  apply forBranches_keeps (fun s : State => s.valves)
  intro b s
  split_ifs <;> simp
@[simp] theorem addRailToOccupied_drip (s : State) : (addRailToOccupied s).drip = s.drip := by
  unfold addRailToOccupied
  apply forBranches_keeps (fun s : State => s.drip)
  intro b s
  split_ifs <;> simp
@[simp] theorem addRailToOccupied_iso (s : State) : (addRailToOccupied s).iso = s.iso := by
  unfold addRailToOccupied
  apply forBranches_keeps (fun s : State => s.iso)
  intro b s
  split_ifs <;> simp
@[simp] theorem addRailToOccupied_lines (s : State) : (addRailToOccupied s).lines = s.lines := by
  unfold addRailToOccupied
  apply forBranches_keeps (fun s : State => s.lines)
  intro b s
  split_ifs <;> simp
@[simp] theorem addRailToOccupied_windows (s : State) : (addRailToOccupied s).windows = s.windows := by
  unfold addRailToOccupied
  apply forBranches_keeps (fun s : State => s.windows)
  intro b s
  split_ifs <;> simp
@[simp] theorem addRailToOccupied_loader (s : State) : (addRailToOccupied s).loader = s.loader := by
  unfold addRailToOccupied
  apply forBranches_keeps (fun s : State => s.loader)
  intro b s
  split_ifs <;> simp
@[simp] theorem addRailToOccupied_params (s : State) : (addRailToOccupied s).params = s.params := by
  unfold addRailToOccupied
  apply forBranches_keeps (fun s : State => s.params)
  intro b s
  split_ifs <;> simp
@[simp] theorem addRailToOccupied_eeprom (s : State) : (addRailToOccupied s).eeprom = s.eeprom := by
  unfold addRailToOccupied
  apply forBranches_keeps (fun s : State => s.eeprom)
  intro b s
  split_ifs <;> simp
@[simp] theorem addRailToOccupied_pins (s : State) : (addRailToOccupied s).pins = s.pins := by
  unfold addRailToOccupied
  apply forBranches_keeps (fun s : State => s.pins)
  intro b s
  split_ifs <;> simp
@[simp] theorem addRailToOccupied_sampleTimer (s : State) : (addRailToOccupied s).sampleTimer = s.sampleTimer := by
  unfold addRailToOccupied
  apply forBranches_keeps (fun s : State => s.sampleTimer)
  intro b s
  split_ifs <;> simp
@[simp] theorem addRailToOccupied_freeCount (s : State) : (addRailToOccupied s).freeCount = s.freeCount := by
  unfold addRailToOccupied
  apply forBranches_keeps (fun s : State => s.freeCount)
  intro b s
  split_ifs <;> simp
@[simp] theorem addRailToOccupied_pending (s : State) : (addRailToOccupied s).pending = s.pending := by
  unfold addRailToOccupied
  apply forBranches_keeps (fun s : State => s.pending)
  intro b s
  split_ifs <;> simp

/-! ## enterClosing -/

@[simp] theorem enterClosing_branches (s : State) : (enterClosing s).branches = s.branches := rfl
@[simp] theorem enterClosing_meter (s : State) : (enterClosing s).meter = s.meter := rfl
@[simp] theorem enterClosing_alloc (s : State) : (enterClosing s).alloc = s.alloc := rfl
@[simp] theorem enterClosing_drip (s : State) : (enterClosing s).drip = s.drip := rfl
@[simp] theorem enterClosing_iso (s : State) : (enterClosing s).iso = s.iso := rfl
@[simp] theorem enterClosing_ring (s : State) : (enterClosing s).ring = s.ring := rfl
@[simp] theorem enterClosing_lines (s : State) : (enterClosing s).lines = s.lines := rfl
@[simp] theorem enterClosing_windows (s : State) : (enterClosing s).windows = s.windows := rfl
@[simp] theorem enterClosing_attn (s : State) : (enterClosing s).attn = s.attn := rfl
@[simp] theorem enterClosing_loader (s : State) : (enterClosing s).loader = s.loader := rfl
@[simp] theorem enterClosing_params (s : State) : (enterClosing s).params = s.params := rfl
@[simp] theorem enterClosing_eeprom (s : State) : (enterClosing s).eeprom = s.eeprom := rfl
@[simp] theorem enterClosing_pins (s : State) : (enterClosing s).pins = s.pins := rfl
@[simp] theorem enterClosing_sampleTimer (s : State) : (enterClosing s).sampleTimer = s.sampleTimer := rfl
@[simp] theorem enterClosing_freeCount (s : State) : (enterClosing s).freeCount = s.freeCount := rfl
@[simp] theorem enterClosing_pending (s : State) : (enterClosing s).pending = s.pending := rfl

/-! ## enterOpening -/

@[simp] theorem enterOpening_branches (s : State) : (enterOpening s).branches = s.branches := rfl
@[simp] theorem enterOpening_meter (s : State) : (enterOpening s).meter = s.meter := rfl
@[simp] theorem enterOpening_alloc (s : State) : (enterOpening s).alloc = s.alloc := rfl
@[simp] theorem enterOpening_drip (s : State) : (enterOpening s).drip = s.drip := rfl
@[simp] theorem enterOpening_iso (s : State) : (enterOpening s).iso = s.iso := rfl
@[simp] theorem enterOpening_ring (s : State) : (enterOpening s).ring = s.ring := rfl
@[simp] theorem enterOpening_lines (s : State) : (enterOpening s).lines = s.lines := rfl
@[simp] theorem enterOpening_windows (s : State) : (enterOpening s).windows = s.windows := rfl
@[simp] theorem enterOpening_attn (s : State) : (enterOpening s).attn = s.attn := rfl
@[simp] theorem enterOpening_loader (s : State) : (enterOpening s).loader = s.loader := rfl
@[simp] theorem enterOpening_params (s : State) : (enterOpening s).params = s.params := rfl
@[simp] theorem enterOpening_eeprom (s : State) : (enterOpening s).eeprom = s.eeprom := rfl
@[simp] theorem enterOpening_pins (s : State) : (enterOpening s).pins = s.pins := rfl
@[simp] theorem enterOpening_sampleTimer (s : State) : (enterOpening s).sampleTimer = s.sampleTimer := rfl
@[simp] theorem enterOpening_freeCount (s : State) : (enterOpening s).freeCount = s.freeCount := rfl
@[simp] theorem enterOpening_pending (s : State) : (enterOpening s).pending = s.pending := rfl

/-! ## driveTripOut -/

@[simp] theorem driveTripOut_branches (s : State) : (driveTripOut s).branches = s.branches := rfl
@[simp] theorem driveTripOut_rail (s : State) : (driveTripOut s).rail = s.rail := rfl
@[simp] theorem driveTripOut_meter (s : State) : (driveTripOut s).meter = s.meter := rfl
@[simp] theorem driveTripOut_alloc (s : State) : (driveTripOut s).alloc = s.alloc := rfl
@[simp] theorem driveTripOut_valves (s : State) : (driveTripOut s).valves = s.valves := rfl
@[simp] theorem driveTripOut_drip (s : State) : (driveTripOut s).drip = s.drip := rfl
@[simp] theorem driveTripOut_ring (s : State) : (driveTripOut s).ring = s.ring := rfl
@[simp] theorem driveTripOut_lines (s : State) : (driveTripOut s).lines = s.lines := rfl
@[simp] theorem driveTripOut_windows (s : State) : (driveTripOut s).windows = s.windows := rfl
@[simp] theorem driveTripOut_attn (s : State) : (driveTripOut s).attn = s.attn := rfl
@[simp] theorem driveTripOut_loader (s : State) : (driveTripOut s).loader = s.loader := rfl
@[simp] theorem driveTripOut_params (s : State) : (driveTripOut s).params = s.params := rfl
@[simp] theorem driveTripOut_eeprom (s : State) : (driveTripOut s).eeprom = s.eeprom := rfl
@[simp] theorem driveTripOut_pins (s : State) : (driveTripOut s).pins = s.pins := rfl
@[simp] theorem driveTripOut_sampleTimer (s : State) : (driveTripOut s).sampleTimer = s.sampleTimer := rfl
@[simp] theorem driveTripOut_freeCount (s : State) : (driveTripOut s).freeCount = s.freeCount := rfl
@[simp] theorem driveTripOut_pending (s : State) : (driveTripOut s).pending = s.pending := rfl

/-! ## railRespond -/

@[simp] theorem railRespond_meter (s : State) : (railRespond s).meter = s.meter := by
  unfold railRespond; (repeat' split) <;> simp
@[simp] theorem railRespond_alloc (s : State) : (railRespond s).alloc = s.alloc := by
  unfold railRespond; (repeat' split) <;> simp
@[simp] theorem railRespond_drip (s : State) : (railRespond s).drip = s.drip := by
  unfold railRespond; (repeat' split) <;> simp
@[simp] theorem railRespond_iso (s : State) : (railRespond s).iso = s.iso := by
  unfold railRespond; (repeat' split) <;> simp
@[simp] theorem railRespond_lines (s : State) : (railRespond s).lines = s.lines := by
  unfold railRespond; (repeat' split) <;> simp
@[simp] theorem railRespond_windows (s : State) : (railRespond s).windows = s.windows := by
  unfold railRespond; (repeat' split) <;> simp
@[simp] theorem railRespond_loader (s : State) : (railRespond s).loader = s.loader := by
  unfold railRespond; (repeat' split) <;> simp
@[simp] theorem railRespond_params (s : State) : (railRespond s).params = s.params := by
  unfold railRespond; (repeat' split) <;> simp
@[simp] theorem railRespond_eeprom (s : State) : (railRespond s).eeprom = s.eeprom := by
  unfold railRespond; (repeat' split) <;> simp
@[simp] theorem railRespond_pins (s : State) : (railRespond s).pins = s.pins := by
  unfold railRespond; (repeat' split) <;> simp
@[simp] theorem railRespond_sampleTimer (s : State) : (railRespond s).sampleTimer = s.sampleTimer := by
  unfold railRespond; (repeat' split) <;> simp
@[simp] theorem railRespond_freeCount (s : State) : (railRespond s).freeCount = s.freeCount := by
  unfold railRespond; (repeat' split) <;> simp
@[simp] theorem railRespond_pending (s : State) : (railRespond s).pending = s.pending := by
  unfold railRespond; (repeat' split) <;> simp

/-! ## addRailCause -/

@[simp] theorem addRailCause_meter (c : RailCause) (s : State) : (addRailCause c s).meter = s.meter := by
  unfold addRailCause; (repeat' split) <;> simp
@[simp] theorem addRailCause_alloc (c : RailCause) (s : State) : (addRailCause c s).alloc = s.alloc := by
  unfold addRailCause; (repeat' split) <;> simp
@[simp] theorem addRailCause_drip (c : RailCause) (s : State) : (addRailCause c s).drip = s.drip := by
  unfold addRailCause; (repeat' split) <;> simp
@[simp] theorem addRailCause_lines (c : RailCause) (s : State) : (addRailCause c s).lines = s.lines := by
  unfold addRailCause; (repeat' split) <;> simp
@[simp] theorem addRailCause_windows (c : RailCause) (s : State) : (addRailCause c s).windows = s.windows := by
  unfold addRailCause; (repeat' split) <;> simp
@[simp] theorem addRailCause_loader (c : RailCause) (s : State) : (addRailCause c s).loader = s.loader := by
  unfold addRailCause; (repeat' split) <;> simp
@[simp] theorem addRailCause_params (c : RailCause) (s : State) : (addRailCause c s).params = s.params := by
  unfold addRailCause; (repeat' split) <;> simp
@[simp] theorem addRailCause_eeprom (c : RailCause) (s : State) : (addRailCause c s).eeprom = s.eeprom := by
  unfold addRailCause; (repeat' split) <;> simp
@[simp] theorem addRailCause_pins (c : RailCause) (s : State) : (addRailCause c s).pins = s.pins := by
  unfold addRailCause; (repeat' split) <;> simp
@[simp] theorem addRailCause_sampleTimer (c : RailCause) (s : State) : (addRailCause c s).sampleTimer = s.sampleTimer := by
  unfold addRailCause; (repeat' split) <;> simp
@[simp] theorem addRailCause_freeCount (c : RailCause) (s : State) : (addRailCause c s).freeCount = s.freeCount := by
  unfold addRailCause; (repeat' split) <;> simp
@[simp] theorem addRailCause_pending (c : RailCause) (s : State) : (addRailCause c s).pending = s.pending := by
  unfold addRailCause; (repeat' split) <;> simp

/-! ## startLocate -/

@[simp] theorem startLocate_branches (n : StripNo) (s : State) : (startLocate n s).branches = s.branches := rfl
@[simp] theorem startLocate_rail (n : StripNo) (s : State) : (startLocate n s).rail = s.rail := rfl
@[simp] theorem startLocate_meter (n : StripNo) (s : State) : (startLocate n s).meter = s.meter := rfl
@[simp] theorem startLocate_alloc (n : StripNo) (s : State) : (startLocate n s).alloc = s.alloc := rfl
@[simp] theorem startLocate_valves (n : StripNo) (s : State) : (startLocate n s).valves = s.valves := rfl
@[simp] theorem startLocate_iso (n : StripNo) (s : State) : (startLocate n s).iso = s.iso := rfl
@[simp] theorem startLocate_ring (n : StripNo) (s : State) : (startLocate n s).ring = s.ring := rfl
@[simp] theorem startLocate_lines (n : StripNo) (s : State) : (startLocate n s).lines = s.lines := rfl
@[simp] theorem startLocate_windows (n : StripNo) (s : State) : (startLocate n s).windows = s.windows := rfl
@[simp] theorem startLocate_attn (n : StripNo) (s : State) : (startLocate n s).attn = s.attn := rfl
@[simp] theorem startLocate_loader (n : StripNo) (s : State) : (startLocate n s).loader = s.loader := rfl
@[simp] theorem startLocate_params (n : StripNo) (s : State) : (startLocate n s).params = s.params := rfl
@[simp] theorem startLocate_eeprom (n : StripNo) (s : State) : (startLocate n s).eeprom = s.eeprom := rfl
@[simp] theorem startLocate_pins (n : StripNo) (s : State) : (startLocate n s).pins = s.pins := rfl
@[simp] theorem startLocate_sampleTimer (n : StripNo) (s : State) : (startLocate n s).sampleTimer = s.sampleTimer := rfl
@[simp] theorem startLocate_freeCount (n : StripNo) (s : State) : (startLocate n s).freeCount = s.freeCount := rfl
@[simp] theorem startLocate_pending (n : StripNo) (s : State) : (startLocate n s).pending = s.pending := rfl

/-! ## commonWet -/

@[simp] theorem commonWet_meter (n : StripNo) (s : State) : (commonWet n s).meter = s.meter := by
  unfold commonWet; dsimp only; split <;> simp
@[simp] theorem commonWet_alloc (n : StripNo) (s : State) : (commonWet n s).alloc = s.alloc := by
  unfold commonWet; dsimp only; split <;> simp
@[simp] theorem commonWet_lines (n : StripNo) (s : State) : (commonWet n s).lines = s.lines := by
  unfold commonWet; dsimp only; split <;> simp
@[simp] theorem commonWet_windows (n : StripNo) (s : State) : (commonWet n s).windows = s.windows := by
  unfold commonWet; dsimp only; split <;> simp
@[simp] theorem commonWet_loader (n : StripNo) (s : State) : (commonWet n s).loader = s.loader := by
  unfold commonWet; dsimp only; split <;> simp
@[simp] theorem commonWet_params (n : StripNo) (s : State) : (commonWet n s).params = s.params := by
  unfold commonWet; dsimp only; split <;> simp
@[simp] theorem commonWet_eeprom (n : StripNo) (s : State) : (commonWet n s).eeprom = s.eeprom := by
  unfold commonWet; dsimp only; split <;> simp
@[simp] theorem commonWet_pins (n : StripNo) (s : State) : (commonWet n s).pins = s.pins := by
  unfold commonWet; dsimp only; split <;> simp
@[simp] theorem commonWet_sampleTimer (n : StripNo) (s : State) : (commonWet n s).sampleTimer = s.sampleTimer := by
  unfold commonWet; dsimp only; split <;> simp
@[simp] theorem commonWet_freeCount (n : StripNo) (s : State) : (commonWet n s).freeCount = s.freeCount := by
  unfold commonWet; dsimp only; split <;> simp
@[simp] theorem commonWet_pending (n : StripNo) (s : State) : (commonWet n s).pending = s.pending := by
  unfold commonWet; dsimp only; split <;> simp

/-! ## enterVacant -/

@[simp] theorem enterVacant_meter (b : BranchNo) (s : State) : (enterVacant b s).meter = s.meter := by
  unfold enterVacant; dsimp only; split <;> simp
@[simp] theorem enterVacant_alloc (b : BranchNo) (s : State) : (enterVacant b s).alloc = s.alloc := by
  unfold enterVacant; dsimp only; split <;> simp
@[simp] theorem enterVacant_lines (b : BranchNo) (s : State) : (enterVacant b s).lines = s.lines := by
  unfold enterVacant; dsimp only; split <;> simp
@[simp] theorem enterVacant_windows (b : BranchNo) (s : State) : (enterVacant b s).windows = s.windows := by
  unfold enterVacant; dsimp only; split <;> simp
@[simp] theorem enterVacant_loader (b : BranchNo) (s : State) : (enterVacant b s).loader = s.loader := by
  unfold enterVacant; dsimp only; split <;> simp
@[simp] theorem enterVacant_params (b : BranchNo) (s : State) : (enterVacant b s).params = s.params := by
  unfold enterVacant; dsimp only; split <;> simp
@[simp] theorem enterVacant_eeprom (b : BranchNo) (s : State) : (enterVacant b s).eeprom = s.eeprom := by
  unfold enterVacant; dsimp only; split <;> simp
@[simp] theorem enterVacant_pins (b : BranchNo) (s : State) : (enterVacant b s).pins = s.pins := by
  unfold enterVacant; dsimp only; split <;> simp
@[simp] theorem enterVacant_sampleTimer (b : BranchNo) (s : State) : (enterVacant b s).sampleTimer = s.sampleTimer := by
  unfold enterVacant; dsimp only; split <;> simp
@[simp] theorem enterVacant_freeCount (b : BranchNo) (s : State) : (enterVacant b s).freeCount = s.freeCount := by
  unfold enterVacant; dsimp only; split <;> simp
@[simp] theorem enterVacant_pending (b : BranchNo) (s : State) : (enterVacant b s).pending = s.pending := by
  unfold enterVacant; dsimp only; split <;> simp

/-! ## enterSeated -/

@[simp] theorem enterSeated_rail (b : BranchNo) (s : State) : (enterSeated b s).rail = s.rail := rfl
@[simp] theorem enterSeated_meter (b : BranchNo) (s : State) : (enterSeated b s).meter = s.meter := rfl
@[simp] theorem enterSeated_alloc (b : BranchNo) (s : State) : (enterSeated b s).alloc = s.alloc := rfl
@[simp] theorem enterSeated_valves (b : BranchNo) (s : State) : (enterSeated b s).valves = s.valves := rfl
@[simp] theorem enterSeated_drip (b : BranchNo) (s : State) : (enterSeated b s).drip = s.drip := rfl
@[simp] theorem enterSeated_iso (b : BranchNo) (s : State) : (enterSeated b s).iso = s.iso := rfl
@[simp] theorem enterSeated_ring (b : BranchNo) (s : State) : (enterSeated b s).ring = s.ring := rfl
@[simp] theorem enterSeated_lines (b : BranchNo) (s : State) : (enterSeated b s).lines = s.lines := rfl
@[simp] theorem enterSeated_windows (b : BranchNo) (s : State) : (enterSeated b s).windows = s.windows := rfl
@[simp] theorem enterSeated_attn (b : BranchNo) (s : State) : (enterSeated b s).attn = s.attn := rfl
@[simp] theorem enterSeated_loader (b : BranchNo) (s : State) : (enterSeated b s).loader = s.loader := rfl
@[simp] theorem enterSeated_params (b : BranchNo) (s : State) : (enterSeated b s).params = s.params := rfl
@[simp] theorem enterSeated_eeprom (b : BranchNo) (s : State) : (enterSeated b s).eeprom = s.eeprom := rfl
@[simp] theorem enterSeated_pins (b : BranchNo) (s : State) : (enterSeated b s).pins = s.pins := rfl
@[simp] theorem enterSeated_sampleTimer (b : BranchNo) (s : State) : (enterSeated b s).sampleTimer = s.sampleTimer := rfl
@[simp] theorem enterSeated_freeCount (b : BranchNo) (s : State) : (enterSeated b s).freeCount = s.freeCount := rfl
@[simp] theorem enterSeated_pending (b : BranchNo) (s : State) : (enterSeated b s).pending = s.pending := rfl

/-! ## enterHeld -/

@[simp] theorem enterHeld_rail (b : BranchNo) (x : Bool) (s : State) : (enterHeld b x s).rail = s.rail := by
  unfold enterHeld; dsimp only; split <;> simp
@[simp] theorem enterHeld_meter (b : BranchNo) (x : Bool) (s : State) : (enterHeld b x s).meter = s.meter := by
  unfold enterHeld; dsimp only; split <;> simp
@[simp] theorem enterHeld_alloc (b : BranchNo) (x : Bool) (s : State) : (enterHeld b x s).alloc = s.alloc := by
  unfold enterHeld; dsimp only; split <;> simp
@[simp] theorem enterHeld_valves (b : BranchNo) (x : Bool) (s : State) : (enterHeld b x s).valves = s.valves := by
  unfold enterHeld; dsimp only; split <;> simp
@[simp] theorem enterHeld_drip (b : BranchNo) (x : Bool) (s : State) : (enterHeld b x s).drip = s.drip := by
  unfold enterHeld; dsimp only; split <;> simp
@[simp] theorem enterHeld_iso (b : BranchNo) (x : Bool) (s : State) : (enterHeld b x s).iso = s.iso := by
  unfold enterHeld; dsimp only; split <;> simp
@[simp] theorem enterHeld_ring (b : BranchNo) (x : Bool) (s : State) : (enterHeld b x s).ring = s.ring := by
  unfold enterHeld; dsimp only; split <;> simp
@[simp] theorem enterHeld_lines (b : BranchNo) (x : Bool) (s : State) : (enterHeld b x s).lines = s.lines := by
  unfold enterHeld; dsimp only; split <;> simp
@[simp] theorem enterHeld_windows (b : BranchNo) (x : Bool) (s : State) : (enterHeld b x s).windows = s.windows := by
  unfold enterHeld; dsimp only; split <;> simp
@[simp] theorem enterHeld_attn (b : BranchNo) (x : Bool) (s : State) : (enterHeld b x s).attn = s.attn := by
  unfold enterHeld; dsimp only; split <;> simp
@[simp] theorem enterHeld_loader (b : BranchNo) (x : Bool) (s : State) : (enterHeld b x s).loader = s.loader := by
  unfold enterHeld; dsimp only; split <;> simp
@[simp] theorem enterHeld_params (b : BranchNo) (x : Bool) (s : State) : (enterHeld b x s).params = s.params := by
  unfold enterHeld; dsimp only; split <;> simp
@[simp] theorem enterHeld_eeprom (b : BranchNo) (x : Bool) (s : State) : (enterHeld b x s).eeprom = s.eeprom := by
  unfold enterHeld; dsimp only; split <;> simp
@[simp] theorem enterHeld_pins (b : BranchNo) (x : Bool) (s : State) : (enterHeld b x s).pins = s.pins := by
  unfold enterHeld; dsimp only; split <;> simp
@[simp] theorem enterHeld_sampleTimer (b : BranchNo) (x : Bool) (s : State) : (enterHeld b x s).sampleTimer = s.sampleTimer := by
  unfold enterHeld; dsimp only; split <;> simp
@[simp] theorem enterHeld_freeCount (b : BranchNo) (x : Bool) (s : State) : (enterHeld b x s).freeCount = s.freeCount := by
  unfold enterHeld; dsimp only; split <;> simp
@[simp] theorem enterHeld_pending (b : BranchNo) (x : Bool) (s : State) : (enterHeld b x s).pending = s.pending := by
  unfold enterHeld; dsimp only; split <;> simp

/-! ## enterPullReady -/

@[simp] theorem enterPullReady_rail (b : BranchNo) (s : State) : (enterPullReady b s).rail = s.rail := by simp [enterPullReady]
@[simp] theorem enterPullReady_meter (b : BranchNo) (s : State) : (enterPullReady b s).meter = s.meter := by simp [enterPullReady]
@[simp] theorem enterPullReady_alloc (b : BranchNo) (s : State) : (enterPullReady b s).alloc = s.alloc := by simp [enterPullReady]
@[simp] theorem enterPullReady_valves (b : BranchNo) (s : State) : (enterPullReady b s).valves = s.valves := by simp [enterPullReady]
@[simp] theorem enterPullReady_drip (b : BranchNo) (s : State) : (enterPullReady b s).drip = s.drip := by simp [enterPullReady]
@[simp] theorem enterPullReady_iso (b : BranchNo) (s : State) : (enterPullReady b s).iso = s.iso := by simp [enterPullReady]
@[simp] theorem enterPullReady_ring (b : BranchNo) (s : State) : (enterPullReady b s).ring = s.ring := by simp [enterPullReady]
@[simp] theorem enterPullReady_lines (b : BranchNo) (s : State) : (enterPullReady b s).lines = s.lines := by simp [enterPullReady]
@[simp] theorem enterPullReady_windows (b : BranchNo) (s : State) : (enterPullReady b s).windows = s.windows := by simp [enterPullReady]
@[simp] theorem enterPullReady_loader (b : BranchNo) (s : State) : (enterPullReady b s).loader = s.loader := by simp [enterPullReady]
@[simp] theorem enterPullReady_params (b : BranchNo) (s : State) : (enterPullReady b s).params = s.params := by simp [enterPullReady]
@[simp] theorem enterPullReady_eeprom (b : BranchNo) (s : State) : (enterPullReady b s).eeprom = s.eeprom := by simp [enterPullReady]
@[simp] theorem enterPullReady_pins (b : BranchNo) (s : State) : (enterPullReady b s).pins = s.pins := by simp [enterPullReady]
@[simp] theorem enterPullReady_sampleTimer (b : BranchNo) (s : State) : (enterPullReady b s).sampleTimer = s.sampleTimer := by simp [enterPullReady]
@[simp] theorem enterPullReady_freeCount (b : BranchNo) (s : State) : (enterPullReady b s).freeCount = s.freeCount := by simp [enterPullReady]
@[simp] theorem enterPullReady_pending (b : BranchNo) (s : State) : (enterPullReady b s).pending = s.pending := by simp [enterPullReady]

/-! ## enterAdmitted -/

@[simp] theorem enterAdmitted_rail (b : BranchNo) (s : State) : (enterAdmitted b s).rail = s.rail := by simp [enterAdmitted]
@[simp] theorem enterAdmitted_meter (b : BranchNo) (s : State) : (enterAdmitted b s).meter = s.meter := by simp [enterAdmitted]
@[simp] theorem enterAdmitted_alloc (b : BranchNo) (s : State) : (enterAdmitted b s).alloc = s.alloc := by simp [enterAdmitted]
@[simp] theorem enterAdmitted_valves (b : BranchNo) (s : State) : (enterAdmitted b s).valves = s.valves := by simp [enterAdmitted]
@[simp] theorem enterAdmitted_drip (b : BranchNo) (s : State) : (enterAdmitted b s).drip = s.drip := by simp [enterAdmitted]
@[simp] theorem enterAdmitted_iso (b : BranchNo) (s : State) : (enterAdmitted b s).iso = s.iso := by simp [enterAdmitted]
@[simp] theorem enterAdmitted_ring (b : BranchNo) (s : State) : (enterAdmitted b s).ring = s.ring := by simp [enterAdmitted]
@[simp] theorem enterAdmitted_lines (b : BranchNo) (s : State) : (enterAdmitted b s).lines = s.lines := by simp [enterAdmitted]
@[simp] theorem enterAdmitted_windows (b : BranchNo) (s : State) : (enterAdmitted b s).windows = s.windows := by simp [enterAdmitted]
@[simp] theorem enterAdmitted_loader (b : BranchNo) (s : State) : (enterAdmitted b s).loader = s.loader := by simp [enterAdmitted]
@[simp] theorem enterAdmitted_params (b : BranchNo) (s : State) : (enterAdmitted b s).params = s.params := by simp [enterAdmitted]
@[simp] theorem enterAdmitted_eeprom (b : BranchNo) (s : State) : (enterAdmitted b s).eeprom = s.eeprom := by simp [enterAdmitted]
@[simp] theorem enterAdmitted_pins (b : BranchNo) (s : State) : (enterAdmitted b s).pins = s.pins := by simp [enterAdmitted]
@[simp] theorem enterAdmitted_sampleTimer (b : BranchNo) (s : State) : (enterAdmitted b s).sampleTimer = s.sampleTimer := by simp [enterAdmitted]
@[simp] theorem enterAdmitted_freeCount (b : BranchNo) (s : State) : (enterAdmitted b s).freeCount = s.freeCount := by simp [enterAdmitted]
@[simp] theorem enterAdmitted_pending (b : BranchNo) (s : State) : (enterAdmitted b s).pending = s.pending := by simp [enterAdmitted]

/-! ## enterByContacts -/

@[simp] theorem enterByContacts_meter (b : BranchNo) (s : State) : (enterByContacts b s).meter = s.meter := by
  unfold enterByContacts; (repeat' split) <;> simp
@[simp] theorem enterByContacts_alloc (b : BranchNo) (s : State) : (enterByContacts b s).alloc = s.alloc := by
  unfold enterByContacts; (repeat' split) <;> simp
@[simp] theorem enterByContacts_lines (b : BranchNo) (s : State) : (enterByContacts b s).lines = s.lines := by
  unfold enterByContacts; (repeat' split) <;> simp
@[simp] theorem enterByContacts_windows (b : BranchNo) (s : State) : (enterByContacts b s).windows = s.windows := by
  unfold enterByContacts; (repeat' split) <;> simp
@[simp] theorem enterByContacts_loader (b : BranchNo) (s : State) : (enterByContacts b s).loader = s.loader := by
  unfold enterByContacts; (repeat' split) <;> simp
@[simp] theorem enterByContacts_params (b : BranchNo) (s : State) : (enterByContacts b s).params = s.params := by
  unfold enterByContacts; (repeat' split) <;> simp
@[simp] theorem enterByContacts_eeprom (b : BranchNo) (s : State) : (enterByContacts b s).eeprom = s.eeprom := by
  unfold enterByContacts; (repeat' split) <;> simp
@[simp] theorem enterByContacts_pins (b : BranchNo) (s : State) : (enterByContacts b s).pins = s.pins := by
  unfold enterByContacts; (repeat' split) <;> simp
@[simp] theorem enterByContacts_sampleTimer (b : BranchNo) (s : State) : (enterByContacts b s).sampleTimer = s.sampleTimer := by
  unfold enterByContacts; (repeat' split) <;> simp
@[simp] theorem enterByContacts_freeCount (b : BranchNo) (s : State) : (enterByContacts b s).freeCount = s.freeCount := by
  unfold enterByContacts; (repeat' split) <;> simp
@[simp] theorem enterByContacts_pending (b : BranchNo) (s : State) : (enterByContacts b s).pending = s.pending := by
  unfold enterByContacts; (repeat' split) <;> simp

/-! ## removeBranchCause -/

@[simp] theorem removeBranchCause_meter (b : BranchNo) (c : BranchCause) (s : State) : (removeBranchCause b c s).meter = s.meter := by
  unfold removeBranchCause; split
  · dsimp only; split <;> simp
  · rfl
@[simp] theorem removeBranchCause_alloc (b : BranchNo) (c : BranchCause) (s : State) : (removeBranchCause b c s).alloc = s.alloc := by
  unfold removeBranchCause; split
  · dsimp only; split <;> simp
  · rfl
@[simp] theorem removeBranchCause_lines (b : BranchNo) (c : BranchCause) (s : State) : (removeBranchCause b c s).lines = s.lines := by
  unfold removeBranchCause; split
  · dsimp only; split <;> simp
  · rfl
@[simp] theorem removeBranchCause_windows (b : BranchNo) (c : BranchCause) (s : State) : (removeBranchCause b c s).windows = s.windows := by
  unfold removeBranchCause; split
  · dsimp only; split <;> simp
  · rfl
@[simp] theorem removeBranchCause_loader (b : BranchNo) (c : BranchCause) (s : State) : (removeBranchCause b c s).loader = s.loader := by
  unfold removeBranchCause; split
  · dsimp only; split <;> simp
  · rfl
@[simp] theorem removeBranchCause_params (b : BranchNo) (c : BranchCause) (s : State) : (removeBranchCause b c s).params = s.params := by
  unfold removeBranchCause; split
  · dsimp only; split <;> simp
  · rfl
@[simp] theorem removeBranchCause_eeprom (b : BranchNo) (c : BranchCause) (s : State) : (removeBranchCause b c s).eeprom = s.eeprom := by
  unfold removeBranchCause; split
  · dsimp only; split <;> simp
  · rfl
@[simp] theorem removeBranchCause_pins (b : BranchNo) (c : BranchCause) (s : State) : (removeBranchCause b c s).pins = s.pins := by
  unfold removeBranchCause; split
  · dsimp only; split <;> simp
  · rfl
@[simp] theorem removeBranchCause_sampleTimer (b : BranchNo) (c : BranchCause) (s : State) : (removeBranchCause b c s).sampleTimer = s.sampleTimer := by
  unfold removeBranchCause; split
  · dsimp only; split <;> simp
  · rfl
@[simp] theorem removeBranchCause_freeCount (b : BranchNo) (c : BranchCause) (s : State) : (removeBranchCause b c s).freeCount = s.freeCount := by
  unfold removeBranchCause; split
  · dsimp only; split <;> simp
  · rfl
@[simp] theorem removeBranchCause_pending (b : BranchNo) (c : BranchCause) (s : State) : (removeBranchCause b c s).pending = s.pending := by
  unfold removeBranchCause; split
  · dsimp only; split <;> simp
  · rfl

/-! ## removeRailCause -/

@[simp] theorem removeRailCause_branches (c : RailCause) (s : State) : (removeRailCause c s).branches = s.branches := by
  unfold removeRailCause; split
  · dsimp only; split <;> simp
  · rfl
@[simp] theorem removeRailCause_meter (c : RailCause) (s : State) : (removeRailCause c s).meter = s.meter := by
  unfold removeRailCause; split
  · dsimp only; split <;> simp
  · rfl
@[simp] theorem removeRailCause_alloc (c : RailCause) (s : State) : (removeRailCause c s).alloc = s.alloc := by
  unfold removeRailCause; split
  · dsimp only; split <;> simp
  · rfl
@[simp] theorem removeRailCause_drip (c : RailCause) (s : State) : (removeRailCause c s).drip = s.drip := by
  unfold removeRailCause; split
  · dsimp only; split <;> simp
  · rfl
@[simp] theorem removeRailCause_ring (c : RailCause) (s : State) : (removeRailCause c s).ring = s.ring := by
  unfold removeRailCause; split
  · dsimp only; split <;> simp
  · rfl
@[simp] theorem removeRailCause_lines (c : RailCause) (s : State) : (removeRailCause c s).lines = s.lines := by
  unfold removeRailCause; split
  · dsimp only; split <;> simp
  · rfl
@[simp] theorem removeRailCause_windows (c : RailCause) (s : State) : (removeRailCause c s).windows = s.windows := by
  unfold removeRailCause; split
  · dsimp only; split <;> simp
  · rfl
@[simp] theorem removeRailCause_attn (c : RailCause) (s : State) : (removeRailCause c s).attn = s.attn := by
  unfold removeRailCause; split
  · dsimp only; split <;> simp
  · rfl
@[simp] theorem removeRailCause_loader (c : RailCause) (s : State) : (removeRailCause c s).loader = s.loader := by
  unfold removeRailCause; split
  · dsimp only; split <;> simp
  · rfl
@[simp] theorem removeRailCause_params (c : RailCause) (s : State) : (removeRailCause c s).params = s.params := by
  unfold removeRailCause; split
  · dsimp only; split <;> simp
  · rfl
@[simp] theorem removeRailCause_eeprom (c : RailCause) (s : State) : (removeRailCause c s).eeprom = s.eeprom := by
  unfold removeRailCause; split
  · dsimp only; split <;> simp
  · rfl
@[simp] theorem removeRailCause_pins (c : RailCause) (s : State) : (removeRailCause c s).pins = s.pins := by
  unfold removeRailCause; split
  · dsimp only; split <;> simp
  · rfl
@[simp] theorem removeRailCause_sampleTimer (c : RailCause) (s : State) : (removeRailCause c s).sampleTimer = s.sampleTimer := by
  unfold removeRailCause; split
  · dsimp only; split <;> simp
  · rfl
@[simp] theorem removeRailCause_freeCount (c : RailCause) (s : State) : (removeRailCause c s).freeCount = s.freeCount := by
  unfold removeRailCause; split
  · dsimp only; split <;> simp
  · rfl
@[simp] theorem removeRailCause_pending (c : RailCause) (s : State) : (removeRailCause c s).pending = s.pending := by
  unfold removeRailCause; split
  · dsimp only; split <;> simp
  · rfl

/-! ## enterClosed -/

@[simp] theorem enterClosed_branches (s : State) : (enterClosed s).branches = s.branches := by
  unfold enterClosed; dsimp only; split <;> simp
@[simp] theorem enterClosed_meter (s : State) : (enterClosed s).meter = s.meter := by
  unfold enterClosed; dsimp only; split <;> simp
@[simp] theorem enterClosed_alloc (s : State) : (enterClosed s).alloc = s.alloc := by
  unfold enterClosed; dsimp only; split <;> simp
@[simp] theorem enterClosed_drip (s : State) : (enterClosed s).drip = s.drip := by
  unfold enterClosed; dsimp only; split <;> simp
@[simp] theorem enterClosed_iso (s : State) : (enterClosed s).iso = s.iso := by
  unfold enterClosed; dsimp only; split <;> simp
@[simp] theorem enterClosed_lines (s : State) : (enterClosed s).lines = s.lines := by
  unfold enterClosed; dsimp only; split <;> simp
@[simp] theorem enterClosed_windows (s : State) : (enterClosed s).windows = s.windows := by
  unfold enterClosed; dsimp only; split <;> simp
@[simp] theorem enterClosed_loader (s : State) : (enterClosed s).loader = s.loader := by
  unfold enterClosed; dsimp only; split <;> simp
@[simp] theorem enterClosed_params (s : State) : (enterClosed s).params = s.params := by
  unfold enterClosed; dsimp only; split <;> simp
@[simp] theorem enterClosed_eeprom (s : State) : (enterClosed s).eeprom = s.eeprom := by
  unfold enterClosed; dsimp only; split <;> simp
@[simp] theorem enterClosed_pins (s : State) : (enterClosed s).pins = s.pins := by
  unfold enterClosed; dsimp only; split <;> simp
@[simp] theorem enterClosed_sampleTimer (s : State) : (enterClosed s).sampleTimer = s.sampleTimer := by
  unfold enterClosed; dsimp only; split <;> simp
@[simp] theorem enterClosed_freeCount (s : State) : (enterClosed s).freeCount = s.freeCount := by
  unfold enterClosed; dsimp only; split <;> simp
@[simp] theorem enterClosed_pending (s : State) : (enterClosed s).pending = s.pending := by
  unfold enterClosed; dsimp only; split <;> simp

/-! ## enterOpened -/

@[simp] theorem enterOpened_meter (s : State) : (enterOpened s).meter = s.meter := by
  unfold enterOpened
  rw [forBranches_keeps (fun s : State => s.meter)]
  · simp
  · intro b s
    split <;> simp
@[simp] theorem enterOpened_alloc (s : State) : (enterOpened s).alloc = s.alloc := by
  unfold enterOpened
  rw [forBranches_keeps (fun s : State => s.alloc)]
  · simp
  · intro b s
    split <;> simp
@[simp] theorem enterOpened_lines (s : State) : (enterOpened s).lines = s.lines := by
  unfold enterOpened
  rw [forBranches_keeps (fun s : State => s.lines)]
  · simp
  · intro b s
    split <;> simp
@[simp] theorem enterOpened_windows (s : State) : (enterOpened s).windows = s.windows := by
  unfold enterOpened
  rw [forBranches_keeps (fun s : State => s.windows)]
  · simp
  · intro b s
    split <;> simp
@[simp] theorem enterOpened_loader (s : State) : (enterOpened s).loader = s.loader := by
  unfold enterOpened
  rw [forBranches_keeps (fun s : State => s.loader)]
  · simp
  · intro b s
    split <;> simp
@[simp] theorem enterOpened_params (s : State) : (enterOpened s).params = s.params := by
  unfold enterOpened
  rw [forBranches_keeps (fun s : State => s.params)]
  · simp
  · intro b s
    split <;> simp
@[simp] theorem enterOpened_eeprom (s : State) : (enterOpened s).eeprom = s.eeprom := by
  unfold enterOpened
  rw [forBranches_keeps (fun s : State => s.eeprom)]
  · simp
  · intro b s
    split <;> simp
@[simp] theorem enterOpened_pins (s : State) : (enterOpened s).pins = s.pins := by
  unfold enterOpened
  rw [forBranches_keeps (fun s : State => s.pins)]
  · simp
  · intro b s
    split <;> simp
@[simp] theorem enterOpened_sampleTimer (s : State) : (enterOpened s).sampleTimer = s.sampleTimer := by
  unfold enterOpened
  rw [forBranches_keeps (fun s : State => s.sampleTimer)]
  · simp
  · intro b s
    split <;> simp
@[simp] theorem enterOpened_freeCount (s : State) : (enterOpened s).freeCount = s.freeCount := by
  unfold enterOpened
  rw [forBranches_keeps (fun s : State => s.freeCount)]
  · simp
  · intro b s
    split <;> simp
@[simp] theorem enterOpened_pending (s : State) : (enterOpened s).pending = s.pending := by
  unfold enterOpened
  rw [forBranches_keeps (fun s : State => s.pending)]
  · simp
  · intro b s
    split <;> simp

/-! ## contactOpened -/

@[simp] theorem contactOpened_meter (b : BranchNo) (s : State) : (contactOpened b s).meter = s.meter := by
  unfold contactOpened; (repeat' split) <;> simp
@[simp] theorem contactOpened_alloc (b : BranchNo) (s : State) : (contactOpened b s).alloc = s.alloc := by
  unfold contactOpened; (repeat' split) <;> simp
@[simp] theorem contactOpened_valves (b : BranchNo) (s : State) : (contactOpened b s).valves = s.valves := by
  unfold contactOpened; (repeat' split) <;> simp
@[simp] theorem contactOpened_drip (b : BranchNo) (s : State) : (contactOpened b s).drip = s.drip := by
  unfold contactOpened; (repeat' split) <;> simp
@[simp] theorem contactOpened_iso (b : BranchNo) (s : State) : (contactOpened b s).iso = s.iso := by
  unfold contactOpened; (repeat' split) <;> simp
@[simp] theorem contactOpened_lines (b : BranchNo) (s : State) : (contactOpened b s).lines = s.lines := by
  unfold contactOpened; (repeat' split) <;> simp
@[simp] theorem contactOpened_windows (b : BranchNo) (s : State) : (contactOpened b s).windows = s.windows := by
  unfold contactOpened; (repeat' split) <;> simp
@[simp] theorem contactOpened_loader (b : BranchNo) (s : State) : (contactOpened b s).loader = s.loader := by
  unfold contactOpened; (repeat' split) <;> simp
@[simp] theorem contactOpened_params (b : BranchNo) (s : State) : (contactOpened b s).params = s.params := by
  unfold contactOpened; (repeat' split) <;> simp
@[simp] theorem contactOpened_eeprom (b : BranchNo) (s : State) : (contactOpened b s).eeprom = s.eeprom := by
  unfold contactOpened; (repeat' split) <;> simp
@[simp] theorem contactOpened_pins (b : BranchNo) (s : State) : (contactOpened b s).pins = s.pins := by
  unfold contactOpened; (repeat' split) <;> simp
@[simp] theorem contactOpened_sampleTimer (b : BranchNo) (s : State) : (contactOpened b s).sampleTimer = s.sampleTimer := by
  unfold contactOpened; (repeat' split) <;> simp
@[simp] theorem contactOpened_freeCount (b : BranchNo) (s : State) : (contactOpened b s).freeCount = s.freeCount := by
  unfold contactOpened; (repeat' split) <;> simp
@[simp] theorem contactOpened_pending (b : BranchNo) (s : State) : (contactOpened b s).pending = s.pending := by
  unfold contactOpened; (repeat' split) <;> simp

/-! ## elapse -/

@[simp] theorem elapse_drip (ms : Nat) (s : State) : (elapse ms s).drip = s.drip := rfl
@[simp] theorem elapse_iso (ms : Nat) (s : State) : (elapse ms s).iso = s.iso := rfl
@[simp] theorem elapse_ring (ms : Nat) (s : State) : (elapse ms s).ring = s.ring := rfl
@[simp] theorem elapse_lines (ms : Nat) (s : State) : (elapse ms s).lines = s.lines := rfl
@[simp] theorem elapse_windows (ms : Nat) (s : State) : (elapse ms s).windows = s.windows := rfl
@[simp] theorem elapse_attn (ms : Nat) (s : State) : (elapse ms s).attn = s.attn := rfl
@[simp] theorem elapse_loader (ms : Nat) (s : State) : (elapse ms s).loader = s.loader := rfl
@[simp] theorem elapse_params (ms : Nat) (s : State) : (elapse ms s).params = s.params := rfl
@[simp] theorem elapse_eeprom (ms : Nat) (s : State) : (elapse ms s).eeprom = s.eeprom := rfl
@[simp] theorem elapse_pins (ms : Nat) (s : State) : (elapse ms s).pins = s.pins := rfl
@[simp] theorem elapse_sampleTimer (ms : Nat) (s : State) : (elapse ms s).sampleTimer = s.sampleTimer := rfl
@[simp] theorem elapse_freeCount (ms : Nat) (s : State) : (elapse ms s).freeCount = s.freeCount := rfl
@[simp] theorem elapse_pending (ms : Nat) (s : State) : (elapse ms s).pending = s.pending := rfl

/-! ## dockTimerRunsOut -/

@[simp] theorem dockTimerRunsOut_drip (b : BranchNo) (ms : Nat) (s : State) : (dockTimerRunsOut b ms s).drip = s.drip := rfl
@[simp] theorem dockTimerRunsOut_iso (b : BranchNo) (ms : Nat) (s : State) : (dockTimerRunsOut b ms s).iso = s.iso := rfl
@[simp] theorem dockTimerRunsOut_ring (b : BranchNo) (ms : Nat) (s : State) : (dockTimerRunsOut b ms s).ring = s.ring := rfl
@[simp] theorem dockTimerRunsOut_lines (b : BranchNo) (ms : Nat) (s : State) : (dockTimerRunsOut b ms s).lines = s.lines := rfl
@[simp] theorem dockTimerRunsOut_windows (b : BranchNo) (ms : Nat) (s : State) : (dockTimerRunsOut b ms s).windows = s.windows := rfl
@[simp] theorem dockTimerRunsOut_attn (b : BranchNo) (ms : Nat) (s : State) : (dockTimerRunsOut b ms s).attn = s.attn := rfl
@[simp] theorem dockTimerRunsOut_loader (b : BranchNo) (ms : Nat) (s : State) : (dockTimerRunsOut b ms s).loader = s.loader := rfl
@[simp] theorem dockTimerRunsOut_params (b : BranchNo) (ms : Nat) (s : State) : (dockTimerRunsOut b ms s).params = s.params := rfl
@[simp] theorem dockTimerRunsOut_eeprom (b : BranchNo) (ms : Nat) (s : State) : (dockTimerRunsOut b ms s).eeprom = s.eeprom := rfl
@[simp] theorem dockTimerRunsOut_pins (b : BranchNo) (ms : Nat) (s : State) : (dockTimerRunsOut b ms s).pins = s.pins := rfl
@[simp] theorem dockTimerRunsOut_sampleTimer (b : BranchNo) (ms : Nat) (s : State) : (dockTimerRunsOut b ms s).sampleTimer = s.sampleTimer := rfl
@[simp] theorem dockTimerRunsOut_freeCount (b : BranchNo) (ms : Nat) (s : State) : (dockTimerRunsOut b ms s).freeCount = s.freeCount := rfl
@[simp] theorem dockTimerRunsOut_pending (b : BranchNo) (ms : Nat) (s : State) : (dockTimerRunsOut b ms s).pending = s.pending := rfl

/-! ## setPresent -/

@[simp] theorem setPresent_rail (b : BranchNo) (x : Bool) (s : State) : (setPresent b x s).rail = s.rail := rfl
@[simp] theorem setPresent_meter (b : BranchNo) (x : Bool) (s : State) : (setPresent b x s).meter = s.meter := rfl
@[simp] theorem setPresent_alloc (b : BranchNo) (x : Bool) (s : State) : (setPresent b x s).alloc = s.alloc := rfl
@[simp] theorem setPresent_valves (b : BranchNo) (x : Bool) (s : State) : (setPresent b x s).valves = s.valves := rfl
@[simp] theorem setPresent_drip (b : BranchNo) (x : Bool) (s : State) : (setPresent b x s).drip = s.drip := rfl
@[simp] theorem setPresent_iso (b : BranchNo) (x : Bool) (s : State) : (setPresent b x s).iso = s.iso := rfl
@[simp] theorem setPresent_ring (b : BranchNo) (x : Bool) (s : State) : (setPresent b x s).ring = s.ring := rfl
@[simp] theorem setPresent_lines (b : BranchNo) (x : Bool) (s : State) : (setPresent b x s).lines = s.lines := rfl
@[simp] theorem setPresent_windows (b : BranchNo) (x : Bool) (s : State) : (setPresent b x s).windows = s.windows := rfl
@[simp] theorem setPresent_attn (b : BranchNo) (x : Bool) (s : State) : (setPresent b x s).attn = s.attn := rfl
@[simp] theorem setPresent_loader (b : BranchNo) (x : Bool) (s : State) : (setPresent b x s).loader = s.loader := rfl
@[simp] theorem setPresent_params (b : BranchNo) (x : Bool) (s : State) : (setPresent b x s).params = s.params := rfl
@[simp] theorem setPresent_eeprom (b : BranchNo) (x : Bool) (s : State) : (setPresent b x s).eeprom = s.eeprom := rfl
@[simp] theorem setPresent_sampleTimer (b : BranchNo) (x : Bool) (s : State) : (setPresent b x s).sampleTimer = s.sampleTimer := rfl
@[simp] theorem setPresent_freeCount (b : BranchNo) (x : Bool) (s : State) : (setPresent b x s).freeCount = s.freeCount := rfl
@[simp] theorem setPresent_pending (b : BranchNo) (x : Bool) (s : State) : (setPresent b x s).pending = s.pending := rfl

/-! ## setLatched -/

@[simp] theorem setLatched_rail (b : BranchNo) (x : Bool) (s : State) : (setLatched b x s).rail = s.rail := rfl
@[simp] theorem setLatched_meter (b : BranchNo) (x : Bool) (s : State) : (setLatched b x s).meter = s.meter := rfl
@[simp] theorem setLatched_alloc (b : BranchNo) (x : Bool) (s : State) : (setLatched b x s).alloc = s.alloc := rfl
@[simp] theorem setLatched_valves (b : BranchNo) (x : Bool) (s : State) : (setLatched b x s).valves = s.valves := rfl
@[simp] theorem setLatched_drip (b : BranchNo) (x : Bool) (s : State) : (setLatched b x s).drip = s.drip := rfl
@[simp] theorem setLatched_iso (b : BranchNo) (x : Bool) (s : State) : (setLatched b x s).iso = s.iso := rfl
@[simp] theorem setLatched_ring (b : BranchNo) (x : Bool) (s : State) : (setLatched b x s).ring = s.ring := rfl
@[simp] theorem setLatched_lines (b : BranchNo) (x : Bool) (s : State) : (setLatched b x s).lines = s.lines := rfl
@[simp] theorem setLatched_windows (b : BranchNo) (x : Bool) (s : State) : (setLatched b x s).windows = s.windows := rfl
@[simp] theorem setLatched_attn (b : BranchNo) (x : Bool) (s : State) : (setLatched b x s).attn = s.attn := rfl
@[simp] theorem setLatched_loader (b : BranchNo) (x : Bool) (s : State) : (setLatched b x s).loader = s.loader := rfl
@[simp] theorem setLatched_params (b : BranchNo) (x : Bool) (s : State) : (setLatched b x s).params = s.params := rfl
@[simp] theorem setLatched_eeprom (b : BranchNo) (x : Bool) (s : State) : (setLatched b x s).eeprom = s.eeprom := rfl
@[simp] theorem setLatched_sampleTimer (b : BranchNo) (x : Bool) (s : State) : (setLatched b x s).sampleTimer = s.sampleTimer := rfl
@[simp] theorem setLatched_freeCount (b : BranchNo) (x : Bool) (s : State) : (setLatched b x s).freeCount = s.freeCount := rfl
@[simp] theorem setLatched_pending (b : BranchNo) (x : Bool) (s : State) : (setLatched b x s).pending = s.pending := rfl

/-! ## driveBypass -/

@[simp] theorem driveBypass_branches (s : State) : (driveBypass s).branches = s.branches := rfl
@[simp] theorem driveBypass_rail (s : State) : (driveBypass s).rail = s.rail := rfl
@[simp] theorem driveBypass_meter (s : State) : (driveBypass s).meter = s.meter := rfl
@[simp] theorem driveBypass_alloc (s : State) : (driveBypass s).alloc = s.alloc := rfl
@[simp] theorem driveBypass_drip (s : State) : (driveBypass s).drip = s.drip := rfl
@[simp] theorem driveBypass_iso (s : State) : (driveBypass s).iso = s.iso := rfl
@[simp] theorem driveBypass_ring (s : State) : (driveBypass s).ring = s.ring := rfl
@[simp] theorem driveBypass_lines (s : State) : (driveBypass s).lines = s.lines := rfl
@[simp] theorem driveBypass_windows (s : State) : (driveBypass s).windows = s.windows := rfl
@[simp] theorem driveBypass_attn (s : State) : (driveBypass s).attn = s.attn := rfl
@[simp] theorem driveBypass_loader (s : State) : (driveBypass s).loader = s.loader := rfl
@[simp] theorem driveBypass_params (s : State) : (driveBypass s).params = s.params := rfl
@[simp] theorem driveBypass_eeprom (s : State) : (driveBypass s).eeprom = s.eeprom := rfl
@[simp] theorem driveBypass_pins (s : State) : (driveBypass s).pins = s.pins := rfl
@[simp] theorem driveBypass_sampleTimer (s : State) : (driveBypass s).sampleTimer = s.sampleTimer := rfl
@[simp] theorem driveBypass_freeCount (s : State) : (driveBypass s).freeCount = s.freeCount := rfl
@[simp] theorem driveBypass_pending (s : State) : (driveBypass s).pending = s.pending := rfl

/-! ## publishGrants -/

@[simp] theorem publishGrants_rail (v : Vector Nat 12) (s : State) : (publishGrants v s).rail = s.rail := rfl
@[simp] theorem publishGrants_meter (v : Vector Nat 12) (s : State) : (publishGrants v s).meter = s.meter := rfl
@[simp] theorem publishGrants_alloc (v : Vector Nat 12) (s : State) : (publishGrants v s).alloc = s.alloc := rfl
@[simp] theorem publishGrants_valves (v : Vector Nat 12) (s : State) : (publishGrants v s).valves = s.valves := rfl
@[simp] theorem publishGrants_drip (v : Vector Nat 12) (s : State) : (publishGrants v s).drip = s.drip := rfl
@[simp] theorem publishGrants_iso (v : Vector Nat 12) (s : State) : (publishGrants v s).iso = s.iso := rfl
@[simp] theorem publishGrants_ring (v : Vector Nat 12) (s : State) : (publishGrants v s).ring = s.ring := rfl
@[simp] theorem publishGrants_lines (v : Vector Nat 12) (s : State) : (publishGrants v s).lines = s.lines := rfl
@[simp] theorem publishGrants_windows (v : Vector Nat 12) (s : State) : (publishGrants v s).windows = s.windows := rfl
@[simp] theorem publishGrants_attn (v : Vector Nat 12) (s : State) : (publishGrants v s).attn = s.attn := rfl
@[simp] theorem publishGrants_loader (v : Vector Nat 12) (s : State) : (publishGrants v s).loader = s.loader := rfl
@[simp] theorem publishGrants_params (v : Vector Nat 12) (s : State) : (publishGrants v s).params = s.params := rfl
@[simp] theorem publishGrants_eeprom (v : Vector Nat 12) (s : State) : (publishGrants v s).eeprom = s.eeprom := rfl
@[simp] theorem publishGrants_pins (v : Vector Nat 12) (s : State) : (publishGrants v s).pins = s.pins := rfl
@[simp] theorem publishGrants_sampleTimer (v : Vector Nat 12) (s : State) : (publishGrants v s).sampleTimer = s.sampleTimer := rfl
@[simp] theorem publishGrants_freeCount (v : Vector Nat 12) (s : State) : (publishGrants v s).freeCount = s.freeCount := rfl
@[simp] theorem publishGrants_pending (v : Vector Nat 12) (s : State) : (publishGrants v s).pending = s.pending := rfl

/-! ## raiseGrantChanged -/

@[simp] theorem raiseGrantChanged_branches (b : BranchNo) (x : Nat) (s : State) : (raiseGrantChanged b x s).branches = s.branches := by
  unfold raiseGrantChanged; (repeat' split) <;> simp
@[simp] theorem raiseGrantChanged_rail (b : BranchNo) (x : Nat) (s : State) : (raiseGrantChanged b x s).rail = s.rail := by
  unfold raiseGrantChanged; (repeat' split) <;> simp
@[simp] theorem raiseGrantChanged_meter (b : BranchNo) (x : Nat) (s : State) : (raiseGrantChanged b x s).meter = s.meter := by
  unfold raiseGrantChanged; (repeat' split) <;> simp
@[simp] theorem raiseGrantChanged_alloc (b : BranchNo) (x : Nat) (s : State) : (raiseGrantChanged b x s).alloc = s.alloc := by
  unfold raiseGrantChanged; (repeat' split) <;> simp
@[simp] theorem raiseGrantChanged_valves (b : BranchNo) (x : Nat) (s : State) : (raiseGrantChanged b x s).valves = s.valves := by
  unfold raiseGrantChanged; (repeat' split) <;> simp
@[simp] theorem raiseGrantChanged_drip (b : BranchNo) (x : Nat) (s : State) : (raiseGrantChanged b x s).drip = s.drip := by
  unfold raiseGrantChanged; (repeat' split) <;> simp
@[simp] theorem raiseGrantChanged_iso (b : BranchNo) (x : Nat) (s : State) : (raiseGrantChanged b x s).iso = s.iso := by
  unfold raiseGrantChanged; (repeat' split) <;> simp
@[simp] theorem raiseGrantChanged_ring (b : BranchNo) (x : Nat) (s : State) : (raiseGrantChanged b x s).ring = s.ring := by
  unfold raiseGrantChanged; (repeat' split) <;> simp
@[simp] theorem raiseGrantChanged_lines (b : BranchNo) (x : Nat) (s : State) : (raiseGrantChanged b x s).lines = s.lines := by
  unfold raiseGrantChanged; (repeat' split) <;> simp
@[simp] theorem raiseGrantChanged_windows (b : BranchNo) (x : Nat) (s : State) : (raiseGrantChanged b x s).windows = s.windows := by
  unfold raiseGrantChanged; (repeat' split) <;> simp
@[simp] theorem raiseGrantChanged_loader (b : BranchNo) (x : Nat) (s : State) : (raiseGrantChanged b x s).loader = s.loader := by
  unfold raiseGrantChanged; (repeat' split) <;> simp
@[simp] theorem raiseGrantChanged_params (b : BranchNo) (x : Nat) (s : State) : (raiseGrantChanged b x s).params = s.params := by
  unfold raiseGrantChanged; (repeat' split) <;> simp
@[simp] theorem raiseGrantChanged_eeprom (b : BranchNo) (x : Nat) (s : State) : (raiseGrantChanged b x s).eeprom = s.eeprom := by
  unfold raiseGrantChanged; (repeat' split) <;> simp
@[simp] theorem raiseGrantChanged_pins (b : BranchNo) (x : Nat) (s : State) : (raiseGrantChanged b x s).pins = s.pins := by
  unfold raiseGrantChanged; (repeat' split) <;> simp
@[simp] theorem raiseGrantChanged_sampleTimer (b : BranchNo) (x : Nat) (s : State) : (raiseGrantChanged b x s).sampleTimer = s.sampleTimer := by
  unfold raiseGrantChanged; (repeat' split) <;> simp
@[simp] theorem raiseGrantChanged_freeCount (b : BranchNo) (x : Nat) (s : State) : (raiseGrantChanged b x s).freeCount = s.freeCount := by
  unfold raiseGrantChanged; (repeat' split) <;> simp
@[simp] theorem raiseGrantChanged_pending (b : BranchNo) (x : Nat) (s : State) : (raiseGrantChanged b x s).pending = s.pending := by
  unfold raiseGrantChanged; (repeat' split) <;> simp

/-! ## raiseShortfall -/

@[simp] theorem raiseShortfall_branches (s : State) : (raiseShortfall s).branches = s.branches := rfl
@[simp] theorem raiseShortfall_rail (s : State) : (raiseShortfall s).rail = s.rail := rfl
@[simp] theorem raiseShortfall_meter (s : State) : (raiseShortfall s).meter = s.meter := rfl
@[simp] theorem raiseShortfall_alloc (s : State) : (raiseShortfall s).alloc = s.alloc := rfl
@[simp] theorem raiseShortfall_valves (s : State) : (raiseShortfall s).valves = s.valves := rfl
@[simp] theorem raiseShortfall_drip (s : State) : (raiseShortfall s).drip = s.drip := rfl
@[simp] theorem raiseShortfall_iso (s : State) : (raiseShortfall s).iso = s.iso := rfl
@[simp] theorem raiseShortfall_ring (s : State) : (raiseShortfall s).ring = s.ring := rfl
@[simp] theorem raiseShortfall_lines (s : State) : (raiseShortfall s).lines = s.lines := rfl
@[simp] theorem raiseShortfall_windows (s : State) : (raiseShortfall s).windows = s.windows := rfl
@[simp] theorem raiseShortfall_loader (s : State) : (raiseShortfall s).loader = s.loader := rfl
@[simp] theorem raiseShortfall_params (s : State) : (raiseShortfall s).params = s.params := rfl
@[simp] theorem raiseShortfall_eeprom (s : State) : (raiseShortfall s).eeprom = s.eeprom := rfl
@[simp] theorem raiseShortfall_pins (s : State) : (raiseShortfall s).pins = s.pins := rfl
@[simp] theorem raiseShortfall_sampleTimer (s : State) : (raiseShortfall s).sampleTimer = s.sampleTimer := rfl
@[simp] theorem raiseShortfall_freeCount (s : State) : (raiseShortfall s).freeCount = s.freeCount := rfl
@[simp] theorem raiseShortfall_pending (s : State) : (raiseShortfall s).pending = s.pending := rfl

/-! ## raiseDemandChanged -/

@[simp] theorem raiseDemandChanged_branches (s : State) : (raiseDemandChanged s).branches = s.branches := by
  unfold raiseDemandChanged; (repeat' split) <;> simp
@[simp] theorem raiseDemandChanged_rail (s : State) : (raiseDemandChanged s).rail = s.rail := by
  unfold raiseDemandChanged; (repeat' split) <;> simp
@[simp] theorem raiseDemandChanged_meter (s : State) : (raiseDemandChanged s).meter = s.meter := by
  unfold raiseDemandChanged; (repeat' split) <;> simp
@[simp] theorem raiseDemandChanged_alloc (s : State) : (raiseDemandChanged s).alloc = s.alloc := by
  unfold raiseDemandChanged; (repeat' split) <;> simp
@[simp] theorem raiseDemandChanged_valves (s : State) : (raiseDemandChanged s).valves = s.valves := by
  unfold raiseDemandChanged; (repeat' split) <;> simp
@[simp] theorem raiseDemandChanged_drip (s : State) : (raiseDemandChanged s).drip = s.drip := by
  unfold raiseDemandChanged; (repeat' split) <;> simp
@[simp] theorem raiseDemandChanged_iso (s : State) : (raiseDemandChanged s).iso = s.iso := by
  unfold raiseDemandChanged; (repeat' split) <;> simp
@[simp] theorem raiseDemandChanged_ring (s : State) : (raiseDemandChanged s).ring = s.ring := by
  unfold raiseDemandChanged; (repeat' split) <;> simp
@[simp] theorem raiseDemandChanged_lines (s : State) : (raiseDemandChanged s).lines = s.lines := by
  unfold raiseDemandChanged; (repeat' split) <;> simp
@[simp] theorem raiseDemandChanged_windows (s : State) : (raiseDemandChanged s).windows = s.windows := by
  unfold raiseDemandChanged; (repeat' split) <;> simp
@[simp] theorem raiseDemandChanged_loader (s : State) : (raiseDemandChanged s).loader = s.loader := by
  unfold raiseDemandChanged; (repeat' split) <;> simp
@[simp] theorem raiseDemandChanged_params (s : State) : (raiseDemandChanged s).params = s.params := by
  unfold raiseDemandChanged; (repeat' split) <;> simp
@[simp] theorem raiseDemandChanged_eeprom (s : State) : (raiseDemandChanged s).eeprom = s.eeprom := by
  unfold raiseDemandChanged; (repeat' split) <;> simp
@[simp] theorem raiseDemandChanged_pins (s : State) : (raiseDemandChanged s).pins = s.pins := by
  unfold raiseDemandChanged; (repeat' split) <;> simp
@[simp] theorem raiseDemandChanged_sampleTimer (s : State) : (raiseDemandChanged s).sampleTimer = s.sampleTimer := by
  unfold raiseDemandChanged; (repeat' split) <;> simp
@[simp] theorem raiseDemandChanged_freeCount (s : State) : (raiseDemandChanged s).freeCount = s.freeCount := by
  unfold raiseDemandChanged; (repeat' split) <;> simp
@[simp] theorem raiseDemandChanged_pending (s : State) : (raiseDemandChanged s).pending = s.pending := by
  unfold raiseDemandChanged; (repeat' split) <;> simp

/-! ## runRound -/

@[simp] theorem runRound_rail (s : State) : (runRound s).rail = s.rail := by
  simp only [runRound, raiseDemandChanged_rail]
  rw [forBranches_keeps (fun s : State => s.rail)]
  · split <;> simp
  · intro b u
    split <;> simp
@[simp] theorem runRound_meter (s : State) : (runRound s).meter = s.meter := by
  simp only [runRound, raiseDemandChanged_meter]
  rw [forBranches_keeps (fun s : State => s.meter)]
  · split <;> simp
  · intro b u
    split <;> simp
@[simp] theorem runRound_drip (s : State) : (runRound s).drip = s.drip := by
  simp only [runRound, raiseDemandChanged_drip]
  rw [forBranches_keeps (fun s : State => s.drip)]
  · split <;> simp
  · intro b u
    split <;> simp
@[simp] theorem runRound_iso (s : State) : (runRound s).iso = s.iso := by
  simp only [runRound, raiseDemandChanged_iso]
  rw [forBranches_keeps (fun s : State => s.iso)]
  · split <;> simp
  · intro b u
    split <;> simp
@[simp] theorem runRound_ring (s : State) : (runRound s).ring = s.ring := by
  simp only [runRound, raiseDemandChanged_ring]
  rw [forBranches_keeps (fun s : State => s.ring)]
  · split <;> simp
  · intro b u
    split <;> simp
@[simp] theorem runRound_lines (s : State) : (runRound s).lines = s.lines := by
  simp only [runRound, raiseDemandChanged_lines]
  rw [forBranches_keeps (fun s : State => s.lines)]
  · split <;> simp
  · intro b u
    split <;> simp
@[simp] theorem runRound_windows (s : State) : (runRound s).windows = s.windows := by
  simp only [runRound, raiseDemandChanged_windows]
  rw [forBranches_keeps (fun s : State => s.windows)]
  · split <;> simp
  · intro b u
    split <;> simp
@[simp] theorem runRound_loader (s : State) : (runRound s).loader = s.loader := by
  simp only [runRound, raiseDemandChanged_loader]
  rw [forBranches_keeps (fun s : State => s.loader)]
  · split <;> simp
  · intro b u
    split <;> simp
@[simp] theorem runRound_params (s : State) : (runRound s).params = s.params := by
  simp only [runRound, raiseDemandChanged_params]
  rw [forBranches_keeps (fun s : State => s.params)]
  · split <;> simp
  · intro b u
    split <;> simp
@[simp] theorem runRound_eeprom (s : State) : (runRound s).eeprom = s.eeprom := by
  simp only [runRound, raiseDemandChanged_eeprom]
  rw [forBranches_keeps (fun s : State => s.eeprom)]
  · split <;> simp
  · intro b u
    split <;> simp
@[simp] theorem runRound_pins (s : State) : (runRound s).pins = s.pins := by
  simp only [runRound, raiseDemandChanged_pins]
  rw [forBranches_keeps (fun s : State => s.pins)]
  · split <;> simp
  · intro b u
    split <;> simp
@[simp] theorem runRound_sampleTimer (s : State) : (runRound s).sampleTimer = s.sampleTimer := by
  simp only [runRound, raiseDemandChanged_sampleTimer]
  rw [forBranches_keeps (fun s : State => s.sampleTimer)]
  · split <;> simp
  · intro b u
    split <;> simp
@[simp] theorem runRound_freeCount (s : State) : (runRound s).freeCount = s.freeCount := by
  simp only [runRound, raiseDemandChanged_freeCount]
  rw [forBranches_keeps (fun s : State => s.freeCount)]
  · split <;> simp
  · intro b u
    split <;> simp
@[simp] theorem runRound_pending (s : State) : (runRound s).pending = s.pending := by
  simp only [runRound, raiseDemandChanged_pending]
  rw [forBranches_keeps (fun s : State => s.pending)]
  · split <;> simp
  · intro b u
    split <;> simp

/-! ## restrict -/

@[simp] theorem restrict_rail (b : BranchNo) (s : State) : (restrict b s).rail = s.rail := by
  unfold restrict; dsimp only; split <;> simp
@[simp] theorem restrict_meter (b : BranchNo) (s : State) : (restrict b s).meter = s.meter := by
  unfold restrict; dsimp only; split <;> simp
@[simp] theorem restrict_alloc (b : BranchNo) (s : State) : (restrict b s).alloc = s.alloc := by
  unfold restrict; dsimp only; split <;> simp
@[simp] theorem restrict_valves (b : BranchNo) (s : State) : (restrict b s).valves = s.valves := by
  unfold restrict; dsimp only; split <;> simp
@[simp] theorem restrict_drip (b : BranchNo) (s : State) : (restrict b s).drip = s.drip := by
  unfold restrict; dsimp only; split <;> simp
@[simp] theorem restrict_iso (b : BranchNo) (s : State) : (restrict b s).iso = s.iso := by
  unfold restrict; dsimp only; split <;> simp
@[simp] theorem restrict_ring (b : BranchNo) (s : State) : (restrict b s).ring = s.ring := by
  unfold restrict; dsimp only; split <;> simp
@[simp] theorem restrict_lines (b : BranchNo) (s : State) : (restrict b s).lines = s.lines := by
  unfold restrict; dsimp only; split <;> simp
@[simp] theorem restrict_windows (b : BranchNo) (s : State) : (restrict b s).windows = s.windows := by
  unfold restrict; dsimp only; split <;> simp
@[simp] theorem restrict_loader (b : BranchNo) (s : State) : (restrict b s).loader = s.loader := by
  unfold restrict; dsimp only; split <;> simp
@[simp] theorem restrict_params (b : BranchNo) (s : State) : (restrict b s).params = s.params := by
  unfold restrict; dsimp only; split <;> simp
@[simp] theorem restrict_eeprom (b : BranchNo) (s : State) : (restrict b s).eeprom = s.eeprom := by
  unfold restrict; dsimp only; split <;> simp
@[simp] theorem restrict_pins (b : BranchNo) (s : State) : (restrict b s).pins = s.pins := by
  unfold restrict; dsimp only; split <;> simp
@[simp] theorem restrict_sampleTimer (b : BranchNo) (s : State) : (restrict b s).sampleTimer = s.sampleTimer := by
  unfold restrict; dsimp only; split <;> simp
@[simp] theorem restrict_freeCount (b : BranchNo) (s : State) : (restrict b s).freeCount = s.freeCount := by
  unfold restrict; dsimp only; split <;> simp
@[simp] theorem restrict_pending (b : BranchNo) (s : State) : (restrict b s).pending = s.pending := by
  unfold restrict; dsimp only; split <;> simp

/-! ## takeUpCheck -/

@[simp] theorem takeUpCheck_rail (b : BranchNo) (s : State) : (takeUpCheck b s).rail = s.rail := by
  unfold takeUpCheck; (repeat' split) <;> simp
@[simp] theorem takeUpCheck_meter (b : BranchNo) (s : State) : (takeUpCheck b s).meter = s.meter := by
  unfold takeUpCheck; (repeat' split) <;> simp
@[simp] theorem takeUpCheck_alloc (b : BranchNo) (s : State) : (takeUpCheck b s).alloc = s.alloc := by
  unfold takeUpCheck; (repeat' split) <;> simp
@[simp] theorem takeUpCheck_valves (b : BranchNo) (s : State) : (takeUpCheck b s).valves = s.valves := by
  unfold takeUpCheck; (repeat' split) <;> simp
@[simp] theorem takeUpCheck_drip (b : BranchNo) (s : State) : (takeUpCheck b s).drip = s.drip := by
  unfold takeUpCheck; (repeat' split) <;> simp
@[simp] theorem takeUpCheck_iso (b : BranchNo) (s : State) : (takeUpCheck b s).iso = s.iso := by
  unfold takeUpCheck; (repeat' split) <;> simp
@[simp] theorem takeUpCheck_ring (b : BranchNo) (s : State) : (takeUpCheck b s).ring = s.ring := by
  unfold takeUpCheck; (repeat' split) <;> simp
@[simp] theorem takeUpCheck_lines (b : BranchNo) (s : State) : (takeUpCheck b s).lines = s.lines := by
  unfold takeUpCheck; (repeat' split) <;> simp
@[simp] theorem takeUpCheck_windows (b : BranchNo) (s : State) : (takeUpCheck b s).windows = s.windows := by
  unfold takeUpCheck; (repeat' split) <;> simp
@[simp] theorem takeUpCheck_loader (b : BranchNo) (s : State) : (takeUpCheck b s).loader = s.loader := by
  unfold takeUpCheck; (repeat' split) <;> simp
@[simp] theorem takeUpCheck_params (b : BranchNo) (s : State) : (takeUpCheck b s).params = s.params := by
  unfold takeUpCheck; (repeat' split) <;> simp
@[simp] theorem takeUpCheck_eeprom (b : BranchNo) (s : State) : (takeUpCheck b s).eeprom = s.eeprom := by
  unfold takeUpCheck; (repeat' split) <;> simp
@[simp] theorem takeUpCheck_pins (b : BranchNo) (s : State) : (takeUpCheck b s).pins = s.pins := by
  unfold takeUpCheck; (repeat' split) <;> simp
@[simp] theorem takeUpCheck_sampleTimer (b : BranchNo) (s : State) : (takeUpCheck b s).sampleTimer = s.sampleTimer := by
  unfold takeUpCheck; (repeat' split) <;> simp
@[simp] theorem takeUpCheck_freeCount (b : BranchNo) (s : State) : (takeUpCheck b s).freeCount = s.freeCount := by
  unfold takeUpCheck; (repeat' split) <;> simp
@[simp] theorem takeUpCheck_pending (b : BranchNo) (s : State) : (takeUpCheck b s).pending = s.pending := by
  unfold takeUpCheck; (repeat' split) <;> simp

/-! ## closeAllocator -/

@[simp] theorem closeAllocator_rail (s : State) : (closeAllocator s).rail = s.rail := by
  unfold closeAllocator
  rw [runRound_rail, forBranches_keeps (fun s : State => s.rail) takeUpCheck fun b s => by simp]
@[simp] theorem closeAllocator_meter (s : State) : (closeAllocator s).meter = s.meter := by
  unfold closeAllocator
  rw [runRound_meter, forBranches_keeps (fun s : State => s.meter) takeUpCheck fun b s => by simp]
@[simp] theorem closeAllocator_drip (s : State) : (closeAllocator s).drip = s.drip := by
  unfold closeAllocator
  rw [runRound_drip, forBranches_keeps (fun s : State => s.drip) takeUpCheck fun b s => by simp]
@[simp] theorem closeAllocator_iso (s : State) : (closeAllocator s).iso = s.iso := by
  unfold closeAllocator
  rw [runRound_iso, forBranches_keeps (fun s : State => s.iso) takeUpCheck fun b s => by simp]
@[simp] theorem closeAllocator_ring (s : State) : (closeAllocator s).ring = s.ring := by
  unfold closeAllocator
  rw [runRound_ring, forBranches_keeps (fun s : State => s.ring) takeUpCheck fun b s => by simp]
@[simp] theorem closeAllocator_lines (s : State) : (closeAllocator s).lines = s.lines := by
  unfold closeAllocator
  rw [runRound_lines, forBranches_keeps (fun s : State => s.lines) takeUpCheck fun b s => by simp]
@[simp] theorem closeAllocator_windows (s : State) : (closeAllocator s).windows = s.windows := by
  unfold closeAllocator
  rw [runRound_windows, forBranches_keeps (fun s : State => s.windows) takeUpCheck fun b s => by simp]
@[simp] theorem closeAllocator_loader (s : State) : (closeAllocator s).loader = s.loader := by
  unfold closeAllocator
  rw [runRound_loader, forBranches_keeps (fun s : State => s.loader) takeUpCheck fun b s => by simp]
@[simp] theorem closeAllocator_params (s : State) : (closeAllocator s).params = s.params := by
  unfold closeAllocator
  rw [runRound_params, forBranches_keeps (fun s : State => s.params) takeUpCheck fun b s => by simp]
@[simp] theorem closeAllocator_eeprom (s : State) : (closeAllocator s).eeprom = s.eeprom := by
  unfold closeAllocator
  rw [runRound_eeprom, forBranches_keeps (fun s : State => s.eeprom) takeUpCheck fun b s => by simp]
@[simp] theorem closeAllocator_pins (s : State) : (closeAllocator s).pins = s.pins := by
  unfold closeAllocator
  rw [runRound_pins, forBranches_keeps (fun s : State => s.pins) takeUpCheck fun b s => by simp]
@[simp] theorem closeAllocator_sampleTimer (s : State) : (closeAllocator s).sampleTimer = s.sampleTimer := by
  unfold closeAllocator
  rw [runRound_sampleTimer, forBranches_keeps (fun s : State => s.sampleTimer) takeUpCheck fun b s => by simp]
@[simp] theorem closeAllocator_freeCount (s : State) : (closeAllocator s).freeCount = s.freeCount := by
  unfold closeAllocator
  rw [runRound_freeCount, forBranches_keeps (fun s : State => s.freeCount) takeUpCheck fun b s => by simp]
@[simp] theorem closeAllocator_pending (s : State) : (closeAllocator s).pending = s.pending := by
  unfold closeAllocator
  rw [runRound_pending, forBranches_keeps (fun s : State => s.pending) takeUpCheck fun b s => by simp]

/-! ## discardFrame -/

@[simp] theorem discardFrame_branches (l : LineNo) (s : State) : (discardFrame l s).branches = s.branches := by
  unfold discardFrame; dsimp only; split <;> rfl
@[simp] theorem discardFrame_rail (l : LineNo) (s : State) : (discardFrame l s).rail = s.rail := by
  unfold discardFrame; dsimp only; split <;> rfl
@[simp] theorem discardFrame_meter (l : LineNo) (s : State) : (discardFrame l s).meter = s.meter := by
  unfold discardFrame; dsimp only; split <;> rfl
@[simp] theorem discardFrame_alloc (l : LineNo) (s : State) : (discardFrame l s).alloc = s.alloc := by
  unfold discardFrame; dsimp only; split <;> rfl
@[simp] theorem discardFrame_valves (l : LineNo) (s : State) : (discardFrame l s).valves = s.valves := by
  unfold discardFrame; dsimp only; split <;> rfl
@[simp] theorem discardFrame_drip (l : LineNo) (s : State) : (discardFrame l s).drip = s.drip := by
  unfold discardFrame; dsimp only; split <;> rfl
@[simp] theorem discardFrame_iso (l : LineNo) (s : State) : (discardFrame l s).iso = s.iso := by
  unfold discardFrame; dsimp only; split <;> rfl
@[simp] theorem discardFrame_ring (l : LineNo) (s : State) : (discardFrame l s).ring = s.ring := by
  unfold discardFrame; dsimp only; split <;> rfl
@[simp] theorem discardFrame_windows (l : LineNo) (s : State) : (discardFrame l s).windows = s.windows := by
  unfold discardFrame; dsimp only; split <;> rfl
@[simp] theorem discardFrame_loader (l : LineNo) (s : State) : (discardFrame l s).loader = s.loader := by
  unfold discardFrame; dsimp only; split <;> rfl
@[simp] theorem discardFrame_params (l : LineNo) (s : State) : (discardFrame l s).params = s.params := by
  unfold discardFrame; dsimp only; split <;> rfl
@[simp] theorem discardFrame_eeprom (l : LineNo) (s : State) : (discardFrame l s).eeprom = s.eeprom := by
  unfold discardFrame; dsimp only; split <;> rfl
@[simp] theorem discardFrame_pins (l : LineNo) (s : State) : (discardFrame l s).pins = s.pins := by
  unfold discardFrame; dsimp only; split <;> rfl
@[simp] theorem discardFrame_sampleTimer (l : LineNo) (s : State) : (discardFrame l s).sampleTimer = s.sampleTimer := by
  unfold discardFrame; dsimp only; split <;> rfl
@[simp] theorem discardFrame_freeCount (l : LineNo) (s : State) : (discardFrame l s).freeCount = s.freeCount := by
  unfold discardFrame; dsimp only; split <;> rfl
@[simp] theorem discardFrame_pending (l : LineNo) (s : State) : (discardFrame l s).pending = s.pending := by
  unfold discardFrame; dsimp only; split <;> rfl

/-! ## raiseLineFault -/

@[simp] theorem raiseLineFault_branches (l : LineNo) (x : Bool) (s : State) : (raiseLineFault l x s).branches = s.branches := rfl
@[simp] theorem raiseLineFault_rail (l : LineNo) (x : Bool) (s : State) : (raiseLineFault l x s).rail = s.rail := rfl
@[simp] theorem raiseLineFault_meter (l : LineNo) (x : Bool) (s : State) : (raiseLineFault l x s).meter = s.meter := rfl
@[simp] theorem raiseLineFault_alloc (l : LineNo) (x : Bool) (s : State) : (raiseLineFault l x s).alloc = s.alloc := rfl
@[simp] theorem raiseLineFault_valves (l : LineNo) (x : Bool) (s : State) : (raiseLineFault l x s).valves = s.valves := rfl
@[simp] theorem raiseLineFault_drip (l : LineNo) (x : Bool) (s : State) : (raiseLineFault l x s).drip = s.drip := rfl
@[simp] theorem raiseLineFault_iso (l : LineNo) (x : Bool) (s : State) : (raiseLineFault l x s).iso = s.iso := rfl
@[simp] theorem raiseLineFault_ring (l : LineNo) (x : Bool) (s : State) : (raiseLineFault l x s).ring = s.ring := rfl
@[simp] theorem raiseLineFault_lines (l : LineNo) (x : Bool) (s : State) : (raiseLineFault l x s).lines = s.lines := rfl
@[simp] theorem raiseLineFault_windows (l : LineNo) (x : Bool) (s : State) : (raiseLineFault l x s).windows = s.windows := rfl
@[simp] theorem raiseLineFault_loader (l : LineNo) (x : Bool) (s : State) : (raiseLineFault l x s).loader = s.loader := rfl
@[simp] theorem raiseLineFault_params (l : LineNo) (x : Bool) (s : State) : (raiseLineFault l x s).params = s.params := rfl
@[simp] theorem raiseLineFault_eeprom (l : LineNo) (x : Bool) (s : State) : (raiseLineFault l x s).eeprom = s.eeprom := rfl
@[simp] theorem raiseLineFault_pins (l : LineNo) (x : Bool) (s : State) : (raiseLineFault l x s).pins = s.pins := rfl
@[simp] theorem raiseLineFault_sampleTimer (l : LineNo) (x : Bool) (s : State) : (raiseLineFault l x s).sampleTimer = s.sampleTimer := rfl
@[simp] theorem raiseLineFault_freeCount (l : LineNo) (x : Bool) (s : State) : (raiseLineFault l x s).freeCount = s.freeCount := rfl
@[simp] theorem raiseLineFault_pending (l : LineNo) (x : Bool) (s : State) : (raiseLineFault l x s).pending = s.pending := rfl

end Sys2Proof.Machine
end

