-- ==== Sys2Proof/Laws/Attention.lean ====
section
/-! SUPPORT. The attention sets: what raising, dropping and clearing a cause does to the pending causes and their lists. -/

namespace Sys2Proof.Machine

open Sys2Proof

@[simp] theorem AttnEntry.merge_cause (x e : AttnEntry) : (x.merge e).cause = x.cause := rfl
@[simp] theorem AttnEntry.merge_key (x e : AttnEntry) : (x.merge e).key = x.key := rfl

/-- Everything an entry of a set after a raise can be (R169). -/
theorem mem_addEntry (xs : List AttnEntry) (e y : AttnEntry) (h : y ∈ addEntry xs e) :
    y ∈ xs ∨ y = e ∨ ∃ x ∈ xs, x.cause = e.cause ∧ x.key = e.key ∧ y = x.merge e := by
  induction xs with
  | nil => right; left; simpa [addEntry] using h
  | cons x xs ih =>
    simp only [addEntry] at h
    split at h
    · rename_i hx
      rcases List.mem_cons.1 h with rfl | h
      · exact .inr (.inr ⟨x, by simp, hx.1, hx.2, rfl⟩)
      · exact .inl (by simp [h])
    · rcases List.mem_cons.1 h with rfl | h
      · exact .inl (by simp)
      · rcases ih h with h | h | ⟨z, hz, h⟩
        · exact .inl (by simp [h])
        · exact .inr (.inl h)
        · exact .inr (.inr ⟨z, by simp [hz], h⟩)

/-- The raised cause has an entry of its key afterwards, with the overrun flag at least as raised. -/
theorem exists_mem_addEntry (xs : List AttnEntry) (e : AttnEntry) :
    ∃ y ∈ addEntry xs e, y.cause = e.cause ∧ y.key = e.key ∧ (e.overrun = true → y.overrun = true) := by
  induction xs with
  | nil => exact ⟨e, by simp [addEntry]⟩
  | cons x xs ih =>
    simp only [addEntry]
    split
    · rename_i hx
      exact ⟨x.merge e, by simp, hx.1, hx.2, fun h => by simp [AttnEntry.merge, h]⟩
    · obtain ⟨y, hy, h⟩ := ih
      exact ⟨y, by simp [hy], h⟩

/-- A cause is pending after a raise when it was, or when it is the one raised. -/
theorem any_addEntry (xs : List AttnEntry) (e : AttnEntry) (c : AttnCause) :
    ((addEntry xs e).any fun x => decide (x.cause = c)) =
      ((xs.any fun x => decide (x.cause = c)) || decide (e.cause = c)) := by
  induction xs with
  | nil => simp [addEntry]
  | cons x xs ih =>
    simp only [addEntry]
    split
    · rename_i hx
      simp only [List.any_cons, AttnEntry.merge_cause, hx.1]
      cases decide (e.cause = c) <;> simp
    · simp only [List.any_cons, ih, Bool.or_assoc]

/-- The list of any other cause is as before a raise. -/
theorem filter_addEntry_ne (xs : List AttnEntry) (e : AttnEntry) {c : AttnCause} (h : e.cause ≠ c) :
    (addEntry xs e).filter (fun x => decide (x.cause = c)) = xs.filter fun x => decide (x.cause = c) := by
  induction xs with
  | nil => simp [addEntry, h]
  | cons x xs ih =>
    simp only [addEntry]
    split
    · rename_i hx
      have : x.cause ≠ c := by rw [hx.1]; exact h
      simp [this]
    · simp [List.filter_cons, ih]

/-- A raise keeps one entry at most for each cause and key (R169). -/
theorem addEntry_pairwise (xs : List AttnEntry) (e : AttnEntry)
    (h : xs.Pairwise fun x y => ¬(x.cause = y.cause ∧ x.key = y.key)) :
    (addEntry xs e).Pairwise fun x y => ¬(x.cause = y.cause ∧ x.key = y.key) := by
  induction xs with
  | nil => simp [addEntry]
  | cons x xs ih =>
    rw [List.pairwise_cons] at h
    simp only [addEntry]
    split
    · rw [List.pairwise_cons]
      exact ⟨fun y hy => by simpa using h.1 y hy, h.2⟩
    · rename_i hx
      rw [List.pairwise_cons]
      refine ⟨fun y hy => ?_, ih h.2⟩
      rcases mem_addEntry xs e y hy with hy | rfl | ⟨z, hz, -, -, rfl⟩
      · exact h.1 y hy
      · exact hx
      · simpa using h.1 z hz

@[simp] theorem raise_attnOf_same (l : LineNo) (e : AttnEntry) (s : State) :
    (raise l e s).attnOf l = { s.attnOf l with entries := addEntry (s.attnOf l).entries e } := by
  simp [raise]

@[simp] theorem raise_attnOf_ne (l : LineNo) (e : AttnEntry) (s : State) {k : LineNo} (h : l ≠ k) :
    (raise l e s).attnOf k = s.attnOf k := by
  simp [raise, h]

/-- A raise leaves every mask alone (R172). -/
@[simp] theorem raise_mask (l k : LineNo) (e : AttnEntry) (s : State) :
    ((raise l e s).attnOf k).mask = (s.attnOf k).mask := by
  by_cases h : l = k
  · subst h; simp
  · simp [h]

/-- What is pending on any line after a raise. -/
theorem isPending_raise (l k : LineNo) (e : AttnEntry) (c : AttnCause) (s : State) :
    isPending ((raise l e s).attnOf k) c =
      (isPending (s.attnOf k) c || (decide (l = k) && decide (e.cause = c))) := by
  by_cases h : l = k
  · subst h; simp [isPending, any_addEntry]
  · simp [h]

/-- The list of any other cause is as before a raise, on every line. -/
theorem detailList_raise_ne (l k : LineNo) (e : AttnEntry) (s : State) {c : AttnCause} (h : e.cause ≠ c) :
    detailList ((raise l e s).attnOf k) c = detailList (s.attnOf k) c := by
  by_cases hl : l = k
  · subst hl; simp [detailList, filter_addEntry_ne _ _ h]
  · simp [hl]

/-- A raised cause is pending on its line. -/
@[simp] theorem isPending_raise_self (l : LineNo) (e : AttnEntry) (s : State) :
    isPending ((raise l e s).attnOf l) e.cause = true := by
  rw [isPending_raise]; simp

/-- What was pending stays pending at a raise. -/
theorem isPending_raise_of (l k : LineNo) (e : AttnEntry) (c : AttnCause) (s : State)
    (h : isPending (s.attnOf k) c = true) : isPending ((raise l e s).attnOf k) c = true := by
  rw [isPending_raise, h, Bool.true_or]

/-- Raising a sled cause for a branch tells its owner line, when it has one (R167). -/
theorem raiseOwner_eq (b : BranchNo) (c : SledCause) (xs : List BranchCause) (s : State) (o : BranchNo)
    (h : (s.br b).owner = some o) :
    raiseOwner b c xs s = raise (sledLine o) ⟨.sled c, localIndex s o b, xs, false⟩ s := by
  simp [raiseOwner, h]

/-- A branch with no owner raises nothing (R167). -/
theorem raiseOwner_none (b : BranchNo) (c : SledCause) (xs : List BranchCause) (s : State) (h : (s.br b).owner = none) :
    raiseOwner b c xs s = s := by
  simp [raiseOwner, h]

theorem isPending_raiseOwner (b : BranchNo) (c : SledCause) (xs : List BranchCause) (s : State) (o : BranchNo)
    (h : (s.br b).owner = some o) :
    isPending ((raiseOwner b c xs s).attnOf (sledLine o)) (.sled c) = true := by
  rw [raiseOwner_eq b c xs s o h]
  exact isPending_raise_self (sledLine o) ⟨.sled c, localIndex s o b, xs, false⟩ s

/-- What was pending stays pending when a sled cause is raised. -/
theorem isPending_raiseOwner_of (b : BranchNo) (c : SledCause) (xs : List BranchCause) (s : State) (k : LineNo)
    (d : AttnCause) (h : isPending (s.attnOf k) d = true) : isPending ((raiseOwner b c xs s).attnOf k) d = true := by
  unfold raiseOwner
  split
  · exact h
  · exact isPending_raise_of _ _ _ _ _ h

/-- A line other than the supervisor's is as before a supervisor cause, and likewise for the plant's. -/
@[simp] theorem raiseSup_attnOf_ne (c : SupCause) (n : Nat) (s : State) {k : LineNo} (h : supLine ≠ k) :
    (raiseSup c n s).attnOf k = s.attnOf k := raise_attnOf_ne _ _ _ h

@[simp] theorem raisePlant_attnOf_ne (c : PlantCause) (s : State) {k : LineNo} (h : plantLine ≠ k) :
    (raisePlant c s).attnOf k = s.attnOf k := raise_attnOf_ne _ _ _ h

@[simp] theorem isPending_raiseSup (c : SupCause) (n : Nat) (s : State) :
    isPending ((raiseSup c n s).attnOf supLine) (.sup c) = true :=
  isPending_raise_self supLine (.of (.sup c) n) s

@[simp] theorem isPending_raisePlant (c : PlantCause) (s : State) :
    isPending ((raisePlant c s).attnOf plantLine) (.plant c) = true :=
  isPending_raise_self plantLine (.of (.plant c) 0) s

/-- Dropping a cause removes its list and keeps every other. -/
theorem detailList_dropCause (l : LineNo) (c d : AttnCause) (s : State) :
    detailList ((dropCause l c s).attnOf l) d = if d = c then [] else detailList (s.attnOf l) d := by
  simp only [dropCause, State.updAttn_attnOf_same, detailList, List.filter_filter]
  split
  · subst_vars; simp
  · rename_i h
    congr 1
    funext e
    by_cases he : e.cause = d
    · simp [he, h]
    · simp [he]

@[simp] theorem dropCause_attnOf_ne (l : LineNo) (c : AttnCause) (s : State) {k : LineNo} (h : l ≠ k) :
    (dropCause l c s).attnOf k = s.attnOf k := by
  simp [dropCause, h]

end Sys2Proof.Machine
end

