-- ==== Sys2Proof/Laws/Clock.lean ====
section
/-! SUPPORT. What falls due in a millisecond, one lemma for the whole list; and that a raise keeps the class of a line. -/

namespace Sys2Proof.Machine

open Sys2Proof

theorem mem_allBranches (b : BranchNo) : b ∈ allBranches := by decide +revert

theorem mem_allStrips (n : StripNo) : n ∈ allStrips := by decide +revert

theorem mem_dueInputs (s : State) (c : Instr) : c ∈ dueInputs s ↔
    (3 ≤ s.iso.tripCandidate ∧ ((s.iso.tripAsserted = true ∧ c = .tripInNegated) ∨
      (s.iso.tripAsserted = false ∧ c = .tripInAsserted))) ∨
    (3 ≤ s.loader.warmCandidate ∧ ((s.loader.warmAsserted = true ∧ c = .warmRstNegated) ∨
      (s.loader.warmAsserted = false ∧ c = .warmRstAsserted))) := by
  unfold dueInputs
  cases s.iso.tripAsserted <;> cases s.loader.warmAsserted <;> by_cases h : 3 ≤ s.iso.tripCandidate <;>
    by_cases k : 3 ≤ s.loader.warmCandidate <;> simp [h, k]

theorem mem_dueContacts (s : State) (b : BranchNo) (c : Instr) : c ∈ dueContacts s b ↔
    (3 ≤ (s.br b).presentRun ∧ (((s.br b).present = true ∧ c = .presentOpens b) ∨
      ((s.br b).present = false ∧ c = .presentCloses b))) ∨
    (3 ≤ (s.br b).latchRun ∧ (((s.br b).latched = true ∧ c = .latchOpens b) ∨
      ((s.br b).latched = false ∧ c = .latchCloses b))) := by
  unfold dueContacts
  cases hp : (s.br b).present <;> cases hl : (s.br b).latched <;> by_cases h : 3 ≤ (s.br b).presentRun <;>
    by_cases k : 3 ≤ (s.br b).latchRun <;> simp [h, k, hp, hl]

theorem mem_dueStrip (s : State) (n : StripNo) (c : Instr) : c ∈ dueStrip s n ↔
    ∃ x, (s.strip n).candidate = some x ∧ s.params.debounce ≤ (s.strip n).count ∧ c = .stripStateChange n x := by
  unfold dueStrip
  cases (s.strip n).candidate with
  | none => simp
  | some x => by_cases h : s.params.debounce ≤ (s.strip n).count <;> simp [h]

theorem mem_dueDock (s : State) (b : BranchNo) (c : Instr) : c ∈ dueDock s b ↔ (s.br b).dockTimer = some 0 ∧
    (((s.br b).dock = .held ∧ c = .seatSettleExpires b) ∨ ((s.br b).dock = .priming ∧ c = .primeTimeoutExpires b) ∨
      ((s.br b).dock = .releasing ∧ c = .closeTimeExpires b) ∨ ((s.br b).dock = .isolating ∧ c = .closeCompletes b) ∨
      ((s.br b).dock = .draining ∧ c = .drainLimitExpires b)) := by
  unfold dueDock
  by_cases h : (s.br b).dockTimer = some 0
  · cases hd : (s.br b).dock <;> simp [h]
  · simp [h]

theorem mem_dueRail (s : State) (c : Instr) : c ∈ dueRail s ↔ s.rail.timer = some 0 ∧
    ((s.rail.state = .closing ∧ c = .railCloseTimeExpires) ∨ (s.rail.state = .opening ∧ c = .railOpenTimeExpires)) := by
  unfold dueRail
  by_cases h : s.rail.timer = some 0
  · cases hd : s.rail.state <;> simp [h]
  · simp [h]

theorem mem_dueBudget (s : State) (c : Instr) : c ∈ dueBudget s ↔ ageRuns s = true ∧
    ((s.alloc.ageState = .fresh ∧ s.params.budgetHold * 1000 ≤ s.alloc.age ∧ c = .budgetHoldExpires) ∨
      (s.alloc.ageState = .stale ∧ s.params.fallbackTime * 1000 ≤ s.alloc.age ∧ c = .fallbackTimeExpires)) := by
  unfold dueBudget
  cases h : ageRuns s
  · simp
  · cases hd : s.alloc.ageState
    · by_cases k : s.params.budgetHold * 1000 ≤ s.alloc.age <;> simp [k]
    · by_cases k : s.params.fallbackTime * 1000 ≤ s.alloc.age <;> simp [k]
    · simp

theorem mem_dueClocks (s : State) (c : Instr) : c ∈ dueClocks s ↔
    (s.meter.windowTimer = some 0 ∧ c = .windowClose ClosePart.all) ∨ (s.valves.periodTimer = 0 ∧ c = .periodStart) := by
  unfold dueClocks
  by_cases h : s.meter.windowTimer = some 0 <;> by_cases k : s.valves.periodTimer = 0 <;> simp [h, k]

theorem mem_dueEvents_iff (sampled : Bool) (s : State) (c : Instr) : c ∈ dueEvents sampled s ↔
    (sampled = true ∧ ((∃ b, c ∈ dueContacts s b) ∨ ∃ n, c ∈ dueStrip s n)) ∨ c ∈ dueInputs s ∨ c ∈ dueRail s ∨
      (∃ b, c ∈ dueDock s b) ∨ c ∈ dueBudget s ∨ c ∈ dueClocks s := by
  unfold dueEvents dueSamples
  cases sampled <;> simp [mem_allBranches, mem_allStrips, or_assoc]

/-- Log 2: the events due are exactly those that fall due. -/
theorem mem_dueEvents (sampled : Bool) (s : State) (c : Instr) :
    c ∈ dueEvents sampled s ↔ Safety.FallsDue (sampled = true) s c := by
  simp only [mem_dueEvents_iff, mem_dueInputs, mem_dueContacts, mem_dueStrip, mem_dueRail, mem_dueDock, mem_dueBudget,
    mem_dueClocks]
  cases c <;> simp [Safety.FallsDue, ageRuns, and_comm]

/-! ## Each once -/

theorem dueContacts_disjoint (s : State) {b d : BranchNo} (h : b ≠ d) : (dueContacts s b).Disjoint (dueContacts s d) := by
  intro c hb hd
  rw [mem_dueContacts] at hb hd
  rcases hb with ⟨_, ⟨_, rfl⟩ | ⟨_, rfl⟩⟩ | ⟨_, ⟨_, rfl⟩ | ⟨_, rfl⟩⟩ <;> simp [h] at hd

theorem dueStrip_disjoint (s : State) {n m : StripNo} (h : n ≠ m) : (dueStrip s n).Disjoint (dueStrip s m) := by
  intro c hn hm
  rw [mem_dueStrip] at hn hm
  obtain ⟨x, _, _, rfl⟩ := hn
  simp [h] at hm

theorem dueDock_disjoint (s : State) {b d : BranchNo} (h : b ≠ d) : (dueDock s b).Disjoint (dueDock s d) := by
  intro c hb hd
  rw [mem_dueDock] at hb hd
  rcases hb.2 with ⟨_, rfl⟩ | ⟨_, rfl⟩ | ⟨_, rfl⟩ | ⟨_, rfl⟩ | ⟨_, rfl⟩ <;> simp [h] at hd

theorem dueSamples_nodup (s : State) : (dueSamples s).Nodup := by
  refine List.nodup_append'.2 ⟨List.nodup_flatMap.2 ⟨fun b _ => ?_, ?_⟩, List.nodup_flatMap.2 ⟨fun n _ => ?_, ?_⟩, ?_⟩
  · unfold dueContacts
    cases hp : (s.br b).present <;> cases hl : (s.br b).latched <;> by_cases h : 3 ≤ (s.br b).presentRun <;>
      by_cases k : 3 ≤ (s.br b).latchRun <;> simp [h, k, hp, hl]
  · exact (by decide : allBranches.Pairwise (· ≠ ·)).imp fun h => dueContacts_disjoint s h
  · unfold dueStrip
    split
    · simp
    · split <;> simp
  · exact (by decide : allStrips.Pairwise (· ≠ ·)).imp fun h => dueStrip_disjoint s h
  · intro c h k
    simp only [List.mem_flatMap, mem_dueContacts, mem_dueStrip] at h k
    obtain ⟨n, _, x, _, _, rfl⟩ := k
    simp at h

/-- The place of an event that falls due in the order of log 2. -/
def dueGroup (c : Instr) : Nat :=
  match c with
  | .presentCloses _ | .presentOpens _ | .latchCloses _ | .latchOpens _ | .stripStateChange _ _ => 0
  | .tripInAsserted | .tripInNegated | .warmRstAsserted | .warmRstNegated => 1
  | .railCloseTimeExpires | .railOpenTimeExpires => 2
  | .seatSettleExpires _ | .primeTimeoutExpires _ | .closeTimeExpires _ | .closeCompletes _ | .drainLimitExpires _ => 3
  | .budgetHoldExpires | .fallbackTimeExpires => 4
  | _ => 5

theorem dueGroup_inputs {s : State} {c : Instr} (h : c ∈ dueInputs s) : dueGroup c = 1 := by
  rcases (mem_dueInputs s c).1 h with ⟨_, ⟨_, rfl⟩ | ⟨_, rfl⟩⟩ | ⟨_, ⟨_, rfl⟩ | ⟨_, rfl⟩⟩ <;> rfl

theorem dueGroup_samples {s : State} {c : Instr} (h : c ∈ dueSamples s) : dueGroup c = 0 := by
  simp only [dueSamples, List.mem_append, List.mem_flatMap, mem_dueContacts, mem_dueStrip] at h
  rcases h with ⟨_, _, ⟨_, ⟨_, rfl⟩ | ⟨_, rfl⟩⟩ | ⟨_, ⟨_, rfl⟩ | ⟨_, rfl⟩⟩⟩ | ⟨_, _, _, _, _, rfl⟩ <;> rfl

theorem dueGroup_rail {s : State} {c : Instr} (h : c ∈ dueRail s) : dueGroup c = 2 := by
  rcases (mem_dueRail s c).1 h with ⟨_, ⟨_, rfl⟩ | ⟨_, rfl⟩⟩ <;> rfl

theorem dueGroup_docks {s : State} {c : Instr} (h : c ∈ allBranches.flatMap (dueDock s)) : dueGroup c = 3 := by
  simp only [List.mem_flatMap, mem_dueDock] at h
  rcases h with ⟨_, _, _, ⟨_, rfl⟩ | ⟨_, rfl⟩ | ⟨_, rfl⟩ | ⟨_, rfl⟩ | ⟨_, rfl⟩⟩ <;> rfl

theorem dueGroup_budget {s : State} {c : Instr} (h : c ∈ dueBudget s) : dueGroup c = 4 := by
  rcases (mem_dueBudget s c).1 h with ⟨_, ⟨_, _, rfl⟩ | ⟨_, _, rfl⟩⟩ <;> rfl

theorem dueGroup_clocks {s : State} {c : Instr} (h : c ∈ dueClocks s) : dueGroup c = 5 := by
  rcases (mem_dueClocks s c).1 h with ⟨_, rfl⟩ | ⟨_, rfl⟩ <;> rfl

theorem dueInputs_nodup (s : State) : (dueInputs s).Nodup := by
  unfold dueInputs
  cases s.iso.tripAsserted <;> cases s.loader.warmAsserted <;> by_cases h : 3 ≤ s.iso.tripCandidate <;>
    by_cases k : 3 ≤ s.loader.warmCandidate <;> simp [h, k]

theorem dueRail_nodup (s : State) : (dueRail s).Nodup := by
  unfold dueRail
  split
  · split <;> simp
  · simp

theorem dueDocks_nodup (s : State) : (allBranches.flatMap (dueDock s)).Nodup := by
  refine List.nodup_flatMap.2 ⟨fun b _ => ?_, ?_⟩
  · unfold dueDock
    split
    · split <;> simp
    · simp
  · exact (by decide : allBranches.Pairwise (· ≠ ·)).imp fun h => dueDock_disjoint s h

theorem dueBudget_nodup (s : State) : (dueBudget s).Nodup := by
  unfold dueBudget
  split
  · simp
  · split
    · split <;> simp
    · split <;> simp
    · simp

theorem dueClocks_nodup (s : State) : (dueClocks s).Nodup := by
  unfold dueClocks
  by_cases h : s.meter.windowTimer = some 0 <;> by_cases k : s.valves.periodTimer = 0 <;> simp [h, k]

/-- Log 2: no event is due twice. -/
theorem dueEvents_nodup (sampled : Bool) (s : State) : (dueEvents sampled s).Nodup := by
  have groups : ∀ {xs ys : List Instr} {n : Nat}, xs.Nodup → ys.Nodup → (∀ c ∈ xs, dueGroup c < n) →
      (∀ c ∈ ys, dueGroup c = n) → (xs ++ ys).Nodup ∧ ∀ c ∈ xs ++ ys, dueGroup c < n + 1 := by
    intro xs ys n hx hy kx ky
    refine ⟨List.nodup_append'.2 ⟨hx, hy, fun c h k => absurd (ky c k) (kx c h).ne⟩, fun c h => ?_⟩
    rcases List.mem_append.1 h with h | h
    · exact (kx c h).trans n.lt_succ_self
    · exact (ky c h).trans_lt n.lt_succ_self
  have h1 := groups (xs := if sampled then dueSamples s else []) (by cases sampled; exacts [List.nodup_nil, dueSamples_nodup s])
    (dueInputs_nodup s) (by cases sampled; exacts [by simp, fun c h => by simp [dueGroup_samples h]])
    fun c h => dueGroup_inputs h
  have h2 := groups h1.1 (dueRail_nodup s) h1.2 fun c h => dueGroup_rail h
  have h3 := groups h2.1 (dueDocks_nodup s) h2.2 fun c h => dueGroup_docks h
  have h4 := groups h3.1 (dueBudget_nodup s) h3.2 fun c h => dueGroup_budget h
  exact (groups h4.1 (dueClocks_nodup s) h4.2 fun c h => dueGroup_clocks h).1

/-- R112, R123, log 2: a change that a sample has shown stands before a warm restart of the same millisecond. -/
theorem dueEvents_strip_before_restart {s : State} {n : StripNo} {x : StripState} {sampled : Bool}
    (h : .stripStateChange n x ∈ dueEvents sampled s) (k : .warmRstAsserted ∈ dueEvents sampled s) :
    List.Sublist [.stripStateChange n x, .warmRstAsserted] (dueEvents sampled s) := by
  obtain ⟨rfl, hc, hn⟩ := (mem_dueEvents sampled s _).1 h
  have hs : .stripStateChange n x ∈ dueSamples s :=
    List.mem_append_right _ (List.mem_flatMap.2 ⟨n, mem_allStrips n, (mem_dueStrip s n _).2 ⟨x, hc, hn, rfl⟩⟩)
  have hw : .warmRstAsserted ∈ dueInputs s := (mem_dueInputs s _).2 (.inr ⟨(mem_dueEvents true s _).1 k |>.2, .inr ⟨
    (mem_dueEvents true s _).1 k |>.1, rfl⟩⟩)
  simp only [dueEvents, List.append_assoc, ite_true]
  refine (List.singleton_sublist.2 hs).append ((List.singleton_sublist.2 hw).trans (List.sublist_append_left _ _))

/-! ## The class of a line's causes (10.1) -/

/-- A cause of the line's class raised on it keeps every entry of its class. -/
theorem raise_classLaw {l : LineNo} {e : AttnEntry} {s : State} (h : Safety.ClassLaw s)
    (k : e.cause ∈ (lineClass l).causes) : Safety.ClassLaw (raise l e s) := by
  intro m y hy
  by_cases hm : l = m
  · subst hm
    rw [raise_attnOf_same] at hy
    rcases mem_addEntry _ _ _ hy with hy | rfl | ⟨_, _, hc, _, rfl⟩
    · exact h l y hy
    · exact k
    · rwa [AttnEntry.merge_cause, hc]
  · rw [raise_attnOf_ne _ _ _ hm] at hy
    exact h m y hy

theorem SupCause.mem_class (c : SupCause) : AttnCause.sup c ∈ (lineClass supLine).causes := by cases c <;> decide

theorem PlantCause.mem_class (c : PlantCause) : AttnCause.plant c ∈ (lineClass plantLine).causes := by cases c <;> decide

theorem SledCause.mem_class (c : SledCause) (o : BranchNo) : AttnCause.sled c ∈ (lineClass (sledLine o)).causes := by
  have h : lineClass (sledLine o) = .sled := by decide +revert
  rw [h]
  cases c <;> decide

theorem raiseSup_classLaw {s : State} (h : Safety.ClassLaw s) (c : SupCause) (key : Nat) :
    Safety.ClassLaw (raiseSup c key s) := raise_classLaw h c.mem_class

theorem raisePlant_classLaw {s : State} (h : Safety.ClassLaw s) (c : PlantCause) : Safety.ClassLaw (raisePlant c s) :=
  raise_classLaw h c.mem_class

theorem raiseOwner_classLaw {s : State} (h : Safety.ClassLaw s) (b : BranchNo) (c : SledCause) (xs : List BranchCause) :
    Safety.ClassLaw (raiseOwner b c xs s) := by
  cases ho : (s.br b).owner with
  | none => rwa [raiseOwner_none b c xs s ho]
  | some o => rw [raiseOwner_eq b c xs s o ho]; exact raise_classLaw h (c.mem_class o)

end Sys2Proof.Machine
end

