-- ==== Sys2Proof/Laws/Incidents.lean ====
section
/-! SUPPORT. The Incident Ring's four cases and the closing of a record, one equation each; what is left while a
round is shared. -/

namespace Sys2Proof.Machine

open Sys2Proof

/-! ## A cause comes to the ring (R144) -/

/-- R147: a target with an OPEN record has the cause joined to it. -/
theorem ringAdd_of_open {s : State} {g : Target} {k : SlotNo} (h : Safety.HasOpenRecord s g k) (c : Cause) (byContact : Bool) :
    ringAdd g c byContact s = s.updSlot k (Slot.join c byContact) := by
  simp [ringAdd, h.1, h.2]

/-- R146: a target whose record is no longer OPEN loses the incident, and the log stays as it is. -/
theorem ringAdd_of_closed {s : State} {g : Target} {k : SlotNo} (h : incidentOf s g = some k)
    (hc : (s.slot k).state ≠ .opened) (c : Cause) (byContact : Bool) :
    ringAdd g c byContact s = loseIncident g false s := by
  unfold ringAdd
  rw [h]
  cases hs : (s.slot k).state <;> simp_all

/-- R145: a target without a record opens one in the FREE slot at the Fill Index while the log is ACTIVE. -/
theorem ringAdd_of_free {s : State} {g : Target} (h : incidentOf s g = none) (ha : s.ring.suspended = false)
    (hf : (s.slot s.ring.fill).state = .free) (c : Cause) (byContact : Bool) :
    ringAdd g c byContact s = openRecord g c byContact s := by
  simp [ringAdd, h, ha, hf]

/-- R146: without a FREE slot there, or with the log SUSPENDED, the incident is lost and the log SUSPENDED. -/
theorem ringAdd_of_full {s : State} {g : Target} (h : incidentOf s g = none)
    (hf : s.ring.suspended = true ∨ (s.slot s.ring.fill).state ≠ .free) (c : Cause) (byContact : Bool) :
    ringAdd g c byContact s = loseIncident g true s := by
  simp only [ringAdd, h]
  rcases hf with hf | hf <;> simp [hf]

/-! ## A record closes (R149, R150) -/

/-- The slot a close acts on is that of the target's OPEN record. -/
theorem openSlot_eq_some {s : State} {g : Target} {k : SlotNo} :
    openSlot s g = some k ↔ Safety.HasOpenRecord s g k := by
  simp only [openSlot, Safety.HasOpenRecord]
  cases h : incidentOf s g with
  | none => simp
  | some j =>
    simp only [Option.some.injEq]
    split <;> aesop

/-- A target without an OPEN record has none to close. -/
theorem closeRecord_of_none {s : State} {g : Target} (h : openSlot s g = none) : closeRecord g s = s := by
  simp [closeRecord, h]

@[simp] theorem closedNow_eq (s : State) (g : Target) : Safety.closedNow s g = standsClosed s g := by
  cases g <;> rfl

/-- R115: the common role, as the model tests it. -/
theorem actsCommon_iff (s : State) (n : StripNo) : actsCommon s n = true ↔ Safety.CommonRole s n := by
  unfold actsCommon Safety.CommonRole
  split
  · rename_i h
    simp only [decide_eq_true_eq]
    exact ⟨fun k => .inr ⟨⟨n.val, h⟩, rfl, k⟩, fun k => k.elim (fun k => absurd h (by omega))
      fun ⟨b, hb, k⟩ => by rwa [show (⟨n.val, h⟩ : BranchNo) = b from Fin.ext hb.symm]⟩
  · simp; omega

/-- R118: the freeze, as the model tests it. -/
theorem frozen_iff (s : State) : frozen s = true ↔ Safety.AdmissionsFrozen s := by
  have h : ∀ n, n ∈ allStrips := by decide
  simp [frozen, Safety.AdmissionsFrozen, actsCommon_iff, h]

@[simp] theorem wetNow_eq (s : State) (g : Target) : Safety.wetNow s g = wetAtClose s g := by
  cases g
  · rfl
  · rw [Bool.eq_iff_iff]; exact (by simp [Safety.wetNow] : _ ↔ Safety.AdmissionsFrozen s).trans (frozen_iff s).symm

/-! ## The sharing of a round (R56) -/

/-- A step takes from what is left at most what is left. -/
theorem giveStep_rm_le (s : State) (sh : Share) (b : BranchNo) : (giveStep s sh b).rm ≤ sh.rm := by
  simp [giveStep]

/-- A visit of a pass leaves at most what was left. -/
theorem passVisit_rm_le (s : State) (sh : Share) (b : BranchNo) : (passVisit s sh b).rm ≤ sh.rm := by
  unfold passVisit
  split
  · exact giveStep_rm_le s sh b
  · exact le_refl _

/-- So does a pass over any list of branches. -/
theorem foldl_passVisit_rm_le (s : State) (bs : List BranchNo) (sh : Share) :
    (bs.foldl (passVisit s) sh).rm ≤ sh.rm := by
  induction bs generalizing sh with
  | nil => exact le_refl _
  | cons b bs ih => exact (ih _).trans (passVisit_rm_le s sh b)

theorem pass_rm_le (s : State) (sh : Share) : (pass s sh).rm ≤ sh.rm := foldl_passVisit_rm_le _ _ _

theorem tierZeroStep_rm_le (s : State) (sh : Share) : (tierZeroStep s sh).rm ≤ sh.rm := by
  unfold tierZeroStep
  split
  · exact le_refl _
  · split
    · exact le_refl _
    · exact giveStep_rm_le s sh _

end Sys2Proof.Machine
end

