-- ==== Sys2Proof/Laws/Isolation.lean ====
section
/-! SUPPORT. The Incident Ring and the isolation sets: what an incident leaves of a branch and of the rail, and what a cause
added does to its branch and to the others. -/

namespace Sys2Proof.Machine

open Sys2Proof

/-! ## Incidents -/

@[simp] theorem setIncident_branch_rail (b : BranchNo) (r : Option SlotNo) (x : Bool) (s : State) :
    (setIncident (.branch b) r x s).rail = s.rail := rfl

@[simp] theorem setIncident_rail_branches (r : Option SlotNo) (x : Bool) (s : State) :
    (setIncident .rail r x s).branches = s.branches := rfl

/-- `t` differs from `s`, in the branches and the rail, by incident references and lost flags alone. -/
structure SameButIncidents (s t : State) : Prop where
  br : ∀ b, t.br b = { s.br b with incident := (t.br b).incident, lost := (t.br b).lost }
  rail : t.rail = { s.rail with incident := t.rail.incident, lost := t.rail.lost }

theorem SameButIncidents.refl (s : State) : SameButIncidents s s := ⟨fun _ => rfl, rfl⟩

theorem SameButIncidents.trans {s t u : State} (h : SameButIncidents s t) (k : SameButIncidents t u) :
    SameButIncidents s u :=
  ⟨fun b => by rw [k.br b, h.br b], by rw [k.rail, h.rail]⟩

/-- The records are the same records. -/
theorem SameButIncidents.of_eq {s t : State} (h : t.branches = s.branches) (k : t.rail = s.rail) :
    SameButIncidents s t :=
  ⟨fun b => by simp only [State.br, h], by rw [k]⟩

theorem setIncident_same (t : Target) (r : Option SlotNo) (x : Bool) (s : State) :
    SameButIncidents s (setIncident t r x s) := by
  cases t with
  | rail => exact ⟨fun _ => rfl, rfl⟩
  | branch b =>
    refine ⟨fun c => ?_, rfl⟩
    by_cases h : b = c
    · subst h; simp [setIncident]
    · simp [setIncident, h]

theorem closeRecord_same (t : Target) (s : State) : SameButIncidents s (closeRecord t s) :=
  .of_eq (by simp) (by simp)

theorem openRecord_same (t : Target) (c : Cause) (x : Bool) (s : State) : SameButIncidents s (openRecord t c x s) := by
  unfold openRecord
  dsimp only
  split
  · refine .trans (.trans ?_ (setIncident_same _ _ _ _)) (closeRecord_same _ _)
    exact .of_eq rfl rfl
  · refine .trans ?_ (setIncident_same _ _ _ _)
    exact .of_eq rfl rfl

theorem loseIncident_same (t : Target) (x : Bool) (s : State) : SameButIncidents s (loseIncident t x s) :=
  .trans (setIncident_same _ _ _ _) (.of_eq rfl rfl)

/-- R144: whatever the ring does with a cause, it writes references, lost flags, slots and attention causes alone. -/
theorem ringAdd_same (t : Target) (c : Cause) (x : Bool) (s : State) : SameButIncidents s (ringAdd t c x s) := by
  unfold ringAdd
  split
  · split
    · exact .of_eq rfl rfl
    all_goals exact loseIncident_same _ _ _
  · split
    · exact openRecord_same _ _ _ _
    · exact loseIncident_same _ _ _

@[simp] theorem markHotPull_br (b c : BranchNo) (s : State) : (markHotPull b s).br c = s.br c := by
  unfold markHotPull; split <;> rfl

/-- The dock state, set and timer of every branch are as before an incident. -/
theorem SameButIncidents.dock {s t : State} (h : SameButIncidents s t) (b : BranchNo) :
    (t.br b).dock = (s.br b).dock := by rw [h.br b]

theorem SameButIncidents.causes {s t : State} (h : SameButIncidents s t) (b : BranchNo) :
    (t.br b).causes = (s.br b).causes := by rw [h.br b]

theorem SameButIncidents.dockTimer {s t : State} (h : SameButIncidents s t) (b : BranchNo) :
    (t.br b).dockTimer = (s.br b).dockTimer := by rw [h.br b]

theorem SameButIncidents.grant {s t : State} (h : SameButIncidents s t) (b : BranchNo) :
    (t.br b).grant = (s.br b).grant := by rw [h.br b]

theorem SameButIncidents.owner {s t : State} (h : SameButIncidents s t) (b : BranchNo) :
    (t.br b).owner = (s.br b).owner := by rw [h.br b]

/-- An incident of a branch leaves every other branch and the rail as they are. -/
theorem setIncident_branch_br_ne (b : BranchNo) (r : Option SlotNo) (x : Bool) (s : State) {c : BranchNo} (h : b ≠ c) :
    (setIncident (.branch b) r x s).br c = s.br c := by
  simp [setIncident, h]

@[simp] theorem closeRecord_br (t : Target) (s : State) (c : BranchNo) : (closeRecord t s).br c = s.br c := by
  simp only [State.br, closeRecord_branches]

theorem openRecord_branch_kept (b : BranchNo) (c : Cause) (x : Bool) (s : State) :
    (openRecord (.branch b) c x s).rail = s.rail ∧ ∀ d, b ≠ d → (openRecord (.branch b) c x s).br d = s.br d := by
  unfold openRecord
  dsimp only
  split
  · exact ⟨by simp, fun d h => by simp [setIncident_branch_br_ne _ _ _ _ h]⟩
  · exact ⟨by simp, fun d h => by simp [setIncident_branch_br_ne _ _ _ _ h]⟩

theorem loseIncident_branch_kept (b : BranchNo) (x : Bool) (s : State) :
    (loseIncident (.branch b) x s).rail = s.rail ∧ ∀ d, b ≠ d → (loseIncident (.branch b) x s).br d = s.br d :=
  ⟨rfl, fun _ h => setIncident_branch_br_ne _ _ _ _ h⟩

/-- R144: a cause of a branch leaves the rail and every other branch as they are. -/
theorem ringAdd_branch_kept (b : BranchNo) (c : Cause) (x : Bool) (s : State) :
    (ringAdd (.branch b) c x s).rail = s.rail ∧ ∀ d, b ≠ d → (ringAdd (.branch b) c x s).br d = s.br d := by
  unfold ringAdd
  split
  · split
    · exact ⟨rfl, fun _ _ => rfl⟩
    all_goals exact loseIncident_branch_kept _ _ _
  · split
    · exact openRecord_branch_kept _ _ _ _
    · exact loseIncident_branch_kept _ _ _

/-! ## A cause added to a branch (R124, R25) -/

@[simp] theorem raiseOwner_br (b c : BranchNo) (k : SledCause) (xs : List BranchCause) (s : State) :
    (raiseOwner b k xs s).br c = s.br c := by
  simp only [State.br, raiseOwner_branches]

/-- A cause already in the set changes nothing (R124). -/
theorem addCauseCore_of_mem (b : BranchNo) (c : BranchCause) (x : Bool) (s : State) (h : c ∈ (s.br b).causes) :
    addCauseCore b c x s = s := by
  simp [addCauseCore, h]

/-- Everything a cause added to a branch does to the other branches and to the rail: nothing. -/
theorem addCauseCore_kept (b : BranchNo) (c : BranchCause) (x : Bool) (s : State) :
    (addCauseCore b c x s).rail = s.rail ∧ ∀ d, b ≠ d → (addCauseCore b c x s).br d = s.br d := by
  unfold addCauseCore
  split
  · exact ⟨rfl, fun _ _ => rfl⟩
  · dsimp only
    split
    · refine ⟨?_, fun d h => ?_⟩
      · rw [(ringAdd_branch_kept _ _ _ _).1]; simp
      · rw [(ringAdd_branch_kept _ _ _ _).2 d h]; simp [h]
    · exact ⟨by simp, fun d h => by simp [h]⟩

/-- Everything a cause new to the set does to its own branch: R25's response, and the incident. -/
theorem addCauseCore_br_same (b : BranchNo) (c : BranchCause) (x : Bool) (s : State) (h : c ∉ (s.br b).causes) :
    (addCauseCore b c x s).br b =
      { Branch.respond (closeTimer s) { s.br b with causes := (s.br b).causes ++ [c] } with
        incident := ((addCauseCore b c x s).br b).incident
        lost := ((addCauseCore b c x s).br b).lost } := by
  have key : SameButIncidents
      (s.updBranch b fun br => Branch.respond (closeTimer s) { br with causes := br.causes ++ [c] })
      (addCauseCore b c x s) := by
    unfold addCauseCore
    rw [if_neg (by simpa using h)]
    dsimp only
    split
    · refine .trans ?_ (ringAdd_same _ _ _ _)
      exact .of_eq (by simp) (by simp)
    · exact .of_eq (by simp) (by simp)
  have := key.br b
  rwa [State.updBranch_br_same] at this

/-- R25: where a cause leaves the dock state. -/
theorem Branch.respond_dock (close : Option Nat) (br : Branch) :
    (br.respond close).dock =
      match br.dock with
      | .priming | .admitted | .adopting | .releasing | .isolating => .isolating
      | .vacant | .seated | .held | .draining | .pullReady | .isolated => .isolated := by
  obtain ⟨d⟩ := br
  cases d <;> rfl

@[simp] theorem Branch.respond_causes (close : Option Nat) (br : Branch) : (br.respond close).causes = br.causes := by
  obtain ⟨d⟩ := br
  cases d <;> rfl

/-- After a cause is added its branch holds it. -/
theorem mem_causes_addCauseCore (b : BranchNo) (c : BranchCause) (x : Bool) (s : State) :
    c ∈ ((addCauseCore b c x s).br b).causes := by
  by_cases h : c ∈ (s.br b).causes
  · rw [addCauseCore_of_mem b c x s h]; exact h
  · rw [addCauseCore_br_same b c x s h]; simp

/-! ## The fields of a record at each entry action -/

@[simp] theorem Branch.enter_dock (d : DockState) (br : Branch) : (br.enter d).dock = d := rfl
@[simp] theorem Branch.enter_led (d : DockState) (br : Branch) : (br.enter d).led = d.led := rfl
@[simp] theorem Branch.enter_causes (d : DockState) (br : Branch) : (br.enter d).causes = br.causes := rfl
@[simp] theorem Branch.enter_grant (d : DockState) (br : Branch) : (br.enter d).grant = br.grant := rfl
@[simp] theorem Branch.redrive_dock (br : Branch) : br.redrive.dock = br.dock := rfl
@[simp] theorem Branch.redrive_grant (br : Branch) : br.redrive.grant = br.grant := rfl
@[simp] theorem Branch.redrive_causes (br : Branch) : br.redrive.causes = br.causes := rfl
@[simp] theorem Branch.redrive_led (br : Branch) : br.redrive.led = br.led := rfl
@[simp] theorem Branch.redrive_commanded (br : Branch) : br.redrive.commanded = br.duty := rfl

/-- The LED pattern is the dock state's after every entry action (R7). -/
theorem Branch.led_of_entry (br : Branch) (p : Params) (n : Nat) (x : Bool) :
    br.toVacant.led = br.toVacant.dock.led ∧ br.toSeated.led = br.toSeated.dock.led ∧
      (br.toHeld n x).led = (br.toHeld n x).dock.led ∧ (br.toPriming p).led = (br.toPriming p).dock.led ∧
      br.toAdmitted.led = br.toAdmitted.dock.led ∧ (br.toReleasing p).led = (br.toReleasing p).dock.led ∧
      (br.toDraining p).led = (br.toDraining p).dock.led ∧ br.toPullReady.led = br.toPullReady.dock.led ∧
      br.toIsolated.led = br.toIsolated.dock.led :=
  ⟨rfl, rfl, rfl, rfl, rfl, rfl, rfl, rfl, rfl⟩

/-! ## The gate -/

/-- Everything the gate of a bay can do: nothing, or the entry into PRIMING. -/
theorem gate_eq (b : BranchNo) (s : State) :
    gate b s = s ∨ (gateOpen s b = true ∧ gate b s = s.updBranch b (Branch.toPriming s.params)) := by
  unfold gate
  split
  · right; exact ⟨by assumption, rfl⟩
  · left; rfl

@[simp] theorem gate_br_ne (b : BranchNo) (s : State) {c : BranchNo} (h : b ≠ c) : (gate b s).br c = s.br c := by
  rcases gate_eq b s with e | ⟨-, e⟩ <;> rw [e]
  exact State.updBranch_br_ne s b _ h

end Sys2Proof.Machine
end

