-- ==== Sys2Proof/Laws/Lines.lean ====
section
/-! SUPPORT. The octets of replies, the start of a reply, the wait for the idle level, what an index names, and the
conversion of a meter window. -/

namespace Sys2Proof.Machine

open Sys2Proof

/-! ## Octets -/

@[simp] theorem toOctets_length (k n : Nat) : (toOctets k n).length = k := by
  induction k with
  | zero => rfl
  | succ k ih => simp [toOctets, ih]

@[simp] theorem toOctetsInt_length (k : Nat) (n : Int) : (toOctetsInt k n).length = k := toOctets_length _ _

@[simp] theorem octetAt_cons_succ (x : Byte) (xs : List Byte) (i : Nat) : octetAt (x :: xs) (i + 1) = octetAt xs i := by
  simp [octetAt]

@[simp] theorem octetAt_cons_zero (x : Byte) (xs : List Byte) : octetAt (x :: xs) 0 = x.toNat := by
  simp [octetAt]

@[simp] theorem octet_toNat (n : Nat) : (octet n).toNat = n % 256 := by
  simp [octet]

theorem octetAt_append_right (xs ys : List Byte) (i : Nat) : octetAt (xs ++ ys) (xs.length + i) = octetAt ys i := by
  simp [octetAt, List.getD, List.getElem?_append_right]

/-- A number past the end of one run of octets is read from the next. -/
theorem numberAt_append_right (xs ys : List Byte) (i k : Nat) :
    numberAt (xs ++ ys) (xs.length + i) k = numberAt ys i k := by
  induction k generalizing i with
  | zero => rfl
  | succ k ih => simp only [numberAt, octetAt_append_right, Nat.add_assoc, ih]

theorem numberAt_cons_succ (x : Byte) (xs : List Byte) (i k : Nat) : numberAt (x :: xs) (i + 1) k = numberAt xs i k := by
  induction k generalizing i with
  | zero => rfl
  | succ k ih => simp only [numberAt, octetAt_cons_succ, ih]

/-- A number written in `k` octets reads back modulo 256 to the `k`. -/
theorem numberAt_toOctets (k n : Nat) (ys : List Byte) : numberAt (toOctets k n ++ ys) 0 k = n % 256 ^ k := by
  induction k with
  | zero => simp [numberAt, Nat.mod_one]
  | succ k ih =>
    simp only [toOctets, List.cons_append, numberAt, octetAt_cons_zero, octet_toNat]
    rw [numberAt_cons_succ, ih, Nat.pow_succ, Nat.mod_mul]
    ring

/-- A signed number written in `k` octets reads back modulo 256 to the `k`. -/
theorem numberAt_toOctetsInt (k : Nat) (n : Int) (ys : List Byte) :
    (numberAt (toOctetsInt k n ++ ys) 0 k : Int) = n % (256 ^ k : Nat) := by
  rw [toOctetsInt, numberAt_toOctets]
  have h : 0 ≤ n % (256 ^ k : Nat) := Int.emod_nonneg _ (by positivity)
  have h2 : n % (256 ^ k : Nat) < (256 ^ k : Nat) := Int.emod_lt_of_pos _ (by positivity)
  rw [Nat.mod_eq_of_lt (by omega), Int.toNat_of_nonneg h]

/-! ## Replies -/

/-- The start of a reply is the reply in the service place, and nothing else (R163). -/
theorem startReply_eq_replied (l : LineNo) (k t : Byte) (st : Status) (xs : List Byte) (s : State) :
    startReply l k t st xs s = Safety.replied s l (replyKind k) t (st.code :: xs) := rfl

@[simp] theorem startReply_service (l : LineNo) (k t : Byte) (st : Status) (xs : List Byte) (s : State) :
    ((startReply l k t st xs s).line l).service = .sending ⟨replyKind k, t, st.code :: xs, false⟩ := by
  simp [startReply]

@[simp] theorem startReply_line_ne (l : LineNo) (k t : Byte) (st : Status) (xs : List Byte) (s : State) {m : LineNo}
    (h : l ≠ m) : (startReply l k t st xs s).line m = s.line m := by
  simp [startReply, h]

/-! ## Reception (R156, R164) -/

@[simp] theorem noteOctet_line (l : LineNo) (e : Bool) (s : State) :
    (noteOctet l e s).line l = { s.line l with awaitIdle := e } := by
  simp [noteOctet]

@[simp] theorem noteOctet_line_ne (l : LineNo) (e : Bool) (s : State) {m : LineNo} (h : l ≠ m) :
    (noteOctet l e s).line m = s.line m := by
  simp [noteOctet, h]

/-! ## What an index names (R165) -/

/-- The translation of an index finds the target that the line names by it. -/
theorem translate_eq_branch (s : State) (l : LineNo) (i : Nat) (b : BranchNo) :
    translate s l i = .branch b ↔ Safety.Names s l i (.branch b) := by
  have hb : ∀ n : Nat, branchOf n = .branch b ↔ b.val = n := by
    intro n
    unfold branchOf
    split
    · simp [Fin.ext_iff, eq_comm]
    · simp only [reduceCtorEq, false_iff]
      have := b.isLt
      omega
  unfold translate Safety.Names
  by_cases h : l.val < 12
  · have hl : l ≠ supLine := fun e => by simp [e, supLine] at h
    have hn : ∀ n : BranchNo, l = sledLine n ↔ n = ⟨l.val, h⟩ := by
      intro n
      simp [sledLine, Fin.ext_iff, eq_comm]
    simp only [h, dite_true, hn, hl, false_and, or_false]
    constructor
    · intro e
      split at e
      · exact ⟨_, rfl, ‹_›, (hb _).1 e⟩
      · cases e
    · rintro ⟨n, rfl, h1, h2⟩
      simpa [h1] using (hb _).2 h2
  · have hn : ∀ n : BranchNo, l ≠ sledLine n := fun n e => h (by simp [e, sledLine])
    simp only [h, dite_false, hn, false_and, exists_false, false_or]
    by_cases hs : l.val = 12
    · have hl : l = supLine := Fin.ext hs
      simp only [hl, true_and]
      by_cases hi : i = 0xFF
      · subst hi
        have := b.isLt
        simp [supLine]
        omega
      · simpa [hi, supLine] using hb i
    · have hl : l ≠ supLine := fun e => hs (by simp [e, supLine])
      simp only [hs, if_false, hl, false_and, iff_false]
      split <;> simp

theorem translate_eq_rail (s : State) (l : LineNo) (i : Nat) :
    translate s l i = .rail ↔ Safety.Names s l i .rail := by
  have hb : ∀ n : Nat, branchOf n ≠ .rail := by
    intro n
    unfold branchOf
    split <;> simp
  unfold translate Safety.Names
  by_cases h : l.val < 12
  · have h1 : l ≠ supLine := fun e => by simp [e, supLine] at h
    have h2 : l ≠ plantLine := fun e => by simp [e, plantLine] at h
    simp only [h, dite_true, h1, h2, or_self, false_and, iff_false]
    split
    · exact hb _
    · simp
  · have hl : l = supLine ∨ l = plantLine := by
      have := l.isLt
      by_cases hs : l.val = 12
      · exact .inl (Fin.ext hs)
      · exact .inr (Fin.ext (by simp [plantLine]; omega))
    simp only [h, dite_false, hl, true_and]
    split <;> split <;> simp_all

/-! ## Meter conversion (R35) -/

/-- The counts of a window with the old carry are the volume and the new carry. -/
theorem windowVolume_carry (ch : MeterChannel) :
    ch.acc * 1000 + ch.carry = ch.k * windowVolume ch + windowCarry ch := by
  unfold windowCarry
  ring

/-- The new carry is the remainder of the division toward zero. -/
theorem windowCarry_eq_tmod (ch : MeterChannel) : windowCarry ch = (ch.acc * 1000 + ch.carry).tmod ch.k := by
  have := Int.tmod_add_mul_tdiv (ch.acc * 1000 + ch.carry) ch.k
  unfold windowCarry windowVolume
  linarith

/-- The new carry is below K in magnitude. -/
theorem windowCarry_natAbs_lt (ch : MeterChannel) (h : 0 < ch.k) : (windowCarry ch).natAbs < ch.k := by
  rw [windowCarry_eq_tmod, Int.natAbs_tmod]
  exact Nat.mod_lt _ (by simpa using h)

end Sys2Proof.Machine
end

