-- ==== Sys2Proof/Laws/Memory.lean ====
section
/-! SUPPORT. The settings memory: a write is read back, leaves every other octet alone, and keeps the canonical form. -/

namespace Sys2Proof.Machine

open Sys2Proof

/-- The canonical form, as a proposition. -/
theorem Memory.wf_iff (m : Memory) :
    Memory.wf m = true ↔ (m.map (·.1)).Pairwise (· < ·) ∧ ∀ c ∈ m, c.1 < 2048 ∧ c.2 ≠ Memory.blank := by
  simp [Memory.wf, List.all_eq_true]

theorem Memory.wf_nil : Memory.wf [] = true := by decide

/-- Every address of a memory in canonical form after the first is above it. -/
theorem Memory.wf_cons (a : Nat) (y : Byte) (m : Memory) :
    Memory.wf ((a, y) :: m) = true ↔
      (∀ c ∈ m, a < c.1) ∧ a < 2048 ∧ y ≠ Memory.blank ∧ Memory.wf m = true := by
  simp only [Memory.wf_iff, List.map_cons, List.pairwise_cons, List.mem_map, List.forall_mem_cons]
  constructor
  · rintro ⟨⟨h1, h2⟩, ⟨h3, h4⟩, h5⟩
    exact ⟨fun c hc => h1 _ ⟨c, hc, rfl⟩, h3, h4, h2, h5⟩
  · rintro ⟨h1, h3, h4, h2, h5⟩
    refine ⟨⟨?_, h2⟩, ⟨h3, h4⟩, h5⟩
    rintro _ ⟨c, hc, rfl⟩
    exact h1 c hc

/-- An address below every listed one reads as blank. -/
theorem Memory.read_of_lt (m : Memory) (i : Nat) (h : ∀ c ∈ m, i < c.1) : Memory.read m i = Memory.blank := by
  induction m with
  | nil => rfl
  | cons c m ih =>
    obtain ⟨a, y⟩ := c
    have ha : i < a := h (a, y) (by simp)
    simp only [Memory.read]
    rw [if_neg (by omega)]
    exact ih fun c hc => h c (by simp [hc])

/-- A write leaves every other octet as it reads. -/
theorem Memory.read_write_ne (m : Memory) {i j : Nat} (x : Byte) (h : i ≠ j) :
    Memory.read (Memory.write m i x) j = Memory.read m j := by
  induction m with
  | nil => simp only [Memory.write]; split <;> simp [Memory.read, h]
  | cons c m ih =>
    obtain ⟨a, y⟩ := c
    simp only [Memory.write]
    split
    · simp only [Memory.read, ih]
    · split
      · subst_vars; split <;> simp [Memory.read, h]
      · split <;> simp [Memory.read, h]

/-- A write is read back. -/
theorem Memory.read_write_same (m : Memory) (i : Nat) (x : Byte) (h : Memory.wf m = true) :
    Memory.read (Memory.write m i x) i = x := by
  induction m with
  | nil => simp only [Memory.write]; split <;> simp_all [Memory.read]
  | cons c m ih =>
    obtain ⟨a, y⟩ := c
    rw [Memory.wf_cons] at h
    simp only [Memory.write]
    split
    · rename_i ha
      simp only [Memory.read]
      rw [if_neg (by omega)]
      exact ih h.2.2.2
    · split
      · subst_vars
        split
        · rename_i hx
          rw [hx]
          exact Memory.read_of_lt m _ h.1
        · simp [Memory.read]
      · rename_i h1 h2
        split
        · rename_i hx
          rw [hx]
          refine Memory.read_of_lt _ _ ?_
          intro c hc
          rcases List.mem_cons.1 hc with rfl | hc
          · simp only; omega
          · have := h.1 c hc; omega
        · simp [Memory.read]

/-- The addresses of a memory after a write are the old ones and the one written. -/
theorem Memory.mem_write (m : Memory) (i : Nat) (x : Byte) (c : Host.Cell) (h : c ∈ Memory.write m i x) :
    c ∈ m ∨ (c = (i, x) ∧ x ≠ Memory.blank) := by
  induction m with
  | nil =>
    simp only [Memory.write] at h
    split at h
    · cases h
    · right; exact ⟨by simpa using h, by assumption⟩
  | cons d m ih =>
    obtain ⟨a, y⟩ := d
    simp only [Memory.write] at h
    split at h
    · rcases List.mem_cons.1 h with rfl | h
      · left; simp
      · rcases ih h with h | h
        · left; simp [h]
        · right; exact h
    · split at h
      · split at h
        · left; simp [h]
        · rcases List.mem_cons.1 h with rfl | h
          · right; exact ⟨rfl, by assumption⟩
          · left; simp [h]
      · split at h
        · left; exact h
        · rcases List.mem_cons.1 h with rfl | h
          · right; exact ⟨rfl, by assumption⟩
          · left; exact h

/-- A write inside the 2 KiB keeps the canonical form. -/
theorem Memory.write_wf (m : Memory) (i : Nat) (x : Byte) (hi : i < 2048) (h : Memory.wf m = true) :
    Memory.wf (Memory.write m i x) = true := by
  induction m with
  | nil =>
    simp only [Memory.write]
    split
    · exact Memory.wf_nil
    · rw [Memory.wf_cons]; exact ⟨by simp, hi, by assumption, Memory.wf_nil⟩
  | cons c m ih =>
    obtain ⟨a, y⟩ := c
    have h' := h
    rw [Memory.wf_cons] at h
    simp only [Memory.write]
    split
    · rename_i ha
      rw [Memory.wf_cons]
      refine ⟨?_, h.2.1, h.2.2.1, ih h.2.2.2⟩
      intro c hc
      rcases Memory.mem_write m i x c hc with hc | ⟨rfl, _⟩
      · exact h.1 c hc
      · exact ha
    · split
      · subst_vars
        split
        · exact h.2.2.2
        · rw [Memory.wf_cons]; exact ⟨h.1, hi, by assumption, h.2.2.2⟩
      · split
        · exact h'
        · rw [Memory.wf_cons]
          refine ⟨?_, hi, by assumption, h'⟩
          intro c hc
          rcases List.mem_cons.1 hc with rfl | hc
          · simp only; omega
          · have := h.1 c hc; omega

/-- A run of writes inside the 2 KiB keeps the canonical form. -/
theorem Memory.writeAll_wf (xs : List Byte) (m : Memory) (i : Nat) (hi : i + xs.length ≤ 2048)
    (h : Memory.wf m = true) : Memory.wf (Memory.writeAll m i xs) = true := by
  induction xs generalizing m i with
  | nil => exact h
  | cons x xs ih =>
    simp only [List.length_cons] at hi
    exact ih _ _ (by omega) (Memory.write_wf m i x (by omega) h)

/-- A run of writes leaves every octet outside it as it reads. -/
theorem Memory.read_writeAll_outside (xs : List Byte) (m : Memory) (i j : Nat) (h : j < i ∨ i + xs.length ≤ j) :
    Memory.read (Memory.writeAll m i xs) j = Memory.read m j := by
  induction xs generalizing m i with
  | nil => rfl
  | cons x xs ih =>
    simp only [List.length_cons] at h
    simp only [Memory.writeAll]
    rw [ih _ _ (by omega), Memory.read_write_ne _ _ (by omega)]

/-- A run of writes is read back. -/
theorem Memory.read_writeAll_inside (xs : List Byte) (m : Memory) (i j : Nat) (hj : j < xs.length)
    (hi : i + xs.length ≤ 2048) (h : Memory.wf m = true) :
    Memory.read (Memory.writeAll m i xs) (i + j) = xs.getD j 0 := by
  induction xs generalizing m i j with
  | nil => simp at hj
  | cons x xs ih =>
    simp only [List.length_cons] at hj hi
    simp only [Memory.writeAll]
    cases j with
    | zero =>
      rw [Memory.read_writeAll_outside _ _ _ _ (by omega)]
      simpa using Memory.read_write_same m i x h
    | succ j =>
      have := ih (Memory.write m i x) (i + 1) j (by omega) (by omega) (Memory.write_wf m i x (by omega) h)
      rw [show i + (j + 1) = i + 1 + j by omega, this]
      simp

@[simp] theorem Memory.readAll_length (m : Memory) (i n : Nat) : (Memory.readAll m i n).length = n := by
  induction n generalizing i with
  | zero => rfl
  | succ n ih => simp [Memory.readAll, ih]

/-- A half-block lies inside the memory. -/
theorem halfAddress_le (k : Fin 4) (h : Fin 2) : halfAddress k h + 32 ≤ 2048 := by
  unfold halfAddress; omega

/-- Storing a half-block keeps the canonical form. -/
theorem State.storeHalf_wf (s : State) (k : Fin 4) (h : Fin 2) (f : Nat → Byte) (hw : Memory.wf s.eeprom = true) :
    Memory.wf (s.storeHalf k h f).eeprom = true := by
  rw [State.storeHalf_eeprom]
  refine Memory.writeAll_wf _ _ _ ?_ hw
  have := halfAddress_le k h
  simpa using this

/-- Storing a half-block leaves every octet outside it as it reads. -/
theorem State.storeHalf_read_outside (s : State) (k : Fin 4) (h : Fin 2) (f : Nat → Byte) (j : Nat)
    (hj : j < halfAddress k h ∨ halfAddress k h + 32 ≤ j) :
    Memory.read (s.storeHalf k h f).eeprom j = Memory.read s.eeprom j := by
  rw [State.storeHalf_eeprom]
  refine Memory.read_writeAll_outside _ _ _ _ ?_
  simpa using hj

/-- Storing a half-block is read back. -/
theorem State.storeHalf_read_inside (s : State) (k : Fin 4) (h : Fin 2) (f : Nat → Byte) (j : Nat) (hj : j < 32)
    (hw : Memory.wf s.eeprom = true) :
    Memory.read (s.storeHalf k h f).eeprom (halfAddress k h + j) = f j := by
  have := Memory.read_writeAll_inside ((List.range 32).map f) s.eeprom (halfAddress k h) j (by simpa using hj)
    (by simpa using halfAddress_le k h) hw
  rw [State.storeHalf_eeprom, this]
  simp [List.getD, hj]

end Sys2Proof.Machine
end

