-- ==== Sys2Proof/Tests/Slice0.lean ====
section
/-! SUPPORT. Tests on fixed values: ill-formed commands, the worked examples of the spec, and for every statement with
hypotheses a state and operands that meet them. -/

namespace Sys2Proof.Tests

set_option Elab.async false

open Sys2Proof Sys2Proof.Machine Sys2Proof.Safety

/-! ## Well-formed commands -/

theorem test_wf_order_with_a_part_missing : (Instr.windowClose [.allocator, .valves]).wf = false := by decide
theorem test_wf_order_with_a_part_twice : (Instr.windowClose (.locate :: ClosePart.all)).wf = false := by decide
theorem test_wf_order_of_every_part : (Instr.windowClose ClosePart.all.reverse).wf = true := by decide
theorem test_wf_body_too_long : (Instr.frameReceived 12 0x05 0 (List.replicate 49 0) 0).wf = false := by decide
theorem test_wf_longest_body : (Instr.frameReceived 12 0x05 0 (List.replicate 48 0) 0).wf = true := by decide

/-- The opcode table gives no row bits, so no word spells a command. -/
theorem test_no_word_spells_a_command : decodeTableWord 8 0x05 = none := by decide

/-! ## Octets: R157 -/

/-- The check value of the CRC with this polynomial and initial value, over the digits 1 to 9. -/
theorem test_crc16 : crc16 [0x31, 0x32, 0x33, 0x34, 0x35, 0x36, 0x37, 0x38, 0x39] = 0x29B1 := by decide +kernel

/-! ## Meters: 2.4 and 2.5 -/

def meterWith (acc carry : Int) : MeterChannel := { MeterChannel.reset with acc := acc, carry := carry }

/-- 2.4, first paragraph: 1320 counts are 550 mL and 3300 fu with no carry. -/
theorem test_conversion : windowVolume (meterWith 1320 0) = 550 ∧ windowCarry (meterWith 1320 0) = 0 ∧
    rateOf 1000 550 = 3300 := by decide

/-- 2.4, first table. -/
theorem test_conversion_carries : windowVolume (meterWith 1000 0) = 416 ∧ windowCarry (meterWith 1000 0) = 1600 ∧
    windowVolume (meterWith 1000 1600) = 417 ∧ windowCarry (meterWith 1000 1600) = 800 ∧ rateOf 1000 417 = 2502 := by
  decide

/-- 2.4, second table, and the rates of its first window. -/
theorem test_conversion_reverse : windowVolume (meterWith (-7) 0) = -2 ∧ windowCarry (meterWith (-7) 0) = -2200 ∧
    windowVolume (meterWith 3 (-2200)) = 0 ∧ windowCarry (meterWith 3 (-2200)) = 800 ∧
    windowCarry (meterWith (-1) 800) = -200 ∧ rateOf 250 (-2) = -48 ∧ rateOf 2000 (-2) = -6 := by decide

/-- 2.5, the worked health sequence at closes 6 and 23. -/
theorem test_health : ({ MeterChannel.reset with qerrRun := 2 }.judge true false).health = .degraded ∧
    ({ MeterChannel.reset with qerrRun := 1 }.judge true false).qerrRun = 2 ∧
    ({ MeterChannel.reset with health := .degraded, cleanRun := 9 }.judge false false).health = .healthy := by decide

/-- R30: the four forward edges, and a change of both inputs. -/
theorem test_edges : classify (false, false) (true, false) = .forward ∧ classify (true, true) (true, false) = .reverse ∧
    classify (false, true) (true, false) = .invalid := by decide

/-! ## States to work on -/

/-- Loading has ended, the rail is OPEN, the enables are set. -/
def ready : State :=
  { State.reset with
    branches := Vec.map (fun br => { br with enable := true }) State.reset.branches
    loader := { State.reset.loader with loading := false }
    rail := ⟨.opened, [], none, Account.zero, none, false⟩
    valves := { State.reset.valves with railEnable := true, railCommanded := 1000, bypassEnable := true, driven := true }
    meter := { State.reset.meter with windowTimer := some 1000 } }

/-- Bay 3 in a dock state with causes. -/
def bay (d : DockState) (cs : List BranchCause) : State :=
  ready.updBranch 3 fun br => { br with dock := d, led := d.led, causes := cs, dockTimer := some 700 }

/-- Bay 3 in a dock state with causes, and its OPEN record in slot `k`. -/
def openBay (d : DockState) (cs : List BranchCause) (k : SlotNo) : State :=
  ((bay d cs).updBranch 3 fun br => { br with incident := some k }).updSlot k fun _ =>
    openedSlot ready (.branch 3) (.branch .balance) false

/-- The state with the two volumes of bay 3 in the snapshot. -/
def withVolumes (vs vr : Int) (s : State) : State :=
  s.updMeter fun m => { m with snap := { m.snap with
    channels := Vec.put (Vec.put m.snap.channels 6 { SnapChannel.zero with volume := vs }) 7
      { SnapChannel.zero with volume := vr } } }

/-- A request stands handed on a line. -/
def hand (l : LineNo) (r : Request) (s : State) : State := s.updLine l fun ln => { ln with service := .handed 9 r }

/-- A reply is being sent on a line. -/
def sending (l : LineNo) (r : Reply) (s : State) : State := s.updLine l fun ln => { ln with service := .sending r }

/-- The rail in a state, with causes and its timer running. -/
def railIn (r : RailState) (cs : List RailCause) : State :=
  ready.updRail fun x => { x with state := r, causes := cs, timer := some 400 }

/-- The state a command ends in. -/
def after (c : Instr) (s : State) : State :=
  match exec c s with
  | .next t => t
  | .fault _ => s
  | .refused _ => s

/-- A block of zeros with this marker and a CRC. -/
def blockOf (marker : Byte) (crc : BitVec 16) : List Byte := List.replicate 61 0 ++ [marker] ++ toOctets 2 crc.toNat

def docks : List DockState :=
  [.vacant, .seated, .held, .priming, .admitted, .adopting, .releasing, .draining, .pullReady, .isolating, .isolated]

/-! ## The worked sequences -/

/-- 3.4: the participants of the worked round. -/
def worked34 : State :=
  let s := { ready with params := { ready.params with quantum := 500 } }
  let s := s.updAlloc fun a => { a with pendingBudget := 6000 }
  let s := s.updBranch 0 fun br => { br with dock := .admitted, tier := 1, request := 2000 }
  let s := s.updBranch 1 fun br => { br with dock := .admitted, tier := 1, request := 1200 }
  let s := s.updBranch 2 fun br => { br with dock := .admitted, request := 1500 }
  let s := s.updBranch 3 fun br => { br with dock := .admitted, request := 800 }
  s.updBranch 4 fun br => { br with dock := .priming }

/-- 3.4: the grants and the pointers of the worked round. -/
theorem test_worked_round : (allBranches.map fun b => ((runRound worked34).br b).grant).take 5 = [2000, 1200, 1500, 800, 300] ∧
    (runRound worked34).alloc.bypassTarget = 200 ∧ (runRound worked34).alloc.p1 = 1 ∧
    (runRound worked34).alloc.p0 = 3 := by decide +kernel

/-- 5.8: the integrator and the state of the worked leak, close by close. -/
theorem test_worked_leak : (Account.zero.step 4 120 2 38).integrator = 38 ∧
    Account.step 4 120 2 38 ⟨38, .clear, 0⟩ = ⟨74, .watch, 0⟩ ∧ Account.step 4 120 2 38 ⟨74, .watch, 0⟩ = ⟨108, .watch, 0⟩ ∧
    Account.step 4 120 2 38 ⟨108, .watch, 0⟩ = ⟨140, .suspect, 1⟩ ∧
    Account.step 4 120 2 38 ⟨140, .suspect, 1⟩ = ⟨170, .confirmed, 2⟩ ∧ tolerance 4 15 550 = 12 := by decide

/-- 6.3: the worked debounce at samples 1, 3 and 7. -/
theorem test_worked_debounce : Strip.sample 5 .wet Strip.reset = ⟨.dry, some .wet, 1, false⟩ ∧
    Strip.sample 5 .dry ⟨.dry, some .wet, 2, false⟩ = ⟨.dry, none, 0, false⟩ ∧
    Strip.sample 5 .wet ⟨.dry, some .wet, 3, false⟩ = ⟨.dry, some .wet, 4, false⟩ := by decide

/-- 1.8: a sled arrives, is latched and settles into PRIMING. -/
theorem test_worked_arrival :
    let s := after (.seatSettleExpires 5) (after (.latchCloses 5) (after (.presentCloses 5) ready))
    (s.br 5).dock = .priming ∧ (s.br 5).dockTimer = some 60000 := by decide +kernel

/-- 1.9: a latch opens 2.5 s into the close of a RELEASE; the remaining 1500 ms are carried over. -/
theorem test_worked_pull :
    let s := after (.latchOpens 8) (elapse 2500 (after (.release 8) (hand 8 (.release 8)
      (ready.updBranch 8 fun br => { br with dock := .admitted, present := true, latched := true }))))
    (s.br 8).dock = .isolating ∧ (s.br 8).dockTimer = some 1500 ∧ (s.br 8).causes = [.hotPull] ∧
      (s.br 8).incident = some 0 := by decide +kernel

/-- 7.10, first line: a plant stop closes the rail and isolates an admitted bay. -/
theorem test_worked_plant_stop :
    let s := after .plantStop (hand plantLine .plantStop (bay .admitted []))
    s.rail.causes = [.plantStop] ∧ s.rail.state = .closing ∧ s.rail.timer = some 8000 ∧ (s.br 3).causes = [.rail] ∧
      (s.br 3).dock = .isolating ∧ (s.br 3).incident = none := by decide +kernel

/-- 9.5: the first SET_WINDOW of the worked sequence overlaps, the second is taken. -/
theorem test_worked_windows :
    (ready.updLine supLine fun ln => { ln with service := .empty }).line supLine = Line.reset ∧
      (setWindowResult ready 0 ⟨0, 4⟩).2 = .overlap ∧ (setWindowResult ready 1 ⟨1, 0⟩).2 = .ok := by decide +kernel

/-- 11.1: from reset an empty memory ends the loading with a bad check and the defaults in force. -/
theorem test_loading_from_reset :
    let s := after (.settingsBlockRead true false) State.reset
    s.loader.loading = false ∧ s.loader.defaulted = true ∧ s.rail.state = .opening ∧ s.valves.bypassEnable = true := by
  decide +kernel

/-- R31: at a limit an edge over it is not counted, and an edge in the other direction is. -/
theorem test_edges_at_the_limits : ((meterWith 32767 0).count .forward).acc = 32767 ∧
    ((meterWith 32767 0).count .forward).overrange = true ∧ ((meterWith 32767 0).count .reverse).acc = 32766 ∧
    ((meterWith (-32767) 0).count .reverse).overrange = true ∧ ((meterWith (-32767) 0).count .forward).acc = -32766 := by
  decide

/-- R76: an applied duty of 410 is 8.2 ms active. R81: a bypass target of 200 gives a duty of 66, and the output of channel
13 is active for 934 per-mille. R88: an active-low channel shows the other level. -/
theorem test_valve_pins :
    let s := ready.updBranch 3 fun br => { br with applied := 410 }
    let v := ready.updValves fun x => { x with bypassApplied := 66, polarity := 1 }
    valvePin s 3 8199 = .level true ∧ valvePin s 3 8200 = .level false ∧ bypassDuty 200 3000 = 66 ∧
      valvePin v 13 18679 = .level true ∧ valvePin v 13 18680 = .level false ∧ valvePin v 0 0 = .level true ∧
      valvePin State.reset 0 0 = .highImpedance := by decide +kernel

/-- R101: GROSS and BALANCE of one close open one record, with GROSS as its opening cause. -/
theorem test_causes_of_one_close_share_a_record :
    let s := addBranchCauses 3 [.gross, .balance] (bay .admitted [])
    (s.br 3).incident = some 0 ∧ (s.slot 0).opening = some (.branch .gross) ∧
      (s.slot 0).causes = [.branch .gross, .branch .balance] ∧ (s.slot 1).state = .free := by decide +kernel

/-- R122: a Debounce brought down to a count already reached brings no strip change before the next sample. -/
theorem test_change_falls_due_at_a_sample :
    let s := ready.updStrip 3 fun x => { x with candidate := some .wet, count := 5 }
    dueEvents false s = [] ∧ dueEvents true s = [.stripStateChange 3 .wet] := by decide +kernel

/-- R112, R123: a strip change and WARM_RST shown in one millisecond: the strip changes at its sample, and the restart that
follows sets it back to DRY with an empty delta set. -/
theorem test_sample_comes_before_a_restart :
    let s := (ready.updStrip 3 fun x => { x with candidate := some .wet, count := 5 }).updLoader fun d =>
      { d with warmCandidate := 3 }
    dueEvents true s = [.stripStateChange 3 .wet, .warmRstAsserted] ∧
      (after .warmRstAsserted (after (.stripStateChange 3 .wet) s)).strip 3 = Strip.reset := by decide +kernel

/-- R156, R164: after a break the octets of a frame end the wait for the idle level, given one by one or as a frame. -/
theorem test_frame_ends_the_wait :
    let s := after (.lineBreak 3) ready
    (s.line 3).awaitIdle = true ∧ ((after (.octetReceived 3 0xC3 false) s).line 3).awaitIdle = false ∧
      ((after (.frameReceived 3 0x05 1 [] (frameCheck 0x05 1 [])) s).line 3).awaitIdle = false := by decide +kernel

/-- 11.1, the worked loading: the report counts a block as it is taken. -/
theorem test_worked_loading_counts_blocks :
    ((takeBlock (blockOf 0x5A 0x3264) false State.reset).loader.blocksTaken,
      (takeBlock (blockOf 0x5A 0x3264) false (takeBlock (blockOf 0x5A 0x3264) false State.reset)).loader.blocksTaken) =
      (1, 2) := by decide +kernel

/-! ## Witnesses of the hypotheses: the machine and the laws -/

/-- Bay 3 ADMITTED with a grant, bay 5 ISOLATING with an OPEN record, a command in the queue. -/
def busy : State :=
  let s := ready.updBranch 3 fun br =>
    { br with dock := .admitted, led := .off, request := 600, grant := 500, commanded := 166 }
  let s := s.updBranch 5 fun br =>
    { br with dock := .isolating, led := .fast, causes := [.balance], incident := some 0, dockTimer := some 900 }
  let s := s.updSlot 0 fun _ => openedSlot ready (.branch 5) (.branch .balance) false
  let s := s.updAlloc fun a => { a with pendingBudget := 600, effectiveBudget := 600, bypassTarget := 100 }
  let s := s.updValves fun v => { v with bypassCommanded := 33 }
  { s with pending := [.periodStart] }

/-- The state in which the step of `busy` ends. -/
def busyNext : State := startPeriod (elapse 20 { busy with pending := [] })

theorem busy_step : step busy = .next busyNext := rfl

theorem witness_StepRunsTheFrontCommand : (ready.withCommand .restore).pending = .restore :: [] := rfl

/-- A millisecond with a 10 ms sample and one without; each line of R112's table. -/
theorem witness_IdleStepPassesOneMillisecond :
    (ready.pending = [] ∧ ¬ready.sampleTimer ≤ 1) ∧
    (let s := { ready with sampleTimer := 1 }
     s.pending = [] ∧ s.sampleTimer ≤ 1 ∧ (s.strip 3).state = .dry ∧ (s.strip 3).candidate ≠ some .wet ∧
       (s.updStrip 3 fun x => { x with candidate := some .wet }).pending = []) ∧
    (let s := (ready.updPins fun p => { p with warm := true, strips := Vec.put p.strips 3 ⟨true, true⟩ }).updStrip 3
       fun x => { x with candidate := some .wet, count := 9 }
     let s := ({ s with sampleTimer := 1 } : State).updLoader fun d => { d with warmCandidate := 2 }
     s.pending = [] ∧ .stripStateChange 3 .wet ∈ (tick s).pending ∧ .warmRstAsserted ∈ (tick s).pending) := by
  decide +kernel

/-- No write in progress, and one in progress over a memory in canonical form. -/
theorem witness_PowerOnResetSetsThePowerOnValues : busy.loader.store = none ∧
    (let s := busy.updLoader fun d => { d with store := some ⟨3, 1, List.replicate 32 0x5A⟩ }
     s.loader.store = some ⟨3, 1, List.replicate 32 0x5A⟩ ∧ StoreLaw s) := by decide +kernel

theorem witness_StepKeepsGrantZeroOutsideParticipation : GrantLaw busy ∧ step busy = .next busyNext :=
  ⟨by decide +kernel, busy_step⟩

theorem witness_StepKeepsLimitsAndTheBudget :
    GrantLaw busy ∧ LimitLaw busy ∧ BudgetLaw busy ∧ step busy = .next busyNext :=
  ⟨by decide +kernel, by decide +kernel, by decide +kernel, busy_step⟩

theorem witness_StepKeepsCommandedDuty :
    IsolationLaw busy ∧ DutyLaw busy ∧ BypassDutyLaw busy ∧ RangeLaw busy ∧ step busy = .next busyNext :=
  ⟨by decide +kernel, by decide +kernel, by decide +kernel, by decide +kernel, busy_step⟩

theorem witness_StepKeepsIsolationStates : IsolationLaw busy ∧ step busy = .next busyNext :=
  ⟨by decide +kernel, busy_step⟩

theorem witness_StepKeepsTheRailAndItsBays : RailHeldLaw busy ∧ RailSetLaw busy ∧ step busy = .next busyNext :=
  ⟨by decide +kernel, by decide +kernel, busy_step⟩

theorem witness_TripOutFollowsTheRailSet : TripOutLaw busy ∧ step busy = .next busyNext :=
  ⟨by decide +kernel, busy_step⟩

/-- The first premise, and the two about the output: full duty at the last microsecond, no duty at the first. -/
theorem witness_RailValveFollowsTheRailState : (RailDutyLaw busy ∧ step busy = .next busyNext) ∧
    (busyNext.valves.railEnable = true ∧ busyNext.valves.railApplied = 1000 ∧ 19999 < 20000) ∧
    State.reset.valves.railApplied = 0 :=
  ⟨⟨by decide +kernel, busy_step⟩, by decide +kernel, rfl⟩

theorem witness_StepKeepsDriveEnables : EnableLaw busy ∧ InactiveLaw busy ∧ step busy = .next busyNext :=
  ⟨by decide +kernel, by decide +kernel, busy_step⟩

theorem witness_StepKeepsBranchWindows : WindowLaw busy ∧ step busy = .next busyNext :=
  ⟨by decide +kernel, busy_step⟩

theorem witness_StepKeepsDerivedCauses : StripChangeLaw busy ∧ TripPendingLaw busy ∧ step busy = .next busyNext :=
  ⟨by decide +kernel, by decide +kernel, busy_step⟩

theorem busy_slots : ∀ k, (busy.slot k).state ≠ .free →
    k = 0 ∧ (busy.slot k).target = some (.branch 5) ∧ incidentOf busy (.branch 5) = some k := by decide +kernel

theorem busy_refs : ∀ b k, (busy.br b).incident = some k →
    (busy.slot k).state ≠ .free ∧ (busy.slot k).target = some (.branch b) := by decide +kernel

theorem witness_StepKeepsIncidentRing : RingLaw busy ∧ step busy = .next busyNext := by
  refine ⟨⟨fun k h => ⟨.branch 5, (busy_slots k h).2⟩, fun t k h => ?_, fun k t h ht => ?_⟩, busy_step⟩
  · cases t with
    | branch b => exact busy_refs b k h
    | rail => exact absurd h (by decide +revert +kernel)
  · have hk := busy_slots k (by rw [h]; decide)
    rw [hk.2.1] at ht
    cases ht
    exact (by decide +kernel : (busy.br 5).dock = .isolating)

theorem witness_StepKeepsTheFormOfListsAndPlaces :
    LineLaw busy ∧ AttnLaw busy ∧ ClassLaw busy ∧ SetLaw busy ∧ StoreLaw busy ∧ step busy = .next busyNext :=
  ⟨by decide +kernel, by decide +kernel, by decide +kernel, by decide +kernel, by decide +kernel, busy_step⟩

theorem witness_LedFollowsTheDockState : LedLaw busy ∧ step busy = .next busyNext := ⟨by decide +kernel, busy_step⟩

/-! ## Witnesses: the round and the Allocator's requests -/

/-- The budget clause; a short round with the flag clear before, under each Park Mode; ADOPTING grants that fit and that do
not; each Park Mode with somebody to park on; and grants and a request sum that move by q and by less. -/
theorem witness_RoundSpendsTheBudgetAndScalesFloors : GrantLaw busy ∧
    (∀ m ∈ [ParkMode.bypass, .last, .fixed],
      let s := busy.updAlloc fun a => { a with pendingBudget := 200 }
      let s := { s with params := { s.params with parkMode := m, parkBranch := 3 } }
      s.params.parkMode = m ∧ s.alloc.pendingBudget - s.params.bypassMinimum - adoptingSum s < floorSum s ∧
        (s.br 3).dock = .admitted ∧ s.alloc.shortfall = false) ∧
    (∀ g ∈ [(450, true), (451, false)],
      let s := (busy.updAlloc fun a => { a with pendingBudget := 600, reportedDemand := 1050 - g.1 }).updBranch 3 fun br =>
        { br with grant := g.1 }
      (s.br 3).dock.participating = true ∧ ((runRound s).br 3).grant = 500 ∧ s.params.quantum = 50 ∧
        (s.br 3).owner = some 3 ∧ decide (s.params.quantum ≤ (500 - (s.br 3).grant : Int).natAbs) = g.2 ∧ requestSum s = 600) ∧
    (let s := busy.updBranch 3 fun br => { br with dock := .adopting }
     (s.br 3).dock = .adopting ∧ adoptingSum s = s.alloc.pendingBudget - s.params.bypassMinimum) ∧
    (let s := (busy.updBranch 3 fun br => { br with dock := .adopting }).updAlloc fun a => { a with pendingBudget := 599 }
     ¬adoptingSum s ≤ s.alloc.pendingBudget - s.params.bypassMinimum) ∧
    (let s := { worked34 with params := { worked34.params with parkMode := .fixed, parkBranch := 3 } }
     s.params.parkMode = .fixed ∧ (s.br s.params.parkBranch).dock = .admitted) ∧
    (let s := { worked34 with params := { worked34.params with parkMode := .last } }
     let p0 := s.alloc.pendingBudget - s.params.bypassMinimum
     let start := shareStart s p0 (p0 - adoptingSum s)
     s.params.parkMode = .last ∧ (shareLoop s start.rm start).last ≠ none) := by decide +kernel

/-- Floors that just fit, with PRIMING and ADMITTED participants; no such participant; and a sharing with flow left, in
which both tiers want a step, and one that stops. -/
theorem witness_RoundGivesEveryFloorWhenTheyFit :
    (let s := worked34.updAlloc fun a => { a with pendingBudget := 1000 }
     floorSum s = s.alloc.pendingBudget - s.params.bypassMinimum - adoptingSum s ∧ (s.br 4).dock = .priming ∧
       (s.br 3).dock = .admitted) ∧
    (floorSum ready ≤ ready.alloc.pendingBudget - ready.params.bypassMinimum - adoptingSum ready ∧
      ∀ b, (ready.br b).dock ≠ .priming ∧ (ready.br b).dock ≠ .admitted) ∧
    (let sh := shareStart worked34 5900 5900
     0 < worked34.params.quantum ∧ sh.rm ≠ 0 ∧ ¬SharingStops worked34 sh ∧ stepWanted worked34 true sh 0 ≠ 0 ∧
       wantedBefore worked34 sh 0 < sh.rm ∧ stepWanted worked34 false sh 2 ≠ 0 ∧ SharingStops ready sh) := by
  decide +kernel

theorem witness_FlowRequestStoresTheClampedValue : ∀ d ∈ docks,
    let s := hand 3 (.flowRequest 3 65535) (bay d [])
    Handed s 3 9 (.flowRequest 3 65535) ∧ (s.br 3).dock = d := by decide +kernel

/-- Bays 3 and 4 ADMITTED with grants of 500 and 600. -/
def twoBays : State :=
  ((bay .admitted []).updBranch 3 fun br => { br with grant := 500 }).updBranch 4 fun br =>
    { br with dock := .admitted, grant := 600 }

/-- A branch not ADMITTED, one branch twice, and amounts of 0, q - 1 and q. -/
theorem witness_TransferMovesGrantAndRequest :
    (∀ x ∈ [0, 49, 50], Handed (hand 12 (.transfer 3 4 x) twoBays) 12 9 (.transfer 3 4 x) ∧ (twoBays.br 3).dock = .admitted ∧
      (twoBays.br 4).dock = .admitted ∧
      min x (min ((twoBays.br 3).grant - (twoBays.br 3).floor) ((twoBays.br 4).cap - (twoBays.br 4).grant)) = x) ∧
    Handed (hand 12 (.transfer 3 3 9) twoBays) 12 9 (.transfer 3 3 9) ∧
    Handed (hand 12 (.transfer 3 5 9) twoBays) 12 9 (.transfer 3 5 9) ∧ (twoBays.br 5).dock ≠ .admitted ∧
    twoBays.params.quantum = 50 := by decide +kernel

/-- Every dock state; a hold turned off in HELD; a grant lowered by q - 1 and by q. -/
theorem witness_SetBranchSetsTheLiveLimits :
    (∀ d ∈ docks, let s := hand 12 (.setBranch 3 1 0 4001 99 false) (bay d [])
      Handed s supLine 9 (.setBranch 3 1 0 4001 99 false) ∧ (s.br 3).dock = d) ∧
    (let s := hand 12 (.setBranch 3 0 150 2500 3000 false)
      ((bay .held []).updBranch 3 fun br => { br with hold := true, dockTimer := none })
     Handed s supLine 9 (.setBranch 3 0 150 2500 3000 false) ∧ (s.br 3).dock = .held ∧ (s.br 3).hold = true ∧
       (s.br 3).clearance = false ∧ (s.br 3).dockTimer = none ∧ s.params.seatSettle ≠ 0) ∧
    (∀ cap ∈ [451, 450], let s := hand 12 (.setBranch 3 0 150 cap 3000 false) twoBays
      Handed s supLine 9 (.setBranch 3 0 150 cap 3000 false) ∧ (s.br 3).grant - cap = 500 - cap ∧ s.params.quantum = 50) := by
  decide +kernel

theorem witness_BudgetDeclaresThePendingBudget : ∀ urgent,
    let s := hand 13 (.budget 40001 urgent) busy
    Handed s plantLine 9 (.budget 40001 urgent) ∧ GrantLaw s := by decide +kernel

theorem witness_RoundAndDemandReadsReportTheAllocator :
    (∀ l ∈ [supLine, plantLine], Handed (hand l .readRound ready) l 9 .readRound) ∧
      ∀ l ∈ [supLine, plantLine], Handed (hand l .readDemand ready) l 9 .readDemand := by decide +kernel

/-! ## Witnesses: the docks' requests -/

theorem witness_ReleaseFollowsTheDockStateTable : ∀ d ∈ docks,
    let s := hand 3 (.release 3) (bay d [])
    Handed s 3 9 (.release 3) ∧ (s.br 3).dock = d := by decide +kernel

/-- Every dock state; HELD with a hold and no clearance, with the gate open and, frozen, with the gate shut. -/
theorem witness_AdmitClearsAHeldBay :
    (∀ d ∈ docks, let s := hand 12 (.admitBay 3) (bay d [])
      Handed s supLine 9 (.admitBay 3) ∧ (s.br 3).dock = d) ∧
    (let s := hand 12 (.admitBay 3) ((bay .held []).updBranch 3 fun br => { br with hold := true })
     Handed s supLine 9 (.admitBay 3) ∧ (s.br 3).hold = true ∧ (s.br 3).clearance = false ∧ MayPrime s 3) ∧
    (let s := hand 12 (.admitBay 3) ((bay .pullReady []).updStrip 12 fun x => { x with state := .wet })
     Handed s supLine 9 (.admitBay 3) ∧ ¬MayPrime s 3) := by decide +kernel

/-! ## Witnesses: attention -/

/-- Nothing pending; a cause that stays and a cause that leaves at the read, each with a lower one masked out. -/
theorem witness_ReadAttnReportsTheHighestCause :
    (let s := hand 3 .readAttn ready
     Handed s 3 9 .readAttn ∧ (s.attnOf 3).entries = []) ∧
    (∀ c ∈ [AttnCause.sled .admitted, .sled .grantChanged],
      let s := hand 3 .readAttn ((raise 3 (.of c 0) (raise 3 (.of (.sled .isolated) 0) ready)).updAttn 3 fun a =>
        { a with mask := 0x1E })
      Handed s 3 9 .readAttn ∧ (∀ e ∈ (s.attnOf 3).entries, e.cause ∈ (lineClass 3).causes) ∧
        isPending (s.attnOf 3) c = true ∧ (s.attnOf 3).mask.getLsbD c.number = true) := by decide +kernel

theorem witness_ClearAttnRemovesTheNamedCauses :
    Handed (hand 12 (.clearAttn 0xFFFF) ready) 12 9 (.clearAttn 0xFFFF) := by decide +kernel

/-- The request; and a frame with the longest BODY while loading. -/
theorem witness_SetAttnMaskReplacesTheMask :
    (let s := hand 12 (.setAttnMask 0xFFFF) (raiseSup .stripChange 0 ready)
     Handed s 12 9 (.setAttnMask 0xFFFF) ∧ ∀ e ∈ (s.attnOf 12).entries, e.cause ∈ (lineClass 12).causes) ∧
    (State.reset.line 12).service = .empty ∧ State.reset.loader.loading = true ∧
      (List.replicate 48 (0 : Byte)).length ≤ 48 := by decide +kernel

/-! ## Witnesses: isolation -/

/-- Every dock state without the cause, and one with it; every rail state without, and one with. -/
theorem witness_IsolateAddsCommanded :
    (∀ d ∈ docks, let s := hand 12 (.isolate (.branch 3)) (bay d [])
      Handed s supLine 9 (.isolate (.branch 3)) ∧ (s.br 3).dock = d ∧ BranchCause.commanded ∉ (s.br 3).causes) ∧
    (let s := hand 12 (.isolate (.branch 3)) (bay .isolated [.commanded])
     Handed s supLine 9 (.isolate (.branch 3)) ∧ BranchCause.commanded ∈ (s.br 3).causes) ∧
    (∀ r ∈ [RailState.opened, .closing, .closed, .opening], let s := hand 12 (.isolate .rail) (railIn r [])
      Handed s supLine 9 (.isolate .rail) ∧ s.rail.state = r ∧ RailCause.commanded ∉ s.rail.causes) ∧
    (let s := hand 12 (.isolate .rail) (railIn .closed [.commanded])
     Handed s supLine 9 (.isolate .rail) ∧ RailCause.commanded ∈ s.rail.causes) := by decide +kernel

/-- A code of 11; each refusal; a removal that leaves a cause, and one that empties the set of an ISOLATED bay. -/
theorem witness_ClearCauseOfABranchMakesItsTests :
    Handed (hand 12 (.clearCause (.branch 3) 11) ready) supLine 9 (.clearCause (.branch 3) 11) ∧
    (let s := hand 12 (.clearCause (.branch 3) 0) ready
     Handed s supLine 9 (.clearCause (.branch 3) 0) ∧ BranchCause.trayWet ∉ (s.br 3).causes) ∧
    (let s := hand 12 (.clearCause (.branch 3) 10) (bay .isolated [.rail])
     Handed s supLine 9 (.clearCause (.branch 3) 10) ∧ BranchCause.rail ∈ (s.br 3).causes) ∧
    (let s := hand 12 (.clearCause (.branch 3) 0) ((bay .isolated [.trayWet]).updStrip 3 fun x => { x with state := .wet })
     Handed s supLine 9 (.clearCause (.branch 3) 0) ∧ BranchCause.trayWet ∈ (s.br 3).causes ∧
       (s.strip (trayStrip 3)).state = .wet) ∧
    (let s := hand 12 (.clearCause (.branch 3) 1)
       ((bay .isolated [.balance]).updBranch 3 fun br => { br with incident := some 15 })
     Handed s supLine 9 (.clearCause (.branch 3) 1) ∧ BranchCause.balance ∈ (s.br 3).causes ∧ (s.br 3).incident ≠ none) ∧
    (let s := hand 12 (.clearCause (.branch 3) 9) (bay .isolated [.commanded, .rail])
     Handed s supLine 9 (.clearCause (.branch 3) 9) ∧ ∃ d ∈ (s.br 3).causes, d ≠ .commanded) ∧
    (let s := hand 12 (.clearCause (.branch 3) 9) (bay .isolated [.commanded])
     Handed s supLine 9 (.clearCause (.branch 3) 9) ∧ (∀ d ∈ (s.br 3).causes, d = .commanded) ∧
       (s.br 3).dock = .isolated ∧ s.params.seatSettle ≠ 0) := by decide +kernel

/-- A code of 5; each refusal; a removal from a CLOSED rail that empties the set, and one that does not. -/
theorem witness_ClearCauseOfTheRailMakesItsTests :
    Handed (hand 12 (.clearCause .rail 5) ready) supLine 9 (.clearCause .rail 5) ∧
    (let s := hand 12 (.clearCause .rail 4) ready
     Handed s supLine 9 (.clearCause .rail 4) ∧ RailCause.commanded ∉ s.rail.causes) ∧
    (let s := hand 12 (.clearCause .rail 2) (railIn .closed [.tripLine])
     Handed s supLine 9 (.clearCause .rail 2) ∧ RailCause.tripLine ∈ s.rail.causes) ∧
    (let s := hand 12 (.clearCause .rail 1) ((railIn .closed [.commonRail]).updStrip 12 fun x => { x with state := .wet })
     Handed s supLine 9 (.clearCause .rail 1) ∧ RailCause.commonRail ∈ s.rail.causes ∧
       CommonRole s 12 ∧ (s.strip 12).state = .wet) ∧
    (let s := hand 12 (.clearCause .rail 0) ((railIn .closed [.railBalance]).updRail fun r => { r with incident := some 0 })
     Handed s supLine 9 (.clearCause .rail 0) ∧ RailCause.railBalance ∈ s.rail.causes ∧ s.rail.incident ≠ none) ∧
    (let s := hand 12 (.clearCause .rail 4) (railIn .closed [.commanded])
     Handed s supLine 9 (.clearCause .rail 4) ∧ s.rail.state = .closed ∧ ∀ d ∈ s.rail.causes, d = .commanded) ∧
    (let s := hand 12 (.clearCause .rail 4) (railIn .closing [.plantStop, .commanded])
     Handed s supLine 9 (.clearCause .rail 4) ∧ RailCause.commanded ∈ s.rail.causes ∧ s.rail.state ≠ .closed) := by
  decide +kernel

/-- Under a trip; a CLOSED rail that holds TRIP_LINE alone; a rail that holds more. -/
theorem witness_RestoreSetsTheDrives :
    (let s := hand 12 .restore ((railIn .closed [.tripLine]).updIso fun i => { i with tripAsserted := true })
     Handed s supLine 9 .restore ∧ s.iso.tripAsserted = true) ∧
    (let s := hand 12 .restore (railIn .closed [.tripLine])
     Handed s supLine 9 .restore ∧ s.iso.tripAsserted = false ∧ s.rail.state = .closed ∧
       RailCause.tripLine ∈ s.rail.causes ∧ ∀ c ∈ s.rail.causes, c = .tripLine) ∧
    (let s := hand 12 .restore (railIn .closed [.tripLine, .plantStop])
     Handed s supLine 9 .restore ∧ ∃ c ∈ s.rail.causes, c ≠ .tripLine) := by decide +kernel

/-- PLANT_STOP with the cause held and not held, from every rail state; PLANT_RESUME with it last, and with another. -/
theorem witness_PlantStopAndResumeMoveTheRail :
    (∀ r ∈ [RailState.opened, .closing, .closed, .opening], let s := hand 13 .plantStop (railIn r [])
      Handed s plantLine 9 .plantStop ∧ s.rail.state = r ∧ RailCause.plantStop ∉ s.rail.causes) ∧
    (let s := hand 13 .plantStop (railIn .closed [.plantStop])
     Handed s plantLine 9 .plantStop ∧ RailCause.plantStop ∈ s.rail.causes) ∧
    (let s := hand 13 .plantResume (railIn .closed [.plantStop])
     Handed s plantLine 9 .plantResume ∧ s.rail.state = .closed ∧ RailCause.plantStop ∈ s.rail.causes ∧
       ∀ c ∈ s.rail.causes, c = .plantStop) ∧
    (let s := hand 13 .plantResume (railIn .closed [.plantStop, .commanded])
     Handed s plantLine 9 .plantResume ∧ ∃ c ∈ s.rail.causes, c ≠ .plantStop) := by decide +kernel

/-! ## Witnesses: reports and the settings memory -/

/-- With bay 3 occupied: its tray strip is not common, that of a VACANT bay and strip 12 are; frozen and not. -/
theorem witness_ReadStripsReportsAndEmptiesTheDelta :
    Handed (hand 12 .readStrips ready) supLine 9 .readStrips ∧
    (let s := bay .admitted []
     ¬CommonRole s 3 ∧ CommonRole s 4 ∧ CommonRole s 12 ∧ ¬AdmissionsFrozen s ∧
       AdmissionsFrozen (s.updStrip 4 fun x => { x with state := .wet }) ∧
       ¬AdmissionsFrozen (s.updStrip 3 fun x => { x with state := .wet })) := by
  decide +kernel

/-- The first channel past the last, the last one, and runs at their limits. -/
theorem witness_ReadMetersReportsTheSnapshot :
    Handed (hand 12 (.readMeters 26 1) ready) supLine 9 (.readMeters 26 1) ∧
    (let s := hand 12 (.readMeters 25 4) (ready.updChannel 25 fun c => { c with qerrRun := 3, cleanRun := 15 })
     Handed s supLine 9 (.readMeters 25 4) ∧ (s.channel 25).qerrRun ≤ 3 ∧ (s.channel 25).cleanRun ≤ 15) := by decide +kernel

theorem witness_TakeIncidentReportsTheSlot :
    Handed (hand 12 (.takeIncident 16) ready) supLine 9 (.takeIncident 16) ∧
      Handed (hand 12 (.takeIncident 15) ready) supLine 9 (.takeIncident 15) ∧ (15 : SlotNo).val = 15 := by decide +kernel

/-- A slot past the last; each slot state; the log ACTIVE, SUSPENDED with room, and SUSPENDED without. -/
theorem witness_ReturnAndLogResumeKeepTheRing :
    Handed (hand 12 (.returnIncident 16) ready) supLine 9 (.returnIncident 16) ∧
    (∀ x ∈ [SlotState.free, .opened, .closed],
      let s := hand 12 (.returnIncident 0) (busy.updSlot 0 fun r => { r with state := x })
      Handed s supLine 9 (.returnIncident 0) ∧ (s.slot 0).state = x) ∧
    (∀ x ∈ [false, true], let s := hand 12 .logResume (ready.updRing fun g => { g with suspended := x })
      Handed s supLine 9 .logResume ∧ s.ring.suspended = x ∧ (s.slot s.ring.fill).state = .free) ∧
    (let s := hand 12 .logResume (busy.updRing fun g => { g with suspended := true })
     Handed s supLine 9 .logResume ∧ s.ring.suspended = true ∧ (s.slot s.ring.fill).state ≠ .free) := by decide +kernel

/-- Each test of STORE_READ and STORE_WRITE; a write in progress over a memory in canonical form. -/
theorem witness_StoreReadsAndWrites :
    (∀ p ∈ [(4, 0), (3, 1), (0, 2)], Handed (hand 12 (.storeRead p.1 p.2) ready) supLine 9 (.storeRead p.1 p.2) ∧
      Handed (hand 12 (.storeWrite p.1 p.2 []) ready) supLine 9 (.storeWrite p.1 p.2 []) ∧ ready.loader.store = none) ∧
    (let s := ready.updLoader fun d => { d with store := some ⟨3, 1, List.replicate 32 0x5A⟩ }
     s.loader.store ≠ none ∧ StoreLaw s ∧ Handed (hand 12 (.storeRead 0 0) s) supLine 9 (.storeRead 0 0) ∧
       Handed (hand 12 (.storeWrite 0 0 []) s) supLine 9 (.storeWrite 0 0 [])) := by decide +kernel

/-- The RESTART; its reply being sent; both levels of WARM_RST. -/
theorem witness_WarmRestartBeginsAtItsThreeEvents :
    Handed (hand 12 .restart ready) supLine 9 .restart ∧
    ((sending 12 (restartReply 9) ready).line 12).service = .sending (restartReply 9) ∧
    (restartReply 9).beginsRestart = true ∧ ready.loader.warmAsserted = false ∧
    (ready.updLoader fun d => { d with warmAsserted := true }).loader.warmAsserted = true := by decide +kernel

/-- That block, stored as block `k`, which is the next to be read. -/
def stored (k : Fin 4) (x : List Byte) : State :=
  { State.reset with
    eeprom := Memory.writeAll [] (64 * k.val) x
    loader := { State.reset.loader with next := k } }

/-- The stored block reads back, at each place in the image. -/
theorem stored_reads : ∀ p ∈ [((0 : Fin 4), blockOf 0x5A 0x3264), (3, blockOf 0x5A 0x3264), (0, blockOf 0x00 0xC9DB)],
    Memory.readAll (stored p.1 p.2).eeprom (64 * (stored p.1 p.2).loader.next.val) 64 = p.2 ∧
      (stored p.1 p.2).loader.loading = true ∧ (stored p.1 p.2).loader.store = none := by decide +kernel

/-- The blocks are sound, and their markers are CONTINUE and another. -/
theorem blocks_sound : (crc16 ((blockOf 0x5A 0x3264).take 62)).toNat = numberAt (blockOf 0x5A 0x3264) 62 2 ∧
    (crc16 ((blockOf 0x00 0xC9DB).take 62)).toNat = numberAt (blockOf 0x00 0xC9DB) 62 2 ∧
    octetAt (blockOf 0x5A 0x3264) 61 = 0x5A ∧ octetAt (blockOf 0x00 0xC9DB) 61 = 0 := by decide +kernel

/-- Not loading; a write in progress; the sound blocks of `stored_reads`: one that goes on, one in block 3, one that ends;
and an unsound block, with none taken before, after power-on. -/
theorem witness_SettingsBlocksAreTakenOrDefaulted :
    ready.loader.loading = false ∧
    (State.reset.updLoader fun d => { d with store := some ⟨0, 0, []⟩ }).loader.store ≠ none ∧
    (let x := Memory.readAll (stored 3 (blockOf 0x5A 0)).eeprom (64 * 3) 64
     (crc16 (x.take 62)).toNat ≠ numberAt x 62 2) ∧
    (stored 3 (blockOf 0x5A 0)).loader.taken = [] ∧ (stored 3 (blockOf 0x5A 0)).loader.afterPowerOn = true ∧
    (State.reset.iso.tripAsserted = false ∧ (State.reset.updIso fun i => { i with tripAsserted := true }).iso.tripAsserted) ∧
    ((∀ n, (State.reset.strip n).state ≠ .wet) ∧ State.reset.rail.state = .closed ∧ State.reset.rail.causes = [] ∧
      (State.reset.br 3).dock = .vacant ∧ (State.reset.br 3).causes = []) ∧
    ∀ d ∈ docks, let s := (bay d []).updLoader fun x => { x with loading := true, afterPowerOn := false }
      s.loader.loading = true ∧ s.loader.afterPowerOn = false ∧ s.loader.store = none ∧ s.rail.state = .opened ∧
        (∀ n, (s.strip n).state ≠ .wet) ∧ (s.br 3).dock = d ∧ (s.br 3).causes = [] ∧ ContactOpen (s.br 3) :=
  ⟨rfl, by decide +kernel, by decide +kernel, rfl, rfl, by decide +kernel, by decide +kernel, by decide +kernel⟩

/-! ## Witnesses: the lines -/

/-- A place in use with one frame and with two waiting; an empty place with each refusal; a reply sent. -/
theorem witness_ReceivedFrameIsPlacedAndTaken :
    (List.replicate 48 (0 : Byte)).length ≤ 48 ∧
    (∀ n ∈ [1, 2], let s := (hand 3 .readAttn ready).updLine 3 fun ln => { ln with waiting := List.replicate n ⟨5, 1, []⟩ }
      (s.line 3).service ≠ .empty ∧ (s.line 3).waiting.length = n) ∧
    ((ready.line 3).service = .empty ∧ Kind.ofOctet 0x24 = none ∧ Kind.ofOctet 0x15 = some .restore ∧
      Kind.restore.takenOn (lineClass 3) = false ∧ Kind.release.takenOn (lineClass 3) = true ∧
      ready.loader.loading = false ∧ ([] : List Byte).length < Kind.release.bodyLength) ∧
    ((State.reset.line 3).service = .empty ∧ State.reset.loader.loading = true) ∧
    (∀ w ∈ [[], [(⟨5, 1, []⟩ : Frame)]],
      let s := (sending 3 ⟨0x85, 1, [], false⟩ ready).updLine 3 fun ln => { ln with waiting := w }
      (s.line 3).service = .sending ⟨0x85, 1, [], false⟩ ∧ (s.line 3).waiting = w) := by
  decide +kernel

/-- Every KIND that is handed on passes the tests on a line of each class that takes it, with the shortest BODY. -/
theorem witness_HandsOn : (∀ x ∈ [(0x02 : Byte), 0x03, 0x04, 0x05, 0x06, 0x07, 0x11, 0x12, 0x13, 0x14, 0x15, 0x16, 0x17, 0x18,
      0x19, 0x1A, 0x1B, 0x1C, 0x1D, 0x1E, 0x23], ∃ k, Kind.ofOctet x = some k ∧ k.takenOn (lineClass 12) = true ∧
        k.bodyLength ≤ (List.replicate k.bodyLength (0 : Byte)).length) ∧
    (∀ x ∈ [(0x20 : Byte), 0x21, 0x22], ∃ k, Kind.ofOctet x = some k ∧ k.takenOn (lineClass 13) = true) ∧
    ∀ x ∈ [(0x02 : Byte), 0x03, 0x04], ∃ k, Kind.ofOctet x = some k ∧ k.takenOn (lineClass 3) = true := by
  refine ⟨?_, ?_, ?_⟩ <;> simp [Kind.ofOctet, lineClass, Kind.takenOn]

/-- What an index names: the last branch of a window, none past it, branch 11 and the rail on the supervisor line, none
between, and on the plant line the rail alone. -/
theorem witness_Names : Names ready 3 0 (.branch 3) ∧ (∀ g, ¬Names ready 3 1 g) ∧ Names ready supLine 11 (.branch 11) ∧
    Names ready supLine 0xFF .rail ∧ (∀ g, ¬Names ready supLine 12 g) ∧ Names ready plantLine 0xFF .rail ∧
    ∀ g, ¬Names ready plantLine 0 g := by
  refine ⟨.inl ⟨3, by decide +kernel⟩, fun g => ?_, .inr ⟨rfl, rfl⟩, ⟨.inl rfl, rfl⟩, fun g => ?_, ⟨.inr rfl, rfl⟩,
    fun g => ?_⟩ <;> cases g <;> first | decide +kernel | (decide +revert +kernel)

theorem witness_OctetsOfAFrameAreThatFrame : (ready.line 3).rx = .hunting ∧
    (List.replicate 48 (0 : Byte)).length ≤ 48 := by decide +kernel

/-- A bad CHECK; a frame in reception, at LEN too with 1, 2, 50 and 51; the last octet but one and the last of the shortest
frame; counts of 7 and below; a line that sends another reply. -/
theorem witness_DiscardsAndBreaksActOnTheirLine :
    (0 : BitVec 16) ≠ frameCheck 0x05 0 [] ∧
    (let s := ready.updLine 3 fun ln => { ln with rx := .inFrame [], badCount := 7 }
     (s.line 3).rx = .inFrame [] ∧ (s.line 3).badCount = 7) ∧
    ((1 : Byte).toNat < 2 ∧ 50 < (51 : Byte).toNat) ∧
    (∀ n ∈ [(2 : Byte), 50], let ys := ([] : List Byte) ++ [n]
      2 ≤ octetAt ys 0 ∧ octetAt ys 0 ≤ 50 ∧ ys.length < octetAt ys 0 + 3) ∧
    (let s := ready.updLine 3 fun ln => { ln with rx := .inFrame [2, 5, 9] }
     let ys := ([2, 5, 9] : List Byte) ++ [0]
     (s.line 3).rx = .inFrame [2, 5, 9] ∧ ys.length < octetAt ys 0 + 3 ∧ octetAt (ys ++ [0]) 0 + 3 ≤ (ys ++ [0]).length) ∧
    ((ready.line 3).rx = .hunting ∧ (ready.line 3).badCount ≠ 7 ∧ (0xC2 : Byte) ≠ 0xC3) ∧
    ((sending 3 ⟨0x85, 1, [], false⟩ ready).line 3).service = .sending ⟨0x85, 1, [], false⟩ := by decide +kernel

/-- Lines 12 and 11; a window out of range by one, one that overlaps, and one that is taken. -/
theorem witness_SetWindowMakesItsTests :
    (WindowLaw ready ∧ (ready.line supLine).service = .empty ∧ ready.loader.loading = false) ∧
    11 < (12 : Byte).toNat ∧ (11 : BranchNo).val = (11 : Byte).toNat ∧
    ¬((11 : Byte).toNat ≤ 11 ∧ (2 : Byte).toNat ≤ 12 ∧ (11 : Byte).toNat + (2 : Byte).toNat ≤ 12) ∧
    ((⟨10, 2⟩ : Window).includes 10 = true ∧ (ready.window 10).includes 10 = true) ∧
    (∀ m : BranchNo, m ≠ 11 → ∀ b, ¬((⟨11, 1⟩ : Window).includes b = true ∧ (ready.window m).includes b = true)) := by
  decide +kernel

/-- Lines of the three classes ready to take a READ_BRANCH; `witness_Names` gives the indexes. -/
theorem witness_ReadBranchReturnsTheRecord : (∀ l ∈ [(3 : LineNo), supLine, plantLine], (ready.line l).service = .empty) ∧
    ready.loader.loading = false ∧ (1 : Byte).toNat = 1 ∧ (0xFF : Byte).toNat = 0xFF ∧ (3 : LineNo) ≠ plantLine := by
  decide +kernel

/-! ## Witnesses: bays and windows -/

/-- Every dock state with the contacts at each level, after loading with an empty set and while loading; ISOLATING with
HOT_PULL held and an OPEN record. -/
theorem witness_ContactsMoveTheBay : (∀ d ∈ docks, ∀ p q : Bool,
    let s := (bay d []).updBranch 3 fun br => { br with present := p, latched := q }
    s.loader.loading = false ∧ (s.br 3).dock = d ∧ (s.br 3).present = p ∧ (s.br 3).latched = q ∧
      (s.br 3).causes = [] ∧ s.params.seatSettle ≠ 0 ∧ s.rail.state = .opened ∧
      (s.updLoader fun x => { x with loading := true }).loader.loading = true) ∧
    (let s := openBay .isolating [.hotPull] 15
     HasOpenRecord s (.branch 3) 15 ∧ (s.br 3).dock = .isolating ∧ BranchCause.hotPull ∈ (s.br 3).causes) ∧
    (let s := openBay .draining [.earlyPull] 15
     HasOpenRecord s (.branch 3) 15 ∧ (s.br 3).dock = .draining ∧ BranchCause.earlyPull ∈ (s.br 3).causes) := by
  decide +kernel

/-- The four cases of the ring for bay 3: an OPEN record, a CLOSED one, none with the slot at the Fill Index FREE, and
none with the log SUSPENDED. -/
theorem witness_Recorded :
    HasOpenRecord (openBay .isolating [.balance] 15) (.branch 3) 15 ∧
    (let s := (openBay .isolated [.balance] 15).updSlot 15 fun r => { r with state := .closed }
     incidentOf s (.branch 3) = some 15 ∧ (s.slot 15).state ≠ .opened) ∧
    (incidentOf ready (.branch 3) = none ∧ ready.ring.suspended = false ∧ (ready.slot ready.ring.fill).state = .free) ∧
    (let s := ready.updRing fun g => { g with suspended := true }
     incidentOf s (.branch 3) = none ∧ s.ring.suspended = true) := by decide +kernel

/-- A running timer in every dock state, with an empty set; and in ISOLATING with a cause and an OPEN record. -/
theorem witness_DockTimersRunOut :
    (∀ d ∈ docks, ((bay d []).br 3).dockTimer = some 700 ∧ ((bay d []).br 3).dock = d ∧ ((bay d []).br 3).causes = []) ∧
    (busy.br 5).dockTimer = some 900 ∧ (busy.br 5).dock = .isolating ∧ (busy.br 5).causes ≠ [] ∧
      (busy.br 5).incident = some 0 ∧ (busy.slot 0).state = .opened := by decide +kernel

theorem witness_WindowClosePublishesTheSnapshot : State.reset.meter.windowTimer = none ∧
    ready.meter.windowTimer = some 1000 ∧ 0 < (ready.channel 25).k ∧
    ClosePart.all.reverse.isPerm ClosePart.all = true := by decide +kernel

/-- A balanced branch with a loss at the gross limit, a backflow and a tray strip WET at the threshold; a balanced rail; and a
branch with a record that grows. -/
theorem witness_BranchBalanced :
    (let u := withVolumes 200 0 (bay .admitted [])
     (u.br 3).dock = .admitted ∧ MetersGood u 3 ∧ (u.br 3).causes = [] ∧ (u.params.grossLimit : Int) ≤ lossOf u 3) ∧
    (let u := withVolumes (-20) 0 (bay .adopting [])
     (u.snapChannel (supplyChannel 3)).volume ≤ -(u.params.backflowLimit : Int)) ∧
    (let u := (withVolumes 100 0 (bay .admitted [])).updBranch 3 fun br => { br with account := ⟨33, .clear, 0⟩ }
     integratorAfter u.params.decayShift (u.br 3).account.integrator
       (lossOf u 3 - toleranceFor u.params.deadband u.params.slip 100) = 126) ∧
    (ready.rail.state = .opened ∧ ready.rail.causes = [] ∧ RailMetersGood ready) ∧
    (HasOpenRecord (openBay .isolating [.balance] 0) (.branch 3) 0 ∧ MetersGood (openBay .isolating [.balance] 0) 3) := by
  decide +kernel

/-- The locate with a suspected branch, with the rail alone, and with neither; a trim that is updated and one that is not. -/
theorem witness_LocateEvaluated :
    (let u := ((bay .admitted []).updBranch 3 fun br => { br with account := ⟨60, .watch, 0⟩ }).updDrip fun d =>
        { d with running := true }
     u.drip.running = true ∧ Suspected u 3 ∧ ¬Suspected u 4) ∧
    (let u := (ready.updRail fun r => { r with account := ⟨200, .watch, 0⟩ }).updDrip fun d => { d with running := true }
     (∀ b, ¬Suspected u b) ∧ u.rail.account.state ≠ .clear ∧ ∀ b, ¬Suspected ready b) ∧
    (let u := twoBays
     (u.br 3).dock = .admitted ∧ 0 < (u.br 3).grant ∧ (u.snapChannel (supplyChannel 3)).health = .healthy ∧
       (u.br 5).dock ≠ .admitted) := by decide +kernel

/-- The checks of the docks: the first good window of PRIMING, one that is not good, and one with a DEGRADED meter; ADOPTING
with a negative volume; DRAINING settled at the residual and one above it. -/
theorem witness_DockChecked :
    (let u := withVolumes 100 70 (bay .priming [])
     (u.br 3).dock = .priming ∧ MetersGood u 3 ∧ (100 * u.params.primeReturn : Int).tdiv 1000 = 70 ∧ (u.br 3).primeGood < 2) ∧
    (let u := withVolumes 100 69 (bay .priming [])
     ¬(100 * u.params.primeReturn : Int).tdiv 1000 ≤ (u.snapChannel (returnChannel 3)).volume) ∧
    (let u := withVolumes (-1) 0 (bay .adopting [])
     (u.snapChannel (supplyChannel 3)).health = .healthy ∧ (u.snapChannel (supplyChannel 3)).volume < 0) ∧
    (∀ v ∈ [(2 : Int), 3], let u := withVolumes 0 v (bay .draining [])
      (u.br 3).dock = .draining ∧ (u.br 3).dockTimer = some 700 ∧
        u.params.drainTime * 1000 ≤ u.params.drainLimit * 1000 - 700 ∧ (u.snapChannel (returnChannel 3)).volume = v ∧
        u.params.drainResidual = 2) := by decide +kernel

/-- A channel before a close: HEALTHY or DEGRADED, with flags and runs at the values where the judgement changes. -/
theorem witness_HealthJudged : ready.meter.windowTimer = some 1000 ∧
    (∀ n ∈ [1, 2], let s := ready.updChannel 25 fun c => { c with qerr := true, qerrRun := n }
      (s.channel 25).health = .healthy ∧ (s.channel 25).overrange = false ∧ (s.channel 25).qerrRun = n) ∧
    (∀ n ∈ [8, 9], let s := ready.updChannel 25 fun c => { c with health := .degraded, cleanRun := n }
      (s.channel 25).health = .degraded ∧ (s.channel 25).qerr = false ∧ (s.channel 25).cleanRun = n) ∧
    ((ready.updChannel 25 fun c => { c with overrange := true }).channel 25).overrange = true := by decide +kernel

/-- A run of 2 with QERR, a clean run of 9 with no flag, and neither; a window close. -/
theorem witness_MeterHealthThresholds :
    (let s := (ready.updChannel 25 fun c => { c with qerrRun := 2 }).updMeter fun m =>
        { m with snap := { m.snap with channels := Vec.put m.snap.channels 25 { SnapChannel.zero with qerr := true } } }
     (s.channel 25).health = .healthy ∧ (s.snapChannel 25).qerr = true ∧ 2 ≤ (s.channel 25).qerrRun) ∧
    (let s := ready.updChannel 25 fun c => { c with health := .degraded, cleanRun := 9 }
     (s.channel 25).health = .degraded ∧ (s.snapChannel 25).qerr = false ∧ (s.snapChannel 25).overrange = false ∧
       9 ≤ (s.channel 25).cleanRun) ∧
    ¬(ready.snapChannel 25).qerr = true ∧ (ready.channel 25).health = .healthy ∧ MeterChannel.reset.health = .healthy ∧
      ready.meter.windowTimer = some 1000 := by
  decide +kernel

/-- The last good window of PRIMING and of ADOPTING, the last idle one, and the other dock states. -/
theorem witness_DockCountsReachTheirThresholds :
    (let s := withVolumes 100 70 ((bay .priming []).updBranch 3 fun br => { br with primeGood := 2 })
     (s.br 3).dock = .priming ∧ (s.snapChannel (supplyChannel 3)).health = .healthy ∧
       (s.snapChannel (returnChannel 3)).health = .healthy ∧ 0 < (s.snapChannel (supplyChannel 3)).volume ∧
       ((s.snapChannel (supplyChannel 3)).volume * s.params.primeReturn).tdiv 1000 ≤
         (s.snapChannel (returnChannel 3)).volume ∧ (s.br 3).primeGood = 2) ∧
    (let s := withVolumes 1 0 ((bay .adopting []).updBranch 3 fun br => { br with primeGood := 1 })
     (s.br 3).dock = .adopting ∧ 0 < (s.snapChannel (supplyChannel 3)).volume ∧ (s.br 3).primeGood = 1) ∧
    (let s := withVolumes 0 0 ((bay .adopting []).updBranch 3 fun br => { br with idle := 1 })
     (s.br 3).dock = .adopting ∧ (s.snapChannel (supplyChannel 3)).volume = 0 ∧ (s.br 3).idle = 1) ∧
    ((bay .held []).br 3).dock ≠ .priming ∧ ((bay .held []).br 3).dock ≠ .adopting := by decide +kernel

/-- A branch and the rail at their thresholds with one count short of Confirm Count; a locate with one window left;
leak-class causes that a set does not hold. `witness_BranchBalanced`, `witness_LocateEvaluated` and `witness_Recorded` give
the parts of a close and the cases of the ring. -/
theorem witness_LeakIsConfirmedAtTheCount :
    (let s := (bay .admitted []).updBranch 3 fun br => { br with account := ⟨120, .suspect, 1⟩ }
     (s.br 3).dock = .admitted ∧ (s.snapChannel (supplyChannel 3)).health = .healthy ∧
       (s.snapChannel (returnChannel 3)).health = .healthy ∧ (s.br 3).causes = [] ∧
       s.params.tripThreshold ≤ (s.br 3).account.integrator ∧ s.params.confirmCount ≤ (s.br 3).account.above + 1) ∧
    (let s := ready.updRail fun r => { r with account := ⟨400, .suspect, 1⟩ }
     s.rail.state = .opened ∧ s.rail.causes = [] ∧ railMetersHealthy s = true ∧
       s.params.railThreshold ≤ s.rail.account.integrator ∧ s.params.confirmCount ≤ s.rail.account.above + 1) ∧
    (let s := (bay .admitted []).updDrip fun d => { d with running := true, windowsLeft := 1 }
     s.drip.running = true ∧ s.drip.windowsLeft ≤ 1 ∧ s.rail.account.state = .clear ∧
       ∀ c, (s.br c).dock.participating = true → (s.br c).account.state = .clear) ∧
    (BranchCause.located ∉ (busy.br 5).causes ∧ RailCause.commonRail ∉ busy.rail.causes) := by decide +kernel

/-- The fifth short window of an ADMITTED branch that draws nothing, with and without the same restriction before. -/
theorem witness_TakeUpRestrictsTheDemand :
    ((bay .held []).br 3).dock ≠ .admitted ∧
    (∀ r ∈ [none, some 150],
      let s := (bay .admitted []).updBranch 3 fun br =>
        { br with grant := 500, commanded := 1000, takeUp := 4, restricted := r }
      let rate := (s.snapChannel (supplyChannel 3)).rate
      (s.br 3).dock = .admitted ∧ (s.snapChannel (supplyChannel 3)).health = .healthy ∧ (s.br 3).commanded = 1000 ∧
        rate < ((s.br 3).grant * s.params.takeUpShare / 1000 : Nat) ∧ s.params.takeUpWindows ≤ (s.br 3).takeUp + 1 ∧
        0 < s.params.quantum ∧ rate ≤ 0 * s.params.quantum) ∧
    ∀ n : Nat, 0 ≤ n := ⟨by decide +kernel, by decide +kernel, Nat.zero_le⟩

/-- FRESH and STALE while the age counts, with Fallback Time above and at Budget Hold; and an age that does not count. -/
theorem witness_BudgetAgeReachesItsThresholds :
    (ready.loader.loading = false ∧ ready.alloc.suspended = false ∧ ready.alloc.ageState = .fresh ∧
      ready.params.budgetHold < ready.params.fallbackTime) ∧
    (let s := { ready with params := { ready.params with fallbackTime := 60, budgetHold := 60 } }
     s.alloc.ageState = .fresh ∧ s.params.fallbackTime ≤ s.params.budgetHold) ∧
    (ready.updAlloc fun a => { a with ageState := .stale }).alloc.ageState = .stale ∧
    ¬(State.reset.loader.loading = false ∧ State.reset.alloc.suspended = false) := by decide +kernel

/-! ## Witnesses: trip, rail, strips, pickups -/

/-- The last microsecond of a period; an output not driven yet, one driven with its enable set and one with it clear. -/
theorem witness_PeriodStartAppliesTheDuties : 19999 < 20000 ∧ State.reset.valves.driven = false ∧
    (ready.valves.driven = true ∧ ready.valves.railEnable = true ∧ State.reset.valves.railEnable = false) := by decide +kernel

/-- NEGATED and ASSERTED, after loading and while loading after power-on, with enables set. -/
theorem witness_TripTakesTheDrivesAway :
    (ready.iso.tripAsserted = false ∧ ready.loader.loading = false ∧ ready.valves.railEnable = true ∧
      (ready.br 3).enable = true) ∧
    (State.reset.iso.tripAsserted = false ∧ State.reset.loader.loading = true ∧ State.reset.loader.afterPowerOn = true) ∧
    (ready.updIso fun i => { i with tripAsserted := true }).iso.tripAsserted = true := by decide +kernel

/-- CLOSING with an empty set and with a cause and an OPEN record; OPENING with a bay that holds RAIL alone; and the other
rail states. -/
theorem witness_RailTimersMoveTheRail :
    (∀ r ∈ [RailState.opened, .closing, .closed, .opening], (railIn r []).rail.timer = some 400 ∧
      (railIn r []).rail.state = r ∧ (railIn r []).rail.causes = [] ∧ (railIn r []).params.wetAction ≠ .rail) ∧
    (let s := (railIn .closing [.railBalance]).updRail fun r => { r with incident := some 15 }
     let s := s.updSlot 15 fun r => { r with state := .opened }
     s.rail.timer = some 400 ∧ s.rail.causes ≠ [] ∧ HasOpenRecord s .rail 15) ∧
    (let s := (railIn .opening []).updBranch 3 fun br => { br with dock := .isolated, causes := [.rail] }
     s.rail.state = .opening ∧ (s.br 3).dock = .isolated ∧ (s.br 3).causes = [.rail] ∧ s.params.seatSettle ≠ 0) ∧
    (let s := ((railIn .opening []).updBranch 3 fun br => { br with dock := .isolated, causes := [.rail], present := true })
     let s := (s.updStrip 3 fun x => { x with state := .wet }).updStrip 12 fun x => { x with state := .wet }
     let s := { s with params := { s.params with wetAction := .rail } }
     s.params.wetAction = .rail ∧ (s.strip 3).state = .wet ∧ (∀ b, ¬VacatesOverWetTray s b) ∧
       VacatesOverWetTray (s.updBranch 3 fun br => { br with present := false }) 3) := by
  decide +kernel

/-- A tray strip of an occupied bay, a common strip under each action, a strip while loading, a level already there; and the
last WET common strip, with a bay that waits and one that does not. -/
theorem witness_StripChangesReachTheirOwners :
    (let s := bay .admitted []
     (s.strip 3).state ≠ .wet ∧ s.loader.loading = false ∧ (3 : StripNo) = trayStrip 3 ∧ (s.br 3).dock ≠ .vacant) ∧
    (∀ w ∈ [WetAction.alarm, .locate, .rail], let s := { ready with params := { ready.params with wetAction := w } }
      (s.strip 15).state ≠ .wet ∧ CommonRole s 15 ∧ s.params.wetAction = w ∧ TripOutLaw s ∧
        RailCause.commonRail ∉ s.rail.causes) ∧
    ((State.reset.strip 0).state ≠ .broken ∧ State.reset.loader.loading = true) ∧
    ((ready.strip 0).state = .dry ∧ StripState.broken ≠ .wet) ∧
    (let s := ((bay .held []).updBranch 3 fun br => { br with clearance := true }).updStrip 12 fun x => { x with state := .wet }
     (s.strip 12).state = .wet ∧ ¬AdmissionsFrozen (after (.stripStateChange 12 .dry) s) ∧ (s.br 3).dock = .held ∧
       (s.br 3).clearance = true ∧ s.rail.state = .opened ∧ (s.br 3).causes = [] ∧ (s.br 4).dock ≠ .held) := by
  decide +kernel

/-- No last sample; both inputs changed; one changed inside the limits and at each limit; none changed. -/
theorem witness_InvalidTransitionSetsQerr :
    (State.reset.channel 25).last = none ∧
    (∀ n ∈ [(-32767 : Int), -32766, 0, 32766, 32767],
      let s := ready.updChannel 25 fun c => { c with last := some (false, false), acc := n }
      (s.channel 25).last = some (false, false) ∧ (s.channel 25).acc = n) ∧
    (let a : BitVec 26 := 0x2000000
     (a.getLsbD 25, a.getLsbD 25) = (true, true) ∧ (a.getLsbD 25, (0 : BitVec 26).getLsbD 25) = (true, false)) ∧
    MeterChannel.reset.health = .healthy ∧ MeterChannel.reset.qerrRun = 0 ∧
      { MeterChannel.reset with qerrRun := 2 }.qerrRun = 2 := by decide +kernel

end Sys2Proof.Tests
end

section
/-! SUPPORT. One millisecond on an empty queue: what the 1 ms and 10 ms samples do, object by object, and what a tick leaves
alone (R6, R8, R112, R137, R179; logs 2 and 10). -/

namespace Sys2Proof.Machine

open Sys2Proof Sys2Proof.Safety

/-! ## Loops in which every object takes its own turn -/

/-- Where turn `i` changes object `i` alone, by a function of what no turn changes, the loop changes every object of its
list once. -/
theorem foldl_own_turn {ι α γ : Type} [DecidableEq ι] (view : State → ι → α) (inputs : State → γ)
    (op : ι → State → State) (f : γ → ι → α → α) (kept : ∀ i s, inputs (op i s) = inputs s)
    (turn : ∀ i s j, view (op i s) j = if i = j then f (inputs s) i (view s i) else view s j)
    (is : List ι) (once : is.Nodup) (s : State) (j : ι) :
    view (is.foldl (fun s i => op i s) s) j = if j ∈ is then f (inputs s) j (view s j) else view s j := by
  induction is generalizing s with
  | nil => rfl
  | cons i is ih =>
    obtain ⟨fresh, once⟩ := List.nodup_cons.1 once
    rw [List.foldl_cons, ih once, kept, turn]
    by_cases h : i = j
    · subst h; simp [fresh]
    · simp [h, Ne.symm h]

theorem allBranches_nodup : allBranches.Nodup := by decide

theorem allStrips_nodup : allStrips.Nodup := by decide

/-! ## The 10 ms sample -/

/-- R6: a branch record after one sample of the contacts of its bay. -/
def Branch.sampled (p : Pins) (b : BranchNo) (br : Branch) : Branch :=
  { br with
    presentRun := runAfter (Vec.pick p.present b) br.present br.presentRun
    latchRun := runAfter (Vec.pick p.latched b) br.latched br.latchRun }

theorem sampleContacts_eq (b : BranchNo) (s : State) :
    sampleContacts b s = s.updBranch b (Branch.sampled s.pins b) := rfl

/-- R6: the sample of every bay's contacts takes each bay once. -/
theorem forBranches_sampleContacts_br (s : State) (b : BranchNo) :
    (forBranches sampleContacts s).br b = Branch.sampled s.pins b (s.br b) := by
  have h := foldl_own_turn State.br State.pins sampleContacts Branch.sampled (fun _ _ => rfl)
    (fun i s j => by rw [sampleContacts_eq, State.updBranch_br]) allBranches allBranches_nodup s b
  rwa [if_pos (mem_allBranches b)] at h

/-- The sample of the contacts changes branch records alone. -/
theorem forBranches_sampleContacts_frame (s : State) :
    ∃ bs, forBranches sampleContacts s = { s with branches := bs } :=
  forBranches_inv (fun t => ∃ bs, t = { s with branches := bs }) sampleContacts
    (by rintro b _ ⟨bs, rfl⟩; exact ⟨_, rfl⟩) s ⟨s.branches, rfl⟩

/-- R111: the sample of every strip takes each strip once. -/
theorem allStrips_sampleStrip_strip (s : State) (n : StripNo) :
    (allStrips.foldl (fun s n => sampleStrip n s) s).strip n =
      Strip.sample s.params.debounce (Vec.pick s.pins.strips n).level (s.strip n) := by
  have h := foldl_own_turn State.strip (fun s => (s.params, s.pins)) sampleStrip
    (fun x n => Strip.sample x.1.debounce (Vec.pick x.2.strips n).level) (fun _ _ => rfl)
    (fun i s j => by rw [sampleStrip, State.updStrip_strip]) allStrips allStrips_nodup s n
  rwa [if_pos (mem_allStrips n)] at h

/-- The sample of strips changes strips alone. -/
theorem foldl_sampleStrip_frame (ns : List StripNo) (s : State) :
    ∃ xs, ns.foldl (fun s n => sampleStrip n s) s = { s with drip := { s.drip with strips := xs } } := by
  induction ns generalizing s with
  | nil => exact ⟨s.drip.strips, rfl⟩
  | cons n ns ih => exact ih (sampleStrip n s)

@[simp] theorem foldl_sampleStrip_br (ns : List StripNo) (s : State) (b : BranchNo) :
    (ns.foldl (fun s n => sampleStrip n s) s).br b = s.br b := by
  obtain ⟨_, strips⟩ := foldl_sampleStrip_frame ns s
  rw [strips]; rfl

/-- R111, R112: one sample of a strip goes by the table of R112, its level by its comparators. -/
theorem stripSampled_sample (debounce : Nat) (p : StripPins) (x : Strip) :
    StripSampled debounce p x (Strip.sample debounce p.level x) := by
  have level : p.level = if p.whole = false then .broken else if p.wet = true then .wet else .dry := by
    unfold StripPins.level; cases p.whole <;> rfl
  unfold StripSampled Strip.sample
  rw [← level]
  refine ⟨fun same => if_pos same, fun other again => ?_, fun other first => ?_⟩
  · rw [if_neg other, if_pos again]
  · rw [if_neg other, if_neg first]

theorem samplesDue_iff (s : State) : samplesDue s = true ↔ s.sampleTimer ≤ 1 := by
  simp [samplesDue]

/-- Log 10: between two samples the sample timer counts down, and nothing else changes. -/
theorem sampleSlow_idle {s : State} (h : ¬s.sampleTimer ≤ 1) :
    sampleSlow s = { s with sampleTimer := s.sampleTimer - 1 } := by
  rw [sampleSlow, if_neg (by rwa [samplesDue_iff])]

/-- R6, R111: the sample takes the contacts of every bay and then every strip. -/
theorem sampleSlow_due {s : State} (h : s.sampleTimer ≤ 1) :
    sampleSlow s = allStrips.foldl (fun s n => sampleStrip n s)
      (forBranches sampleContacts { s with sampleTimer := 10 }) := by
  rw [sampleSlow, if_pos ((samplesDue_iff s).2 h)]

/-- A sample changes branch records, strips and the sample timer alone. -/
theorem sampleSlow_frame (s : State) :
    ∃ bs xs, sampleSlow s = { s with
      branches := bs
      drip := { s.drip with strips := xs }
      sampleTimer := if s.sampleTimer ≤ 1 then 10 else s.sampleTimer - 1 } := by
  by_cases h : s.sampleTimer ≤ 1
  · obtain ⟨bs, contacts⟩ := forBranches_sampleContacts_frame { s with sampleTimer := 10 }
    obtain ⟨xs, strips⟩ := foldl_sampleStrip_frame allStrips { s with sampleTimer := 10, branches := bs }
    exact ⟨bs, xs, by rw [sampleSlow_due h, contacts, strips, if_pos h]⟩
  · exact ⟨s.branches, s.drip.strips, by rw [sampleSlow_idle h, if_neg h]⟩

theorem sampleSlow_br (s : State) (b : BranchNo) :
    (sampleSlow s).br b = if s.sampleTimer ≤ 1 then Branch.sampled s.pins b (s.br b) else s.br b := by
  by_cases h : s.sampleTimer ≤ 1
  · rw [if_pos h, sampleSlow_due h, foldl_sampleStrip_br, forBranches_sampleContacts_br]; rfl
  · rw [if_neg h, sampleSlow_idle h]; rfl

theorem sampleSlow_strip (s : State) (n : StripNo) :
    (sampleSlow s).strip n =
      if s.sampleTimer ≤ 1 then Strip.sample s.params.debounce (Vec.pick s.pins.strips n).level (s.strip n)
      else s.strip n := by
  by_cases h : s.sampleTimer ≤ 1
  · obtain ⟨bs, contacts⟩ := forBranches_sampleContacts_frame { s with sampleTimer := 10 }
    rw [if_pos h, sampleSlow_due h, allStrips_sampleStrip_strip, contacts]; rfl
  · rw [if_neg h, sampleSlow_idle h]; rfl

/-! ## The millisecond -/

/-- The state at the end of a millisecond, before the events due join the queue. -/
def passed (s : State) : State := sampleSlow (sampleInputs (elapse 1 s))

theorem ageRuns_iff (s : State) : ageRuns s = true ↔ s.loader.loading = false ∧ s.alloc.suspended = false := by
  simp [ageRuns]

theorem tick_eq (s : State) :
    tick s = { passed s with pending := (passed s).pending ++ dueEvents (samplesDue s) (passed s) } := rfl

@[simp] theorem elapse_br (ms : Nat) (s : State) (b : BranchNo) : (elapse ms s).br b = (s.br b).elapse ms := by
  simp [elapse, State.br]

/-- A millisecond leaves alone all but the timers, the blink clocks, the budget age and the runs of samples. -/
theorem passed_frame (s : State) :
    ∃ bs xs, passed s = { s with
      branches := bs
      rail := { s.rail with timer := s.rail.timer.map (· - 1) }
      meter := { s.meter with windowTimer := s.meter.windowTimer.map (· - 1) }
      alloc := { s.alloc with
        age := if s.loader.loading = false ∧ s.alloc.suspended = false then s.alloc.age + 1 else s.alloc.age }
      valves := { s.valves with periodTimer := s.valves.periodTimer - 1 }
      drip := { s.drip with strips := xs }
      iso := { s.iso with tripCandidate := runAfter s.pins.trip s.iso.tripAsserted s.iso.tripCandidate }
      loader := { s.loader with
        warmCandidate := runAfter s.pins.warm s.loader.warmAsserted s.loader.warmCandidate }
      sampleTimer := if s.sampleTimer ≤ 1 then 10 else s.sampleTimer - 1 } := by
  simp only [← ageRuns_iff]
  exact sampleSlow_frame (sampleInputs (elapse 1 s))

/-- R6, R7, R8: a branch record after a millisecond. -/
theorem passed_br (s : State) (b : BranchNo) :
    (passed s).br b =
      if s.sampleTimer ≤ 1 then Branch.sampled s.pins b ((s.br b).elapse 1) else (s.br b).elapse 1 := by
  rw [← elapse_br]
  exact sampleSlow_br (sampleInputs (elapse 1 s)) b

/-- R111: a strip after a millisecond. -/
theorem passed_strip (s : State) (n : StripNo) :
    (passed s).strip n =
      if s.sampleTimer ≤ 1 then Strip.sample s.params.debounce (Vec.pick s.pins.strips n).level (s.strip n)
      else s.strip n :=
  sampleSlow_strip (sampleInputs (elapse 1 s)) n

/-- Whether an event falls due does not hang on the queue. -/
theorem fallsDue_pending (sampled : Prop) (t : State) (q : List Instr) (c : Instr) :
    FallsDue sampled { t with pending := q } c ↔ FallsDue sampled t c := Iff.rfl

/-- Log 2: with an empty queue before it, a millisecond leaves the events due in the queue. -/
theorem tick_pending {s : State} (h : s.pending = []) : (tick s).pending = dueEvents (samplesDue s) (passed s) := by
  have kept : (passed s).pending = s.pending := by obtain ⟨_, _, frame⟩ := passed_frame s; rw [frame]
  rw [tick_eq, kept, h, List.nil_append]

theorem step_empty {s : State} (h : s.pending = []) : step s = .next (tick s) := by
  unfold step; rw [h]

/-- Settles O2: the step is a tick, whose state is read off object by object and whose queue is the list of events due. -/
theorem idleStepPassesOneMillisecond : Obligations.IdleStepPassesOneMillisecond := by
  unfold Obligations.IdleStepPassesOneMillisecond
  intro s empty
  obtain ⟨bs, xs, frame⟩ := passed_frame s
  refine ⟨tick s, step_empty empty, fun b => ?branch, ?rail, ?meter, ?alloc, fun n => ⟨fun due => ?strip, fun idle => ?kept⟩,
    ?once, fun c => ?due, fun n x change restart => ?order, ?frame⟩
  case branch =>
    refine (passed_br s b).trans ?_
    by_cases due : s.sampleTimer ≤ 1
    · simp only [if_pos due]; rfl
    · simp only [if_neg due]; rfl
  case rail => rw [tick_eq, frame]
  case meter => rw [tick_eq, frame]
  case alloc => rw [tick_eq, frame]
  case strip =>
    have after : (tick s).strip n = _ := (passed_strip s n).trans (if_pos due)
    rw [after]
    exact stripSampled_sample _ _ _
  case kept => exact (passed_strip s n).trans (if_neg idle)
  case once => rw [tick_pending empty]; exact dueEvents_nodup _ _
  case due =>
    rw [tick_pending empty, mem_dueEvents, samplesDue_iff]
    exact (fallsDue_pending _ _ _ c).symm
  case order =>
    rw [tick_pending empty] at change restart ⊢
    exact dueEvents_strip_before_restart change restart
  case frame => rw [tick_eq, frame]

end Sys2Proof.Machine
end

section
/-! SUPPORT. Power-on reset: the tables it sets, entry by entry, and the settings memory under a write that it abandons
(R28, R44, R123, R154, R168, R174, R178). -/

namespace Sys2Proof.Machine

open Sys2Proof Sys2Proof.Safety

/-! ## The tables after power-on -/

@[simp] theorem pick_replicate {α : Type} {n : Nat} (x : α) (i : Fin n) : Vec.pick (Vector.replicate n x) i = x := by
  simp [Vec.pick]

@[simp] theorem pick_branchesReset (holdStrap : Bool) (b : BranchNo) :
    Vec.pick (branchesReset holdStrap) b = Branch.reset b holdStrap := by
  fin_cases b <;> rfl

/-- R168: sled line n has base n and span 1. -/
@[simp] theorem pick_windowsReset (n : BranchNo) : Vec.pick windowsReset n = ⟨n.val, 1⟩ := by
  fin_cases n <;> rfl

/-- R174: nothing is pending, and every cause of the line's class is in its mask. -/
@[simp] theorem pick_attnReset (l : LineNo) : Vec.pick attnReset l = ⟨[], (lineClass l).allCauses⟩ := by
  fin_cases l <;> rfl

/-! ## The write in progress (R178) -/

theorem abandonWrite_eeprom_of_idle {s : State} (h : s.loader.store = none) : (abandonWrite s).eeprom = s.eeprom := by
  unfold abandonWrite; rw [h]

/-- Log 12: octet `i` of the half-block that an abandoned write leaves, old or new by a free value. -/
def abandonedOctet (w : StoreWrite) (s : State) (i : Nat) : Byte :=
  if Config.keepsOldOctet s.freeCount i then Memory.read s.eeprom (halfAddress w.block w.half + i) else w.octets.getD i 0

theorem abandonedOctet_old_or_new (w : StoreWrite) (s : State) (i : Nat) :
    abandonedOctet w s i = Memory.read s.eeprom (halfAddress w.block w.half + i) ∨
      abandonedOctet w s i = w.octets.getD i 0 := by
  unfold abandonedOctet; split
  · exact .inl rfl
  · exact .inr rfl

theorem abandonWrite_eeprom_of_busy {s : State} {w : StoreWrite} (h : s.loader.store = some w) :
    (abandonWrite s).eeprom = (s.storeHalf w.block w.half (abandonedOctet w s)).eeprom := by
  simp only [abandonWrite, h, State.storeHalf_eeprom]
  rfl

/-- R178: outside its half-block an abandoned write changes nothing. -/
theorem abandonWrite_read_outside {s : State} {w : StoreWrite} (h : s.loader.store = some w) {i : Nat}
    (outside : i < halfAddress w.block w.half ∨ halfAddress w.block w.half + 32 ≤ i) :
    Memory.read (abandonWrite s).eeprom i = Memory.read s.eeprom i := by
  rw [abandonWrite_eeprom_of_busy h, State.storeHalf_read_outside _ _ _ _ _ outside]

/-- R178: inside its half-block an abandoned write leaves a mixture of old and new octets. -/
theorem abandonWrite_read_inside {s : State} {w : StoreWrite} (h : s.loader.store = some w) (canonical : StoreLaw s)
    {i : Nat} (inside : i < 32) :
    Memory.read (abandonWrite s).eeprom (halfAddress w.block w.half + i) =
        Memory.read s.eeprom (halfAddress w.block w.half + i) ∨
      Memory.read (abandonWrite s).eeprom (halfAddress w.block w.half + i) = w.octets.getD i 0 := by
  rw [abandonWrite_eeprom_of_busy h, State.storeHalf_read_inside _ _ _ _ _ inside canonical]
  exact abandonedOctet_old_or_new w s i

/-! ## The command -/

/-- The state that a power-on reset ends in. -/
def poweredOn (holdStrap speedStrap : Bool) (s : State) : State :=
  { State.reset with
    branches := branchesReset holdStrap
    loader := Loader.reset holdStrap speedStrap
    eeprom := (abandonWrite s).eeprom
    pins := s.pins
    freeCount := (abandonWrite s).freeCount
    pending := s.pending }

theorem exec_powerOnReset (holdStrap speedStrap : Bool) (s : State) :
    exec (.powerOnReset holdStrap speedStrap) s = .next (poweredOn holdStrap speedStrap s) := rfl

section
variable (holdStrap speedStrap : Bool) (s : State)

@[simp] theorem poweredOn_br (b : BranchNo) : (poweredOn holdStrap speedStrap s).br b = Branch.reset b holdStrap :=
  pick_branchesReset holdStrap b

@[simp] theorem poweredOn_channel (c : ChannelNo) : (poweredOn holdStrap speedStrap s).channel c = MeterChannel.reset :=
  pick_replicate _ c

@[simp] theorem poweredOn_snapChannel (c : ChannelNo) :
    (poweredOn holdStrap speedStrap s).snapChannel c = SnapChannel.zero :=
  pick_replicate _ c

@[simp] theorem poweredOn_strip (n : StripNo) : (poweredOn holdStrap speedStrap s).strip n = Strip.reset :=
  pick_replicate _ n

@[simp] theorem poweredOn_slot (k : SlotNo) : (poweredOn holdStrap speedStrap s).slot k = Slot.free :=
  pick_replicate _ k

@[simp] theorem poweredOn_line (l : LineNo) : (poweredOn holdStrap speedStrap s).line l = Line.reset :=
  pick_replicate _ l

@[simp] theorem poweredOn_window (n : BranchNo) : (poweredOn holdStrap speedStrap s).window n = ⟨n.val, 1⟩ :=
  pick_windowsReset n

@[simp] theorem poweredOn_attnOf (l : LineNo) :
    (poweredOn holdStrap speedStrap s).attnOf l = ⟨[], (lineClass l).allCauses⟩ :=
  pick_attnReset l

end

/-- Settles O4: the tables are read entry by entry, the single items are those of `State.reset`, and the memory is the one
an abandoned write leaves. -/
theorem powerOnResetSetsThePowerOnValues : Obligations.PowerOnResetSetsThePowerOnValues := by
  unfold Obligations.PowerOnResetSetsThePowerOnValues
  intro hold speed s
  refine ⟨poweredOn hold speed s, exec_powerOnReset hold speed s, fun b => ?branch, rfl, fun c => ?channel,
    poweredOn_snapChannel hold speed s, rfl, rfl, rfl, rfl, poweredOn_strip hold speed s, rfl, rfl,
    poweredOn_slot hold speed s, rfl, rfl, fun l => ?line, poweredOn_window hold speed s, poweredOn_attnOf hold speed s,
    rfl, rfl, rfl, abandonWrite_eeprom_of_idle, fun w busy => ⟨fun i outside => ?outside, fun canonical i inside => ?inside⟩⟩
  case branch => rw [poweredOn_br]; rfl
  case channel => rw [poweredOn_channel]; rfl
  case line => rw [poweredOn_line]; rfl
  case outside => exact abandonWrite_read_outside busy outside
  case inside => exact abandonWrite_read_inside busy canonical inside

end Sys2Proof.Machine
end

section
/-! SUPPORT. One sample of the pickups: how a level pair is classified against the last one, what an edge does to its
channel, and what the sample does to the table of channels (R30 to R32, R38). -/

namespace Sys2Proof.Machine

open Sys2Proof Sys2Proof.Safety

/-! ## The table of channels -/

@[simp] theorem pick_channelTable {α : Type} (f : ChannelNo → α) (c : ChannelNo) : Vec.pick (channelTable f) c = f c := by
  fin_cases c <;> rfl

/-! ## The table of R30 -/

/-- R30: the forward edges, from the last level pair AB to the new one; a reverse edge is one of them taken backwards. -/
def forwardEdges : List ((Bool × Bool) × (Bool × Bool)) :=
  [((false, false), (true, false)), ((true, false), (true, true)), ((true, true), (false, true)),
    ((false, true), (false, false))]

theorem classify_eq_same_iff : ∀ last now, classify last now = .same ↔ last = now := by decide

theorem classify_eq_forward_iff : ∀ last now, classify last now = .forward ↔ (last, now) ∈ forwardEdges := by decide

theorem classify_eq_reverse_iff : ∀ last now, classify last now = .reverse ↔ (now, last) ∈ forwardEdges := by decide

/-- R32: a transition is invalid exactly where both inputs have changed. -/
theorem classify_eq_invalid_iff :
    ∀ last now, classify last now = .invalid ↔ last.1 ≠ now.1 ∧ last.2 ≠ now.2 := by decide

/-! ## One channel -/

namespace MeterChannel

variable {ch : MeterChannel} {last now : Bool × Bool}

/-- R31: at a limit an edge outwards is not counted, so the accumulator stays within its limits. -/
theorem count_acc_within (e : Edge) (low : -32767 ≤ ch.acc) (high : ch.acc ≤ 32767) :
    -32767 ≤ (ch.count e).acc ∧ (ch.count e).acc ≤ 32767 := by
  cases e with
  | same => exact ⟨low, high⟩
  | invalid => exact ⟨low, high⟩
  | forward =>
    by_cases limit : ch.acc = 32767
    · simp only [count, if_pos limit]; exact ⟨low, high⟩
    · simp only [count, if_neg limit]; omega
  | reverse =>
    by_cases limit : ch.acc = -32767
    · simp only [count, if_pos limit]; exact ⟨low, high⟩
    · simp only [count, if_neg limit]; omega

/-- R33: before counting starts there is nothing to compare a sample with. -/
theorem sample_of_no_last (h : ch.last = none) : ch.sample now = ch := by
  rw [sample, h]

theorem sample_of_last (h : ch.last = some last) :
    ch.sample now = { ch.count (classify last now) with last := some now } := by
  rw [sample, h]

theorem sample_last (h : ch.last = some last) : (ch.sample now).last = some now := by
  rw [sample_of_last h]

theorem sample_of_same (h : ch.last = some now) : ch.sample now = ch := by
  rw [sample_of_last h, (classify_eq_same_iff now now).2 rfl, count, ← h]

theorem sample_of_invalid (h : ch.last = some last) (first : last.1 ≠ now.1) (second : last.2 ≠ now.2) :
    ch.sample now = { ch with qerr := true, last := some now } := by
  rw [sample_of_last h, (classify_eq_invalid_iff last now).2 ⟨first, second⟩, count]

theorem sample_of_forward (h : ch.last = some last) (edge : (last, now) ∈ forwardEdges) :
    ch.sample now =
      if ch.acc = 32767 then { ch with overrange := true, last := some now }
      else { ch with acc := ch.acc + 1, last := some now } := by
  rw [sample_of_last h, (classify_eq_forward_iff last now).2 edge, count]
  split <;> rfl

theorem sample_of_reverse (h : ch.last = some last) (edge : (now, last) ∈ forwardEdges) :
    ch.sample now =
      if ch.acc = -32767 then { ch with overrange := true, last := some now }
      else { ch with acc := ch.acc - 1, last := some now } := by
  rw [sample_of_last h, (classify_eq_reverse_iff last now).2 edge, count]
  split <;> rfl

theorem sample_acc_within (h : ch.last = some last) (low : -32767 ≤ ch.acc) (high : ch.acc ≤ 32767) :
    -32767 ≤ (ch.sample now).acc ∧ (ch.sample now).acc ≤ 32767 := by
  rw [sample_of_last h]
  exact count_acc_within (classify last now) low high

/-- R38: a window with QERR alone degrades a HEALTHY channel where it is the third in a row. -/
theorem judge_qerr_of_healthy (healthy : ch.health = .healthy) :
    ch.judge true false = if ch.qerrRun + 1 ≥ 3 then ch.degrade else { ch with qerrRun := ch.qerrRun + 1 } := by
  rw [judge, healthy]; rfl

theorem judge_qerr_health_of_short_run (healthy : ch.health = .healthy) (run : ch.qerrRun < 2) :
    (ch.judge true false).health = .healthy := by
  rw [judge_qerr_of_healthy healthy, if_neg (by omega)]
  exact healthy

theorem judge_qerr_health_of_long_run (healthy : ch.health = .healthy) (run : 2 ≤ ch.qerrRun) :
    (ch.judge true false).health = .degraded := by
  rw [judge_qerr_of_healthy healthy, if_pos (by omega)]
  rfl

end MeterChannel

/-! ## The command -/

theorem exec_pickupSample (a b : BitVec 26) (s : State) : exec (.pickupSample a b) s = .next (samplePickups a b s) := rfl

/-- R30: the sample takes every channel by its own level pair. -/
@[simp] theorem samplePickups_channel (a b : BitVec 26) (s : State) (c : ChannelNo) :
    (samplePickups a b s).channel c = (s.channel c).sample (pairAt a b c) :=
  pick_channelTable _ c

theorem samplePickups_frame (a b : BitVec 26) (s : State) :
    samplePickups a b s = { s with
      meter := { s.meter with channels := (samplePickups a b s).meter.channels }
      pins := { s.pins with pickA := a, pickB := b } } := rfl

/-- Settles O60: the channels are sampled one by one, and the classes of R30 say what each sample does to its channel. -/
theorem invalidTransitionSetsQerr : Obligations.InvalidTransitionSetsQerr := by
  unfold Obligations.InvalidTransitionSetsQerr
  intro s a b
  refine ⟨samplePickups a b s, exec_pickupSample a b s, fun c => ?channel,
    fun ch healthy => ⟨fun run => ?short, fun run => ?long⟩, samplePickups_frame a b s⟩
  case channel =>
    rw [samplePickups_channel]
    refine ⟨MeterChannel.sample_of_no_last, fun last taken => ⟨MeterChannel.sample_last taken, fun same => ?same,
      MeterChannel.sample_of_invalid taken, fun p edge => ⟨fun forward => ?forward, fun reverse => ?reverse⟩,
      MeterChannel.sample_acc_within taken⟩⟩
    case same => exact MeterChannel.sample_of_same (taken.trans (congrArg some same))
    case forward => exact MeterChannel.sample_of_forward taken (forward ▸ edge)
    case reverse => exact MeterChannel.sample_of_reverse taken (reverse ▸ edge)
  case short => exact MeterChannel.judge_qerr_health_of_short_run healthy (by omega)
  case long => exact MeterChannel.judge_qerr_health_of_long_run healthy (by omega)

end Sys2Proof.Machine
end

section
/-! SUPPORT. The sharing of a round: one step, a pass, a tier-0 step and the whole loop, each by what it gives and what it
keeps; and what a round whose floors fit publishes (R53 to R58). -/

namespace Sys2Proof.Machine

open Sys2Proof Sys2Proof.Safety

/-! ## Tables of the branches and their sums -/

@[simp] theorem pick_branchTable {α : Type} (f : BranchNo → α) (b : BranchNo) : Vec.pick (branchTable f) b = f b := by
  fin_cases b <;> rfl

theorem sumBranches_eq_sum (f : BranchNo → Nat) : sumBranches f = ∑ b, f b := by
  rw [← List.sum_ofFn]; rfl

theorem sumBranches_eq_zero {f : BranchNo → Nat} (h : ∀ b, f b = 0) : sumBranches f = 0 := by
  rw [sumBranches_eq_sum, Finset.sum_eq_zero fun b _ => h b]

theorem pick_put_add (v : Vector Nat 12) (b c : BranchNo) (n : Nat) :
    Vec.pick (Vec.put v b (Vec.pick v b + n)) c = Vec.pick v c + if b = c then n else 0 := by
  rw [Vec.pick_put]
  by_cases h : b = c
  · subst h; simp
  · simp [h]

/-- Adding to one entry of a table adds as much to its sum. -/
theorem sumBranches_pick_put (v : Vector Nat 12) (b : BranchNo) (n : Nat) :
    sumBranches (Vec.pick (Vec.put v b (Vec.pick v b + n))) = sumBranches (Vec.pick v) + n := by
  simp [sumBranches_eq_sum, pick_put_add, Finset.sum_add_distrib]

/-! ## One step -/

section
variable {s : State} {sh u v : Share} {tierOne : Bool} {b : BranchNo}

theorem unprotected_iff (s : State) (b : BranchNo) :
    unprotected s b = true ↔ ¬MetersGood s b ∧ (s.strip (trayStrip b)).state = .broken := by
  rw [unprotected, Bool.and_eq_true, decide_eq_true_iff]
  simp [supplyHealthy, returnHealthy, trayState, imp_iff_not_or]

theorem demand_eq_demandOf (s : State) (b : BranchNo) : demand s b = demandOf s b := by
  simp only [demand, unprotected_iff]

theorem inTier_iff : inTier s tierOne b = true ↔ (s.br b).dock = .admitted ∧ decide ((s.br b).tier ≠ 0) = tierOne := by
  simp [inTier, bne, beq_eq_decide]

theorem stepWanted_eq : stepWanted s tierOne sh b =
    if inTier s tierOne b = true then min s.params.quantum (unmet s sh b) else 0 := by
  simp only [stepWanted, inTier_iff, unmet, demand_eq_demandOf]

theorem wantsStep_iff_unmet : wantsStep s tierOne sh b = true ↔ inTier s tierOne b = true ∧ unmet s sh b ≠ 0 := by
  rw [wantsStep, Bool.and_eq_true, bne_iff_ne]

theorem stepWanted_of_wantsStep (h : wantsStep s tierOne sh b = true) :
    stepWanted s tierOne sh b = min s.params.quantum (unmet s sh b) := by
  rw [stepWanted_eq, if_pos (wantsStep_iff_unmet.1 h).1]

theorem admitted_of_wantsStep (h : wantsStep s tierOne sh b = true) : (s.br b).dock = .admitted :=
  (inTier_iff.1 (wantsStep_iff_unmet.1 h).1).1

/-- A step is wanted exactly where it would give something, while the Quantum is above 0. -/
theorem wantsStep_iff (hq : 0 < s.params.quantum) : wantsStep s tierOne sh b = true ↔ stepWanted s tierOne sh b ≠ 0 := by
  rw [wantsStep_iff_unmet, stepWanted_eq]
  by_cases tier : inTier s tierOne b = true
  · rw [if_pos tier, and_iff_right tier]; omega
  · rw [if_neg tier]; simp [tier]

/-- What a branch wants hangs on its own grant alone. -/
theorem stepWanted_congr (h : Vec.pick u.given b = Vec.pick sh.given b) :
    stepWanted s tierOne u b = stepWanted s tierOne sh b := by
  simp only [stepWanted, h]

/-- The sharing with `n` moved from what is left to branch `b`. -/
def Share.give (sh : Share) (b : BranchNo) (n : Nat) : Share :=
  { sh with given := Vec.put sh.given b (Vec.pick sh.given b + n), rm := sh.rm - n, last := some b }

theorem Share.give_given (sh : Share) (b c : BranchNo) (n : Nat) :
    Vec.pick (sh.give b n).given c = Vec.pick sh.given c + if b = c then n else 0 :=
  pick_put_add sh.given b c n

theorem giveStep_eq_give (h : wantsStep s tierOne sh b = true) :
    giveStep s sh b = sh.give b (min (stepWanted s tierOne sh b) sh.rm) := by
  rw [stepWanted_of_wantsStep h, min_assoc]; rfl

/-- What sharing does to a sharing: flow moves from what is left into grants of ADMITTED branches below their demand, and
the last branch given a step is ADMITTED. -/
structure Grown (s : State) (sh u : Share) : Prop where
  total : sumBranches (Vec.pick u.given) + u.rm = sumBranches (Vec.pick sh.given) + sh.rm
  given_le : ∀ b, Vec.pick sh.given b ≤ Vec.pick u.given b
  within : ∀ b, Vec.pick u.given b = Vec.pick sh.given b ∨
    Vec.pick u.given b ≤ demandOf s b ∧ (s.br b).dock = .admitted
  last : u.last = sh.last ∨ ∃ b, u.last = some b ∧ (s.br b).dock = .admitted

theorem Grown.refl (s : State) (sh : Share) : Grown s sh sh :=
  ⟨rfl, fun _ => le_rfl, fun _ => .inl rfl, .inl rfl⟩

theorem Grown.trans (first : Grown s sh u) (second : Grown s u v) : Grown s sh v where
  total := second.total.trans first.total
  given_le b := (first.given_le b).trans (second.given_le b)
  within b := by
    rcases second.within b with same | bound
    · rw [same]; exact first.within b
    · exact .inr bound
  last := by
    rcases second.last with same | moved
    · rw [same]; exact first.last
    · exact .inr moved

theorem Grown.rm_le (h : Grown s sh u) : u.rm ≤ sh.rm := by
  have sums : sumBranches (Vec.pick sh.given) ≤ sumBranches (Vec.pick u.given) := by
    simp only [sumBranches_eq_sum]
    exact Finset.sum_le_sum fun b _ => h.given_le b
  have := h.total
  omega

/-- R56: a step gives no more than is left and than the branch's unmet demand. -/
theorem grown_giveStep (h : wantsStep s tierOne sh b = true) (last1 last0 : Option BranchNo) (cursor : BranchNo) :
    Grown s sh { giveStep s sh b with last1 := last1, last0 := last0, cursor := cursor } := by
  have n_le_rm : min (stepWanted s tierOne sh b) sh.rm ≤ sh.rm := min_le_right _ _
  have n_le_unmet : min (stepWanted s tierOne sh b) sh.rm ≤ demand s b - Vec.pick sh.given b := by
    rw [stepWanted_of_wantsStep h]
    exact (min_le_left _ _).trans (min_le_right _ _)
  have unmet_pos : demand s b - Vec.pick sh.given b ≠ 0 := (wantsStep_iff_unmet.1 h).2
  rw [giveStep_eq_give h]
  generalize min (stepWanted s tierOne sh b) sh.rm = n at *
  refine ⟨?total, fun c => ?given_le, fun c => ?within, .inr ⟨b, rfl, admitted_of_wantsStep h⟩⟩
  case total =>
    have moved : sumBranches (Vec.pick (sh.give b n).given) = sumBranches (Vec.pick sh.given) + n :=
      sumBranches_pick_put sh.given b n
    change sumBranches (Vec.pick (sh.give b n).given) + (sh.rm - n) = _
    rw [moved]
    omega
  case given_le => exact (Nat.le_add_right _ _).trans (sh.give_given b c n).ge
  case within =>
    simp only [Share.give_given, ← demand_eq_demandOf]
    by_cases same : b = c
    · subst same
      exact .inr ⟨by rw [if_pos rfl]; omega, admitted_of_wantsStep h⟩
    · exact .inl (by rw [if_neg same, add_zero])

/-! ## A pass (R56, 1) -/

theorem grown_passVisit (s : State) (sh : Share) (b : BranchNo) : Grown s sh (passVisit s sh b) := by
  unfold passVisit
  split
  case isTrue served => exact grown_giveStep (Bool.and_eq_true_iff.1 served).2 (some b) sh.last0 sh.cursor
  case isFalse => exact Grown.refl s sh

theorem grown_pass (s : State) (sh : Share) : Grown s sh (pass s sh) := by
  unfold pass
  generalize branchesFrom s.alloc.p1 = bs
  induction bs generalizing sh with
  | nil => exact Grown.refl s sh
  | cons b bs ih => exact (grown_passVisit s sh b).trans (ih _)

theorem passVisit_idle (hq : 0 < s.params.quantum) (h : sh.rm = 0 ∨ stepWanted s true sh b = 0) :
    passVisit s sh b = sh := by
  refine if_neg ?_
  rw [Bool.and_eq_true, bne_iff_ne, wantsStep_iff hq]
  exact fun ⟨left, wanted⟩ => h.elim left wanted

theorem passVisit_gives (hq : 0 < s.params.quantum) (left : sh.rm ≠ 0) (wanted : stepWanted s true sh b ≠ 0) :
    passVisit s sh b = { sh.give b (min (stepWanted s true sh b) sh.rm) with last1 := some b } := by
  have wants := (wantsStep_iff hq).2 wanted
  rw [passVisit, if_pos (by simp [left, wants]), giveStep_eq_give wants]

/-- A visit gives its branch the lesser of what it wants and what is left, and touches nothing else but the memory of
the last branch served. -/
theorem passVisit_frame (hq : 0 < s.params.quantum) (sh : Share) (b : BranchNo) :
    (∀ c, Vec.pick (passVisit s sh b).given c =
      Vec.pick sh.given c + if b = c then min (stepWanted s true sh b) sh.rm else 0) ∧
    (passVisit s sh b).rm = sh.rm - stepWanted s true sh b ∧ (passVisit s sh b).cursor = sh.cursor ∧
    (passVisit s sh b).last0 = sh.last0 := by
  by_cases idle : sh.rm = 0 ∨ stepWanted s true sh b = 0
  · rw [passVisit_idle hq idle]
    refine ⟨fun c => ?_, by omega, rfl, rfl⟩
    split <;> omega
  · obtain ⟨left, wanted⟩ := not_or.1 idle
    rw [passVisit_gives hq left wanted]
    refine ⟨fun c => sh.give_given b c _, ?_, rfl, rfl⟩
    simp only [Share.give]
    omega

/-- The first `n` visits of a pass. -/
def passVisits (s : State) (sh : Share) (n : Nat) : Share :=
  ((List.range n).map fun j => s.alloc.p1 + Fin.ofNat 12 j).foldl (passVisit s) sh

theorem pass_eq_passVisits (s : State) (sh : Share) : pass s sh = passVisits s sh 12 := rfl

theorem passVisits_succ (s : State) (sh : Share) (n : Nat) :
    passVisits s sh (n + 1) = passVisit s (passVisits s sh n) (s.alloc.p1 + Fin.ofNat 12 n) := by
  simp [passVisits, List.range_succ]

theorem wantedBefore_succ (s : State) (sh : Share) (n : Nat) :
    wantedBefore s sh (n + 1) = wantedBefore s sh n + stepWanted s true sh (s.alloc.p1 + Fin.ofNat 12 n) := by
  simp [wantedBefore, List.range_succ]

theorem ofNat_eq_iff {n : Nat} (hn : n < 12) (k : BranchNo) : Fin.ofNat 12 n = k ↔ k.val = n := by
  rw [Fin.ext_iff, Fin.val_ofNat, Nat.mod_eq_of_lt hn, eq_comm]

theorem passVisits_given_unvisited (hq : 0 < s.params.quantum) (sh : Share) (k : BranchNo) {n : Nat} (hn : n ≤ k.val) :
    Vec.pick (passVisits s sh n).given (s.alloc.p1 + k) = Vec.pick sh.given (s.alloc.p1 + k) := by
  induction n with
  | zero => rfl
  | succ n ih =>
    have elsewhere : s.alloc.p1 + Fin.ofNat 12 n ≠ s.alloc.p1 + k := by
      rw [Ne, add_right_inj, ofNat_eq_iff (by omega)]; omega
    rw [passVisits_succ, (passVisit_frame hq _ _).1, if_neg elsewhere, add_zero, ih (by omega)]

/-- At its own visit a branch wants what it wanted before the pass. -/
theorem stepWanted_passVisits (hq : 0 < s.params.quantum) (sh : Share) {n : Nat} (hn : n < 12) :
    stepWanted s true (passVisits s sh n) (s.alloc.p1 + Fin.ofNat 12 n) =
      stepWanted s true sh (s.alloc.p1 + Fin.ofNat 12 n) :=
  stepWanted_congr (passVisits_given_unvisited hq sh _ ((ofNat_eq_iff hn _).1 rfl).ge)

/-- After `n` visits of a pass the first `n` branches have been served in turn, as far as the flow reached. -/
theorem passVisits_frame (hq : 0 < s.params.quantum) (sh : Share) {n : Nat} (hn : n ≤ 12) :
    (∀ k : BranchNo, k.val < n → Vec.pick (passVisits s sh n).given (s.alloc.p1 + k) =
      Vec.pick sh.given (s.alloc.p1 + k) +
        min (stepWanted s true sh (s.alloc.p1 + k)) (sh.rm - wantedBefore s sh k.val)) ∧
    (passVisits s sh n).rm = sh.rm - wantedBefore s sh n ∧ (passVisits s sh n).cursor = sh.cursor ∧
    (passVisits s sh n).last0 = sh.last0 := by
  induction n with
  | zero => exact ⟨fun k h => absurd h (Nat.not_lt_zero _), rfl, rfl, rfl⟩
  | succ n ih =>
    obtain ⟨given, rm, cursor, last0⟩ := ih (by omega)
    obtain ⟨visited, left, sameCursor, sameLast0⟩ :=
      passVisit_frame hq (passVisits s sh n) (s.alloc.p1 + Fin.ofNat 12 n)
    rw [stepWanted_passVisits hq sh hn, rm] at visited left
    rw [passVisits_succ]
    refine ⟨fun k hk => ?given, ?rm, sameCursor.trans cursor, sameLast0.trans last0⟩
    case given =>
      rw [visited]
      by_cases here : k.val = n
      · obtain rfl := (ofNat_eq_iff hn k).2 here
        rw [if_pos rfl, passVisits_given_unvisited hq sh _ here.ge, here]
      · have elsewhere : s.alloc.p1 + Fin.ofNat 12 n ≠ s.alloc.p1 + k := by
          rw [Ne, add_right_inj, ofNat_eq_iff hn]; exact here
        rw [if_neg elsewhere, add_zero, given k (by omega)]
    case rm => rw [left, wantedBefore_succ]; omega

/-- The last branch that the flow reached and that wanted a step is the last branch served. -/
theorem passVisits_last (hq : 0 < s.params.quantum) (sh : Share) (k : BranchNo)
    (wanted : stepWanted s true sh (s.alloc.p1 + k) ≠ 0) (reached : wantedBefore s sh k.val < sh.rm) {n : Nat}
    (hk : k.val < n) (hn : n ≤ 12)
    (after : ∀ j : BranchNo, k < j → j.val < n →
      stepWanted s true sh (s.alloc.p1 + j) = 0 ∨ sh.rm ≤ wantedBefore s sh j.val) :
    (passVisits s sh n).last1 = some (s.alloc.p1 + k) ∧ (passVisits s sh n).last = some (s.alloc.p1 + k) := by
  induction n with
  | zero => exact absurd hk (Nat.not_lt_zero _)
  | succ n ih =>
    have left : (passVisits s sh n).rm = sh.rm - wantedBefore s sh n := (passVisits_frame hq sh (by omega)).2.1
    have wants := stepWanted_passVisits hq sh hn
    rw [passVisits_succ]
    by_cases here : k.val = n
    · obtain rfl := (ofNat_eq_iff hn k).2 here
      rw [here] at reached
      rw [passVisit_gives hq (by omega) (by rwa [wants])]
      exact ⟨rfl, rfl⟩
    · have index := (ofNat_eq_iff hn _).1 rfl
      have passed := after (Fin.ofNat 12 n) (Fin.lt_def.2 (by omega)) (by omega)
      rw [index] at passed
      rw [passVisit_idle hq (by omega)]
      exact ih (by omega) (by omega) fun j kj jn => after j kj (by omega)

theorem pass_idle (hq : 0 < s.params.quantum) (h : sh.rm = 0 ∨ ∀ b, stepWanted s true sh b = 0) : pass s sh = sh := by
  unfold pass
  generalize branchesFrom s.alloc.p1 = bs
  induction bs with
  | nil => rfl
  | cons b bs ih => rw [List.foldl_cons, passVisit_idle hq (h.imp_right (· b)), ih]

theorem passShares (hq : 0 < s.params.quantum) (sh : Share) : PassShares s sh (pass s sh) := by
  obtain ⟨given, rm, cursor, last0⟩ := passVisits_frame hq sh (le_refl 12)
  have last := passVisits_last hq sh (n := 12)
  rw [← pass_eq_passVisits] at given rm cursor last0 last
  exact ⟨fun k => given k k.isLt, rm, cursor, last0,
    fun k wanted reached after => last k wanted reached k.isLt le_rfl fun j kj _ => after j kj, pass_idle hq⟩

/-! ## A tier-0 step (R56, 2) -/

theorem getElem_branchesFrom (p : BranchNo) {i : Nat} (h : i < (branchesFrom p).length) :
    (branchesFrom p)[i] = p + ⟨i, h⟩ := by
  have nth : ∀ k : BranchNo, allBranches[k.val]'k.isLt = k := by decide
  simp only [branchesFrom, List.getElem_map]
  exact congrArg (p + ·) (nth ⟨i, h⟩)

theorem find?_branchesFrom {f : BranchNo → Bool} {p k : BranchNo} (hit : f (p + k) = true)
    (first : ∀ j, j < k → f (p + j) = false) : (branchesFrom p).find? f = some (p + k) := by
  refine List.find?_eq_some_iff_getElem.2 ⟨hit, k.val, k.isLt, getElem_branchesFrom p _, fun j hj => ?_⟩
  rw [getElem_branchesFrom, first ⟨j, hj.trans k.isLt⟩ hj, Bool.not_false]

theorem grown_tierZeroStep (s : State) (sh : Share) : Grown s sh (tierZeroStep s sh) := by
  unfold tierZeroStep
  split
  next => exact Grown.refl s sh
  next b found =>
    split
    · exact Grown.refl s sh
    · exact grown_giveStep (List.find?_some found) sh.last1 (some b) (b + 1)

theorem tierZeroStep_idle (hq : 0 < s.params.quantum) (h : sh.rm = 0 ∨ ∀ b, stepWanted s false sh b = 0) :
    tierZeroStep s sh = sh := by
  unfold tierZeroStep
  split
  next => rfl
  next b found =>
    have wanted := (wantsStep_iff hq).1 (List.find?_some found)
    exact if_pos (h.resolve_right fun idle => wanted (idle b))

theorem tierZeroStep_gives (hq : 0 < s.params.quantum) (k : BranchNo) (left : sh.rm ≠ 0)
    (wanted : stepWanted s false sh (sh.cursor + k) ≠ 0)
    (first : ∀ j, j < k → stepWanted s false sh (sh.cursor + j) = 0) :
    tierZeroStep s sh =
      { sh.give (sh.cursor + k) (min (stepWanted s false sh (sh.cursor + k)) sh.rm) with
        last0 := some (sh.cursor + k), cursor := sh.cursor + k + 1 } := by
  have wants := (wantsStep_iff hq).2 wanted
  have found := find?_branchesFrom wants fun j hj =>
    Bool.eq_false_iff.2 fun earlier => (wantsStep_iff hq).1 earlier (first j hj)
  simp only [tierZeroStep, found, if_neg left, giveStep_eq_give wants]

theorem tierZeroShares (hq : 0 < s.params.quantum) (sh : Share) : TierZeroShares s sh (tierZeroStep s sh) :=
  ⟨tierZeroStep_gives hq, tierZeroStep_idle hq⟩

/-! ## The whole sharing (R56) -/

theorem grown_shareLoop (s : State) (n : Nat) (sh : Share) : Grown s sh (shareLoop s n sh) := by
  induction n generalizing sh with
  | zero => exact Grown.refl s sh
  | succ n ih =>
    unfold shareLoop
    split
    · exact Grown.refl s sh
    · exact ((grown_pass s sh).trans (grown_tierZeroStep s _)).trans (ih _)

theorem sharingStops_iff (hq : 0 < s.params.quantum) :
    (decide (sh.rm = 0) || !anyUnmet s sh) = true ↔ SharingStops s sh := by
  have met : anyUnmet s sh = false ↔ ∀ b, stepWanted s true sh b = 0 ∧ stepWanted s false sh b = 0 := by
    simp only [anyUnmet, List.any_eq_false, Bool.or_eq_true, wantsStep_iff hq, mem_allBranches, true_imp_iff,
      not_or, not_not]
  rw [Bool.or_eq_true, decide_eq_true_iff, Bool.not_eq_true', met]

theorem shareLoop_of_stops (hq : 0 < s.params.quantum) (stops : SharingStops s sh) (n : Nat) : shareLoop s n sh = sh := by
  cases n with
  | zero => rfl
  | succ n => exact if_pos ((sharingStops_iff hq).2 stops)

theorem shareLoop_succ (hq : 0 < s.params.quantum) (goes : ¬SharingStops s sh) (n : Nat) :
    shareLoop s (n + 1) sh = shareLoop s n (tierZeroStep s (pass s sh)) :=
  if_neg fun stops => goes ((sharingStops_iff hq).1 stops)

theorem stepWanted_eq_zero_of_wantedBefore (h : wantedBefore s sh 12 = 0) (b : BranchNo) :
    stepWanted s true sh b = 0 := by
  have all := List.sum_eq_zero_iff.1 h
  refine all _ (List.mem_map.2 ⟨(b - s.alloc.p1).val, List.mem_range.2 (Fin.isLt _), ?_⟩)
  rw [(ofNat_eq_iff (Fin.isLt _) (b - s.alloc.p1)).2 rfl, add_sub_cancel]

/-- A tier-0 step that is wanted uses flow. -/
theorem tierZeroStep_rm_lt (hq : 0 < s.params.quantum) (left : sh.rm ≠ 0) (wanted : ∃ b, stepWanted s false sh b ≠ 0) :
    (tierZeroStep s sh).rm < sh.rm := by
  have offset : ∃ k, stepWanted s false sh (sh.cursor + k) ≠ 0 := by
    obtain ⟨b, hb⟩ := wanted
    exact ⟨b - sh.cursor, by rwa [add_sub_cancel]⟩
  obtain ⟨k, hk, least⟩ := WellFounded.has_min (wellFounded_lt (α := BranchNo)) _ offset
  rw [tierZeroStep_gives hq k left hk fun j hj => not_not.1 fun earlier => least j earlier hj]
  have positive : stepWanted s false sh (sh.cursor + k) ≠ 0 := hk
  simp only [Share.give]
  omega

/-- Each turn of the sharing uses flow. -/
theorem turn_rm_lt (hq : 0 < s.params.quantum) (goes : ¬SharingStops s sh) :
    (tierZeroStep s (pass s sh)).rm < sh.rm := by
  obtain ⟨left, wanted⟩ := not_or.1 goes
  by_cases tierOne : ∀ b, stepWanted s true sh b = 0
  · rw [pass_idle hq (.inr tierOne)]
    exact tierZeroStep_rm_lt hq left (not_forall.1 fun tierZero => wanted fun b => ⟨tierOne b, tierZero b⟩)
  · have used : wantedBefore s sh 12 ≠ 0 := fun unused => tierOne (stepWanted_eq_zero_of_wantedBefore unused)
    calc (tierZeroStep s (pass s sh)).rm ≤ (pass s sh).rm := (grown_tierZeroStep s _).rm_le
      _ = sh.rm - wantedBefore s sh 12 := (passShares hq sh).2.1
      _ < sh.rm := by omega

/-- Rm turns are enough: with more of them the sharing ends in the same place. -/
theorem shareLoop_fuel (hq : 0 < s.params.quantum) {m n : Nat} (hm : sh.rm ≤ m) (hn : sh.rm ≤ n) :
    shareLoop s m sh = shareLoop s n sh := by
  induction m generalizing n sh with
  | zero => rw [shareLoop_of_stops hq (.inl (Nat.le_zero.1 hm)), shareLoop_of_stops hq (.inl (Nat.le_zero.1 hm))]
  | succ m ih =>
    by_cases stops : SharingStops s sh
    · rw [shareLoop_of_stops hq stops, shareLoop_of_stops hq stops]
    · have turn := turn_rm_lt hq stops
      obtain ⟨n, rfl⟩ := Nat.exists_eq_succ_of_ne_zero (by omega : n ≠ 0)
      rw [shareLoop_succ hq stops, shareLoop_succ hq stops]
      exact ih (by omega) (by omega)

theorem shareLoop_stops (hq : 0 < s.params.quantum) {n : Nat} (hn : sh.rm ≤ n) : SharingStops s (shareLoop s n sh) := by
  induction n generalizing sh with
  | zero => exact .inl (Nat.le_zero.1 hn)
  | succ n ih =>
    by_cases stops : SharingStops s sh
    · rwa [shareLoop_of_stops hq stops]
    · have turn := turn_rm_lt hq stops
      rw [shareLoop_succ hq stops]
      exact ih (by omega)

/-- A sharing that goes on takes one turn and then goes on from there. -/
theorem shareLoop_turn (hq : 0 < s.params.quantum) (goes : ¬SharingStops s sh) :
    shareLoop s sh.rm sh =
      shareLoop s (tierZeroStep s (pass s sh)).rm (tierZeroStep s (pass s sh)) := by
  rw [shareLoop_fuel hq le_rfl (Nat.le_succ sh.rm), shareLoop_succ hq goes]
  exact shareLoop_fuel hq (turn_rm_lt hq goes).le le_rfl

theorem sharesByTier (hq : 0 < s.params.quantum) (sh : Share) : SharesByTier s sh := by
  have grown := grown_shareLoop s sh.rm sh
  exact ⟨passShares hq sh, tierZeroShares hq (sh := sh), fun stops => shareLoop_of_stops hq stops sh.rm,
    fun goes => ⟨turn_rm_lt hq goes, shareLoop_turn hq goes⟩, shareLoop_stops hq le_rfl, grown.total,
    fun b => ⟨grown.given_le b, grown.within b⟩⟩

end

/-! ## The round (R54, R57, R58, R60) -/

/-- The plan of the round of a state. -/
def roundPlan (s : State) : RoundPlan := planRound s s.alloc.pendingBudget

theorem runRound_br (s : State) (b : BranchNo) :
    (runRound s).br b =
      if (s.br b).dock.participating then { s.br b with grant := Vec.pick (roundPlan s).given b }.redrive
      else s.br b := by
  have published : (runRound s).branches = (publishGrants (roundPlan s).given s).branches := by
    simp only [runRound, raiseDemandChanged_branches]
    rw [forBranches_keeps (fun s : State => s.branches)]
    · split <;> simp [roundPlan]
    · intro b u
      split <;> simp
  rw [State.br, published, publishGrants, pick_branchTable]

theorem runRound_alloc (s : State) :
    ∃ sumGrants, (runRound s).alloc = recordRound s s.alloc.pendingBudget (roundPlan s) sumGrants s.alloc := by
  refine ⟨grantSum (publishGrants (roundPlan s).given s), ?_⟩
  simp only [runRound, raiseDemandChanged_alloc]
  rw [forBranches_keeps (fun s : State => s.alloc)]
  · split <;> simp [roundPlan, recordRound]
  · intro b u
    split <;> simp

theorem runRound_grant {s : State} {b : BranchNo} (h : (s.br b).dock.participating = true) :
    ((runRound s).br b).grant = Vec.pick (roundPlan s).given b := by
  rw [runRound_br, if_pos h, Branch.redrive_grant]

/-- R58: the residue is offered to an ADMITTED branch alone. -/
theorem admitted_of_parkTarget {s : State} {sh : Share} {b : BranchNo}
    (last : ∀ c, sh.last = some c → (s.br c).dock = .admitted) (h : parkTarget s sh = some b) :
    (s.br b).dock = .admitted := by
  unfold parkTarget at h
  split at h
  next => cases h
  next => exact last b h
  next =>
    split at h
    · cases h; assumption
    · cases h

theorem pick_parkedGrants (s : State) (sh : Share) (amount : Nat) (b : BranchNo) :
    Vec.pick (parkedGrants s sh amount) b =
      Vec.pick sh.given b + if parkTarget s sh = some b then amount else 0 := by
  unfold parkedGrants
  split
  next unparked => simp [unparked]
  next c target => simp only [pick_put_add, target, Option.some.injEq]

/-- The sharing that the round of a state starts from. -/
def roundStart (s : State) : Share :=
  let p0 := s.alloc.pendingBudget - s.params.bypassMinimum
  shareStart s p0 (p0 - adoptingSum s)

/-- The sharing that the round of a state ends with. -/
def roundShared (s : State) : Share := shareLoop s (roundStart s).rm (roundStart s)

theorem grown_round (s : State) : Grown s (roundStart s) (roundShared s) := grown_shareLoop s _ _

/-- R58: the parked residue goes to an ADMITTED branch alone. -/
theorem roundPlan_given (s : State) (b : BranchNo) :
    Vec.pick (roundShared s).given b ≤ Vec.pick (roundPlan s).given b ∧
      ((s.br b).dock ≠ .admitted → Vec.pick (roundPlan s).given b = Vec.pick (roundShared s).given b) := by
  have last : ∀ c, (roundShared s).last = some c → (s.br c).dock = .admitted := by
    intro c served
    rcases (grown_round s).last with unmoved | ⟨d, final, admitted⟩
    · exact absurd (unmoved.symm.trans served) (by simp [roundStart, shareStart])
    · cases final.symm.trans served; exact admitted
  obtain ⟨amount, parked⟩ : ∃ amount, (roundPlan s).given = parkedGrants s (roundShared s) amount := by
    simp only [roundPlan, planRound, afterReserve, roundShared, roundStart]
    exact ⟨_, rfl⟩
  rw [parked, pick_parkedGrants]
  refine ⟨Nat.le_add_right _ _, fun other => ?_⟩
  rw [if_neg fun target => other (admitted_of_parkTarget last target), add_zero]

/-- R57: after the round each tier pointer stands after the last branch of its tier that was given a step. -/
theorem runRound_pointers (s : State) :
    (runRound s).alloc.p1 = pointerAfter s.alloc.p1 (roundShared s).last1 ∧
      (runRound s).alloc.p0 = pointerAfter s.alloc.p0 (roundShared s).last0 := by
  obtain ⟨_, alloc⟩ := runRound_alloc s
  simp only [alloc, recordRound, roundPlan, planRound, afterReserve, roundShared, roundStart, and_self]

theorem runRound_short (s : State) :
    (runRound s).alloc.shortfall = (roundPlan s).short ∧ (runRound s).alloc.round.short = (roundPlan s).short := by
  obtain ⟨_, alloc⟩ := runRound_alloc s
  simp only [alloc, recordRound, and_self]

section
variable {s : State} (fit : floorSum s ≤ s.alloc.pendingBudget - s.params.bypassMinimum - adoptingSum s)
include fit

theorem roundStart_rm_of_fit :
    (roundStart s).rm = s.alloc.pendingBudget - s.params.bypassMinimum - adoptingSum s - floorSum s := by
  rw [roundStart, shareStart, if_pos fit]

/-- R54: where the floors fit, a PRIMING or ADMITTED participant starts at its floor. -/
theorem roundStart_given_of_fit {b : BranchNo} (h : (s.br b).dock = .priming ∨ (s.br b).dock = .admitted) :
    Vec.pick (roundStart s).given b = roundFloor s b := by
  have notAdopting : (s.br b).dock ≠ .adopting := by rcases h with h | h <;> rw [h] <;> decide
  simp only [roundStart, shareStart, pick_branchTable, adoptedGrant, if_neg notAdopting, givenFloor, if_pos fit, zero_add]

theorem roundPlan_short_of_fit : (roundPlan s).short = false := by
  simp only [roundPlan, planRound, Bool.not_eq_false', decide_eq_true_iff]
  exact fit

theorem runRound_grant_of_priming {b : BranchNo} (h : (s.br b).dock = .priming) :
    ((runRound s).br b).grant = roundFloor s b := by
  have notAdmitted : (s.br b).dock ≠ .admitted := by rw [h]; decide
  rw [runRound_grant (by rw [h]; rfl), (roundPlan_given s b).2 notAdmitted, ← roundStart_given_of_fit fit (.inl h)]
  exact ((grown_round s).within b).resolve_right fun moved => notAdmitted moved.2

theorem floor_le_runRound_grant_of_admitted {b : BranchNo} (h : (s.br b).dock = .admitted) :
    roundFloor s b ≤ ((runRound s).br b).grant := by
  rw [runRound_grant (by rw [h]; rfl), ← roundStart_given_of_fit fit (.inr h)]
  exact ((grown_round s).given_le b).trans (roundPlan_given s b).1

end

theorem roundFloor_of_priming {s : State} {b : BranchNo} (h : (s.br b).dock = .priming) :
    roundFloor s b = min s.params.primeFlow (s.br b).cap := by
  rw [roundFloor, h]

theorem roundFloor_of_admitted {s : State} {b : BranchNo} (h : (s.br b).dock = .admitted) :
    roundFloor s b = (s.br b).floor := by
  rw [roundFloor, h]

theorem roundFloor_of_neither {s : State} {b : BranchNo} (priming : (s.br b).dock ≠ .priming)
    (admitted : (s.br b).dock ≠ .admitted) : roundFloor s b = 0 := by
  unfold roundFloor; split <;> trivial

/-- Settles O20: where the floors fit the sharing starts at the floors, and every step and the parked residue only add to
grants of ADMITTED branches; the sharing itself is the pass, the tier-0 step and the loop taken together. -/
theorem roundGivesEveryFloorWhenTheyFit : Obligations.RoundGivesEveryFloorWhenTheyFit := by
  unfold Obligations.RoundGivesEveryFloorWhenTheyFit
  intro s sh
  refine ⟨fun fit => ?_, fun hq => sharesByTier hq sh⟩
  refine ⟨⟨roundStart_rm_of_fit fit, fun b => roundStart_given_of_fit fit, ?p1, ?p0⟩, ?shortfall, ?short, fun absent => ?absent,
    fun b => ⟨fun priming => ?priming, fun admitted => ?admitted⟩⟩
  case p1 =>
    refine (runRound_pointers s).1.trans ?_
    split <;> exact congrArg (pointerAfter s.alloc.p1) ‹_›
  case p0 =>
    refine (runRound_pointers s).2.trans ?_
    split <;> exact congrArg (pointerAfter s.alloc.p0) ‹_›
  case shortfall => exact (runRound_short s).1.trans (roundPlan_short_of_fit fit)
  case short => exact (runRound_short s).2.trans (roundPlan_short_of_fit fit)
  case absent => exact sumBranches_eq_zero fun b => roundFloor_of_neither (absent b).1 (absent b).2
  case priming => exact (runRound_grant_of_priming fit priming).trans (roundFloor_of_priming priming)
  case admitted => exact (roundFloor_of_admitted admitted).ge.trans (floor_le_runRound_grant_of_admitted fit admitted)

end Sys2Proof.Machine
end

section
/-! SUPPORT. The rail inlet valve: which operations and commands leave the rail state and the commanded duty of channel 12
alone, and that every one that moves the rail moves the duty with it (R82; R76, R77 for the output). -/

namespace Sys2Proof.Machine

open Sys2Proof Sys2Proof.Safety

section

variable {s t : State}

/-! ## What R82 speaks of -/

/-- The rail state and the commanded duty of channel 12. -/
def railDrive (s : State) : RailState × Nat := (s.rail.state, s.valves.railCommanded)

/-- The law says that the second half of `railDrive` is the duty of R82 for the first. -/
theorem railDutyLaw_iff (s : State) : RailDutyLaw s ↔ (railDrive s).2 = railDuty (railDrive s).1 := by
  unfold RailDutyLaw railDrive
  cases s.rail.state <;> simp [railDuty]

theorem railDutyLaw_of_railDrive_eq (same : railDrive t = railDrive s) (h : RailDutyLaw s) : RailDutyLaw t := by
  rw [railDutyLaw_iff] at h ⊢
  rwa [same]

/-! ## Causes and contacts of a branch: the rail record stays -/

@[simp] theorem addCauseCore_rail (b : BranchNo) (c : BranchCause) (x : Bool) (s : State) :
    (addCauseCore b c x s).rail = s.rail :=
  (addCauseCore_kept b c x s).1

@[simp] theorem leftVacant_rail (b : BranchNo) (s : State) : (leftVacant b s).rail = s.rail := by
  unfold leftVacant
  split <;> simp

@[simp] theorem addBranchCause_rail (b : BranchNo) (c : BranchCause) (x : Bool) (s : State) :
    (addBranchCause b c x s).rail = s.rail := by
  unfold addBranchCause
  dsimp only
  split <;> simp

@[simp] theorem addRailToOccupied_rail (s : State) : (addRailToOccupied s).rail = s.rail :=
  forBranches_keeps State.rail _ (fun b s => by split <;> simp) s

@[simp] theorem contactOpened_rail (b : BranchNo) (s : State) : (contactOpened b s).rail = s.rail := by
  unfold contactOpened
  split <;> simp

@[simp] theorem foldl_addBranchCause_rail {α : Type} (b : α → BranchNo) (c : α → BranchCause) (xs : List α) (s : State) :
    (xs.foldl (fun s x => addBranchCause (b x) (c x) false s) s).rail = s.rail := by
  induction xs generalizing s with
  | nil => rfl
  | cons x xs ih => rw [List.foldl_cons, ih, addBranchCause_rail]

@[simp] theorem foldl_addBranchCause_valves {α : Type} (b : α → BranchNo) (c : α → BranchCause) (xs : List α)
    (s : State) : (xs.foldl (fun s x => addBranchCause (b x) (c x) false s) s).valves = s.valves := by
  induction xs generalizing s with
  | nil => rfl
  | cons x xs ih => rw [List.foldl_cons, ih, addBranchCause_valves]

/-! ## Incidents and the round: the rail state and the duty stay -/

@[simp] theorem ringAdd_rail_state (t : Target) (c : Cause) (x : Bool) (s : State) :
    (ringAdd t c x s).rail.state = s.rail.state := by
  rw [(ringAdd_same t c x s).rail]

@[simp] theorem runRound_railCommanded (s : State) : (runRound s).valves.railCommanded = s.valves.railCommanded := by
  simp only [runRound, raiseDemandChanged_valves]
  rw [forBranches_keeps State.valves]
  · split
    · rw [raiseShortfall_valves]; rfl
    · rfl
  · intro b u
    split <;> simp

@[simp] theorem closeAllocator_railCommanded (s : State) :
    (closeAllocator s).valves.railCommanded = s.valves.railCommanded := by
  unfold closeAllocator
  rw [runRound_railCommanded, forBranches_keeps State.valves takeUpCheck fun b s => by simp]

/-! ## The rail moves: the duty moves with it -/

theorem enterClosing_railDutyLaw (s : State) : RailDutyLaw (enterClosing s) := by
  simp [RailDutyLaw, enterClosing]

theorem enterOpening_railDutyLaw (s : State) : RailDutyLaw (enterOpening s) := by
  simp [RailDutyLaw, enterOpening]

theorem railRespond_railDutyLaw (h : RailDutyLaw s) : RailDutyLaw (railRespond s) := by
  unfold railRespond
  split
  · exact railDutyLaw_of_railDrive_eq (by simp [railDrive]) (enterClosing_railDutyLaw s)
  · exact enterClosing_railDutyLaw s
  · exact h
  · exact h

/-- R130: whatever the cause, only the rail's response reaches the rail state and the duty. -/
theorem addRailCause_railDutyLaw (c : RailCause) (h : RailDutyLaw s) : RailDutyLaw (addRailCause c s) := by
  have responded : RailDutyLaw (railRespond (s.updRail fun r => { r with causes := r.causes ++ [c] })) :=
    railRespond_railDutyLaw h
  unfold addRailCause
  split
  · exact h
  · dsimp only
    split <;> exact railDutyLaw_of_railDrive_eq (by simp [railDrive]) responded

/-- R132: the last cause removed from a CLOSED rail takes it to OPENING; any other removal leaves state and duty. -/
theorem removeRailCause_railDutyLaw (c : RailCause) (h : RailDutyLaw s) : RailDutyLaw (removeRailCause c s) := by
  unfold removeRailCause
  split
  · dsimp only
    split
    · exact enterOpening_railDutyLaw _
    · exact h
  · exact h

/-- R132: from CLOSING the duty is 0 already. -/
theorem enterClosed_railDutyLaw (closing : s.rail.state = .closing) (h : RailDutyLaw s) :
    RailDutyLaw (enterClosed s) := by
  have shut : s.valves.railCommanded = 0 := by simpa [RailDutyLaw, closing] using h
  unfold enterClosed
  dsimp only
  split
  · exact enterOpening_railDutyLaw _
  · simp [RailDutyLaw, shut]

/-! ## What may reach the common role, and through it COMMON_RAIL (R115, R117) -/

theorem commonWet_railDutyLaw (n : StripNo) (h : RailDutyLaw s) : RailDutyLaw (commonWet n s) := by
  unfold commonWet
  dsimp only
  split
  · exact h
  · exact h
  · exact addRailCause_railDutyLaw _ h

theorem enterVacant_railDutyLaw (b : BranchNo) (h : RailDutyLaw s) : RailDutyLaw (enterVacant b s) := by
  unfold enterVacant
  dsimp only
  split
  · exact commonWet_railDutyLaw _ h
  · exact h

theorem enterByContacts_railDutyLaw (b : BranchNo) (h : RailDutyLaw s) : RailDutyLaw (enterByContacts b s) := by
  unfold enterByContacts
  split
  · exact enterVacant_railDutyLaw b h
  · split <;> exact railDutyLaw_of_railDrive_eq (by simp [railDrive]) h

theorem removeBranchCause_railDutyLaw (b : BranchNo) (c : BranchCause) (h : RailDutyLaw s) :
    RailDutyLaw (removeBranchCause b c s) := by
  unfold removeBranchCause
  split
  · dsimp only
    split
    · exact enterByContacts_railDutyLaw b h
    · exact h
  · exact h

theorem completeClose_railDutyLaw (b : BranchNo) (h : RailDutyLaw s) : RailDutyLaw (completeClose b s) := by
  have closed : RailDutyLaw (closeRecord (.branch b) s) := railDutyLaw_of_railDrive_eq (by simp [railDrive]) h
  unfold completeClose
  dsimp only
  split
  · exact enterByContacts_railDutyLaw b closed
  · exact closed

/-- R133: from OPENING the duty is 1000 already; a bay that RAIL leaves may turn VACANT over a WET strip, and take the rail
out of OPEN again by `enterByContacts`. -/
theorem enterOpened_railDutyLaw (opening : s.rail.state = .opening) (h : RailDutyLaw s) :
    RailDutyLaw (enterOpened s) := by
  have full : s.valves.railCommanded = 1000 := by simpa [RailDutyLaw, opening] using h
  unfold enterOpened
  dsimp only
  refine forBranches_inv RailDutyLaw _ (fun b u hu => ?_) _ (by simp [RailDutyLaw, full])
  split
  · exact removeBranchCause_railDutyLaw b .rail hu
  · exact hu

theorem stripEntersWet_railDutyLaw (n : StripNo) (h : RailDutyLaw s) : RailDutyLaw (stripEntersWet n s) := by
  unfold stripEntersWet
  split
  · split
    · exact commonWet_railDutyLaw n h
    · exact railDutyLaw_of_railDrive_eq (by simp [railDrive]) h
  · exact commonWet_railDutyLaw n h

theorem stripConsequences_railDutyLaw (n : StripNo) (old level : StripState) (h : RailDutyLaw s) :
    RailDutyLaw (stripConsequences n old level s) := by
  unfold stripConsequences
  split
  · exact h
  · split
    · exact stripEntersWet_railDutyLaw n h
    · split
      · exact railDutyLaw_of_railDrive_eq (by simp [railDrive]) h
      · exact h

/-! ## The window close (R34) -/

theorem railDrive_closeMeters (s : State) : railDrive (closeMeters s) = railDrive s := by
  have raised : ∀ (cs : List ChannelNo) (u : State), railDrive (raiseDegraded cs u) = railDrive u := by
    intro cs
    induction cs with
    | nil => exact fun _ => rfl
    | cons c cs ih => exact fun u => ih (raiseSup .meterDegraded c.val u)
  exact raised _ _

theorem railDrive_closeAllocator (s : State) : railDrive (closeAllocator s) = railDrive s := by simp [railDrive]

theorem railDrive_closeValves (s : State) : railDrive (closeValves s) = railDrive s :=
  forBranches_keeps railDrive trimBranch (fun b s => by unfold trimBranch; split <;> rfl) s

theorem railDrive_primingCheck (b : BranchNo) (s : State) : railDrive (primingCheck b s) = railDrive s := by
  unfold primingCheck
  (repeat' split) <;> simp [railDrive]

theorem railDrive_adoptionCheck (b : BranchNo) (s : State) : railDrive (adoptionCheck b s) = railDrive s := by
  unfold adoptionCheck
  (repeat' split) <;> simp [railDrive]

theorem railDrive_closeDock (b : BranchNo) (s : State) : railDrive (closeDock b s) = railDrive s := by
  unfold closeDock
  split
  · exact railDrive_primingCheck b s
  · exact railDrive_adoptionCheck b s
  · unfold drainCheck; split <;> simp [railDrive]
  all_goals rfl

theorem railDrive_balanceBranch (b : BranchNo) (s : State) : railDrive (balanceBranch b s) = railDrive s := by
  unfold balanceBranch
  split
  · simp [railDrive, addBranchCauses]
  · rfl

theorem railDrive_handLosses (s : State) : railDrive (handLosses s) = railDrive s := by
  have branches : ∀ u, railDrive (forBranches (fun b s =>
      if supplyHealthy s b && returnHealthy s b then addLoss (.branch b) (imbalance s b) s else s) u) = railDrive u :=
    forBranches_keeps railDrive _ fun b s => by split <;> simp [railDrive]
  unfold handLosses
  dsimp only
  split
  · exact Eq.trans (by simp [railDrive]) (branches s)
  · exact branches s

theorem balanceRail_railDutyLaw (h : RailDutyLaw s) : RailDutyLaw (balanceRail s) := by
  unfold balanceRail
  split
  · dsimp only
    split
    · exact addRailCause_railDutyLaw _ h
    · exact h
  · exact h

theorem closeBalance_railDutyLaw (h : RailDutyLaw s) : RailDutyLaw (closeBalance s) := by
  have branches := forBranches_keeps railDrive balanceBranch railDrive_balanceBranch s
  exact railDutyLaw_of_railDrive_eq (railDrive_handLosses _)
    (balanceRail_railDutyLaw (railDutyLaw_of_railDrive_eq branches h))

theorem closeLocate_railDutyLaw (h : RailDutyLaw s) : RailDutyLaw (closeLocate s) := by
  unfold closeLocate
  split
  · dsimp only
    split
    · exact railDutyLaw_of_railDrive_eq (by simp [railDrive, endLocate]) h
    · split
      · exact addRailCause_railDutyLaw .commonRail h
      · split <;> exact h
  · exact h

theorem takePart_railDutyLaw (p : ClosePart) (h : RailDutyLaw s) : RailDutyLaw (takePart s p) := by
  unfold takePart
  split
  · exact railDutyLaw_of_railDrive_eq (railDrive_closeDock _ s) h
  · exact railDutyLaw_of_railDrive_eq (railDrive_closeAllocator s) h
  · exact railDutyLaw_of_railDrive_eq (railDrive_closeValves s) h
  · exact closeBalance_railDutyLaw h
  · exact closeLocate_railDutyLaw h

theorem closeWindow_railDutyLaw (order : List ClosePart) (h : RailDutyLaw s) : RailDutyLaw (closeWindow order s) :=
  List.foldlRecOn _ takePart (railDutyLaw_of_railDrive_eq (railDrive_closeMeters s) h)
    fun _ hu p _ => takePart_railDutyLaw p hu

/-! ## Loading and reset -/

/-- R90: the duties are recomputed from the rail state, whatever went before. -/
theorem resumeDuties_railDutyLaw (s : State) : RailDutyLaw (resumeDuties s) := (railDutyLaw_iff _).2 rfl

theorem endLoading_railDutyLaw (blocks : List (List Byte)) (reason : EndReason) (defaulted dripFirst : Bool)
    (s : State) : RailDutyLaw (endLoading blocks reason defaulted dripFirst s) := by
  have gated : ∀ u, railDrive (raiseSup .settingsDone 0 (gateAll u)) = railDrive u := fun u => by simp [railDrive]
  exact railDutyLaw_of_railDrive_eq (gated _) (resumeDuties_railDutyLaw _)

theorem takeBlock_railDutyLaw (x : List Byte) (dripFirst : Bool) (h : RailDutyLaw s) :
    RailDutyLaw (takeBlock x dripFirst s) := by
  unfold takeBlock
  dsimp only
  split
  · exact endLoading_railDutyLaw _ _ _ _ _
  · split
    · exact endLoading_railDutyLaw _ _ _ _ _
    · exact h

theorem readNextBlock_railDutyLaw (acked dripFirst : Bool) (h : RailDutyLaw s) :
    RailDutyLaw (readNextBlock acked dripFirst s) := by
  unfold readNextBlock
  dsimp only
  split
  · exact endLoading_railDutyLaw _ _ _ _ _
  · split
    · exact takeBlock_railDutyLaw _ _ h
    · exact endLoading_railDutyLaw _ _ _ _ _

@[simp] theorem railDrive_warmRestart (s : State) : railDrive (warmRestart s) = railDrive s := by
  unfold warmRestart
  dsimp only
  split <;> rfl

theorem railDrive_clearEnables (s : State) : railDrive (clearEnables s) = railDrive s := by
  simp only [railDrive, clearEnables, State.updValves_rail, State.updValves_valves]
  split <;> rfl

theorem assertTrip_railDutyLaw (h : RailDutyLaw s) : RailDutyLaw (assertTrip s) := by
  unfold assertTrip
  dsimp only
  split
  · exact railDutyLaw_of_railDrive_eq (railDrive_clearEnables _) h
  · exact addRailCause_railDutyLaw _ (railDutyLaw_of_railDrive_eq (railDrive_clearEnables _) h)

/-! ## Replies, attention causes and updates of other units -/

@[simp] theorem railDrive_startReply (l : LineNo) (k tag : Byte) (st : Status) (body : List Byte) (s : State) :
    railDrive (startReply l k tag st body s) = railDrive s := rfl

@[simp] theorem railDrive_raiseSup (c : SupCause) (k : Nat) (s : State) : railDrive (raiseSup c k s) = railDrive s := rfl

@[simp] theorem railDrive_updLine (l : LineNo) (f : Line → Line) (s : State) :
    railDrive (s.updLine l f) = railDrive s := rfl

@[simp] theorem railDrive_updBranch (b : BranchNo) (f : Branch → Branch) (s : State) :
    railDrive (s.updBranch b f) = railDrive s := rfl

@[simp] theorem railDrive_updAlloc (f : Allocator → Allocator) (s : State) :
    railDrive (s.updAlloc f) = railDrive s := rfl

@[simp] theorem railDrive_updLoader (f : Loader → Loader) (s : State) : railDrive (s.updLoader f) = railDrive s := rfl

@[simp] theorem railDrive_updPins (f : Pins → Pins) (s : State) : railDrive (s.updPins f) = railDrive s := rfl

@[simp] theorem railDrive_elapse (ms : Nat) (s : State) : railDrive (elapse ms s) = railDrive s := rfl

/-! ## Reception and the service place -/

@[simp] theorem railDrive_noteOctet (l : LineNo) (framingError : Bool) (s : State) :
    railDrive (noteOctet l framingError s) = railDrive s := rfl

@[simp] theorem railDrive_serveSetWindow (l : LineNo) (tag : Byte) (body : List Byte) (s : State) :
    railDrive (serveSetWindow l tag body s) = railDrive s := by
  have result : ∀ n w, railDrive (setWindowResult s n w).1 = railDrive s := by
    intro n w
    unfold setWindowResult
    split
    · split <;> rfl
    · rfl
  exact result _ _

@[simp] theorem railDrive_handRequest (l : LineNo) (k : Kind) (f : Frame) (s : State) :
    railDrive (handRequest l k f s) = railDrive s := by
  unfold handRequest
  split
  · unfold serveReadBranch
    dsimp only
    (repeat' split) <;> rfl
  · exact railDrive_serveSetWindow _ _ _ _
  · split <;> rfl

@[simp] theorem railDrive_takeForService (l : LineNo) (f : Frame) (s : State) :
    railDrive (takeForService l f s) = railDrive s := by
  unfold takeForService
  split
  · rfl
  · exact railDrive_handRequest _ _ _ _

@[simp] theorem railDrive_discardFrame (l : LineNo) (s : State) : railDrive (discardFrame l s) = railDrive s := by
  simp [railDrive]

@[simp] theorem railDrive_completeFrame (l : LineNo) (f : Frame) (check : BitVec 16) (s : State) :
    railDrive (completeFrame l f check s) = railDrive s := by
  unfold completeFrame placeFrame
  split
  · dsimp only
    split
    · exact railDrive_takeForService _ _ _
    · split <;> rfl
  · exact railDrive_discardFrame l s

@[simp] theorem railDrive_receiveOctet (l : LineNo) (octet : Byte) (framingError : Bool) (s : State) :
    railDrive (receiveOctet l octet framingError s) = railDrive s := by
  have collected : ∀ xs, railDrive (collectOctet l xs s) = railDrive s := by
    intro xs
    unfold collectOctet
    dsimp only
    split
    · exact railDrive_discardFrame l s
    · split
      · rfl
      · exact railDrive_completeFrame _ _ _ _
  unfold receiveOctet
  split
  · split <;> rfl
  · split
    · exact railDrive_discardFrame l s
    · exact collected _

@[simp] theorem railDrive_serviceNext (l : LineNo) (s : State) : railDrive (serviceNext l s) = railDrive s := by
  unfold serviceNext
  split
  · rfl
  · exact railDrive_takeForService _ _ _

/-! ## What the requests ask for -/

@[simp] theorem railDrive_applyTransfer (i j : BranchNo) (m : Nat) (s : State) :
    railDrive (applyTransfer i j m s) = railDrive s := by
  unfold applyTransfer
  dsimp only
  (repeat' split) <;> simp [railDrive]

@[simp] theorem railDrive_serveFlowRequest (l : LineNo) (tag : Byte) (b : BranchNo) (flow : Nat) (s : State) :
    railDrive (serveFlowRequest l tag b flow s) = railDrive s := by
  unfold serveFlowRequest
  split <;> rfl

@[simp] theorem railDrive_serveTransfer (l : LineNo) (tag : Byte) (i j : BranchNo) (x : Nat) (s : State) :
    railDrive (serveTransfer l tag i j x s) = railDrive s := by
  unfold serveTransfer
  split <;> simp

@[simp] theorem railDrive_applySetBranch (b : BranchNo) (v : Limits) (hold : Bool) (s : State) :
    railDrive (applySetBranch b v hold s) = railDrive s := by
  unfold applySetBranch setHold
  dsimp only
  (repeat' split) <;> simp [railDrive]

@[simp] theorem railDrive_applyBudget (value : Nat) (urgent : Bool) (s : State) :
    railDrive (applyBudget value urgent s) = railDrive s := by
  unfold applyBudget
  split
  · simp [railDrive, declareBudget]
  · rfl

@[simp] theorem railDrive_releaseBay (b : BranchNo) (s : State) : railDrive (releaseBay b s) = railDrive s := by
  unfold releaseBay
  split <;> simp [railDrive]

@[simp] theorem railDrive_admitEffect (b : BranchNo) (s : State) : railDrive (admitEffect b s) = railDrive s := by
  unfold admitEffect
  (repeat' split) <;> simp [railDrive]

@[simp] theorem railDrive_noteRead (l : LineNo) (chosen : Option AttnCause) (s : State) :
    railDrive (noteRead l chosen s) = railDrive s := by
  unfold noteRead
  (repeat' split) <;> rfl

@[simp] theorem railDrive_noteDemand (l : LineNo) (s : State) : railDrive (noteDemand l s) = railDrive s := by
  unfold noteDemand
  split <;> simp

@[simp] theorem railDrive_resumeLog (s : State) : railDrive (resumeLog s) = railDrive s := by
  unfold resumeLog
  split <;> rfl

/-- R152: freeing a slot takes an incident reference away, of a branch or of the rail. -/
@[simp] theorem railDrive_freeSlot (k : SlotNo) (s : State) : railDrive (freeSlot k s) = railDrive s := by
  unfold freeSlot dropReference
  split
  · rfl
  · simp only [railDrive, State.updRail_rail, State.updRail_valves]
    split <;> rfl
  · rfl

@[simp] theorem railDrive_serveReturnIncident (tag : Byte) (n : Nat) (s : State) :
    railDrive (serveReturnIncident tag n s) = railDrive s := by
  unfold serveReturnIncident
  (repeat' split) <;> simp

@[simp] theorem railDrive_serveTakeIncident (tag : Byte) (n : Nat) (s : State) :
    railDrive (serveTakeIncident tag n s) = railDrive s := by
  unfold serveTakeIncident
  split <;> rfl

@[simp] theorem railDrive_serveReadMeters (tag : Byte) (first count : Nat) (s : State) :
    railDrive (serveReadMeters tag first count s) = railDrive s := by
  unfold serveReadMeters
  split <;> rfl

@[simp] theorem railDrive_serveStoreWrite (tag : Byte) (block half : Nat) (octets : List Byte) (s : State) :
    railDrive (serveStoreWrite tag block half octets s) = railDrive s := by
  unfold serveStoreWrite
  (repeat' split) <;> rfl

@[simp] theorem railDrive_serveClearAttn (l : LineNo) (tag : Byte) (set : BitVec 16) (s : State) :
    railDrive (serveClearAttn l tag set s) = railDrive s := rfl

@[simp] theorem railDrive_serveSetAttnMask (l : LineNo) (tag : Byte) (set : BitVec 16) (s : State) :
    railDrive (serveSetAttnMask l tag set s) = railDrive s := rfl

@[simp] theorem railDrive_emptyDelta (s : State) : railDrive (emptyDelta s) = railDrive s := rfl

/-! ## The events of a bay -/

@[simp] theorem railDrive_dockTimerRunsOut (b : BranchNo) (ms : Nat) (s : State) :
    railDrive (dockTimerRunsOut b ms s) = railDrive s := rfl

@[simp] theorem railDrive_addBranchCause (b : BranchNo) (c : BranchCause) (x : Bool) (s : State) :
    railDrive (addBranchCause b c x s) = railDrive s := by simp [railDrive]

@[simp] theorem railDrive_seatSettled (b : BranchNo) (s : State) : railDrive (seatSettled b s) = railDrive s := by
  unfold seatSettled
  split <;> simp [railDrive]

@[simp] theorem railDrive_sledArrives (b : BranchNo) (s : State) : railDrive (sledArrives b s) = railDrive s := by
  unfold sledArrives
  split <;> simp [railDrive]

@[simp] theorem railDrive_enterAdmitted (b : BranchNo) (s : State) : railDrive (enterAdmitted b s) = railDrive s := by
  simp [railDrive]

@[simp] theorem railDrive_enterPriming (b : BranchNo) (s : State) : railDrive (enterPriming b s) = railDrive s := rfl

@[simp] theorem railDrive_restrict (b : BranchNo) (s : State) : railDrive (restrict b s) = railDrive s := by
  simp [railDrive]

/-! ## Other units -/

@[simp] theorem railDrive_setHealth (c : ChannelNo) (f : MeterChannel → MeterChannel) (s : State) :
    railDrive (setHealth c f s) = railDrive s := rfl

@[simp] theorem railDrive_endLocate (o : LocateOutcome) (s : State) : railDrive (endLocate o s) = railDrive s := rfl

@[simp] theorem railDrive_fallBack (s : State) : railDrive (fallBack s) = railDrive s := rfl

@[simp] theorem railDrive_becomeStale (s : State) : railDrive (becomeStale s) = railDrive s := by
  unfold becomeStale
  dsimp only
  split <;> rfl

@[simp] theorem railDrive_startPeriod (s : State) : railDrive (startPeriod s) = railDrive s := rfl

@[simp] theorem railDrive_samplePickups (a b : BitVec 26) (s : State) :
    railDrive (samplePickups a b s) = railDrive s := rfl

@[simp] theorem railDrive_negateTrip (s : State) : railDrive (negateTrip s) = railDrive s := rfl

@[simp] theorem railDrive_finishWrite (w : StoreWrite) (acked : Bool) (s : State) :
    railDrive (finishWrite w acked s) = railDrive s := by
  unfold finishWrite
  split <;> simp [railDrive]

/-! ## The commands that leave the rail state and the duty alone -/

/-- The commands that may add a cause to the rail or remove one, end a rail timer, end a loading, or reset the part. -/
def movesRail : Instr → Bool
  | .powerOnReset _ _ | .settingsBlockRead _ _ | .isolate | .clearCause | .restore | .plantStop | .plantResume
  | .presentOpens _ | .closeCompletes _ | .windowClose _ | .railBalanceConfirmed | .tripInAsserted
  | .railCloseTimeExpires | .railOpenTimeExpires | .stripStateChange _ _ => true
  | _ => false

/-- The command answers a state with the rail state and the duty of `s`. -/
abbrev RailDriveStays (s : State) (o : Host.Outcome State Fault Refusal) : Prop :=
  Answers o fun t => railDrive t = railDrive s

theorem railDriveStays_next (h : railDrive t = railDrive s) : RailDriveStays s (.next t) := ⟨t, rfl, h⟩

/-- A request served is a reply around an operation that stays; a command without the request it serves does nothing. -/
theorem exec_railDrive (i : Instr) (still : movesRail i = false) : RailDriveStays s (exec i s) := by
  cases i
  case flowRequest | transfer | release | readAttn | clearAttn | setAttnMask | setBranch | admitBay | readStrips
      | readMeters | readRound | takeIncident | returnIncident | logResume | storeRead | storeWrite | restart | budget
      | readDemand =>
    simp only [exec, execFlowRequest, execTransfer, execRelease, execReadAttn, execClearAttn, execSetAttnMask,
      execSetBranch, execAdmitBay, execReadStrips, execReadMeters, execReadRound, execTakeIncident, execReturnIncident,
      execLogResume, execStoreRead, execStoreWrite, execRestart, execBudget, execReadDemand]
    split
    · exact railDriveStays_next (by simp [replyDock])
    · exact railDriveStays_next rfl
  case seatSettleExpires | primeTimeoutExpires | closeTimeExpires | drainLimitExpires =>
    simp only [exec, execSeatSettleExpires, execPrimeTimeoutExpires, execCloseTimeExpires, execDrainLimitExpires]
    split
    · exact railDriveStays_next (by simp)
    · exact railDriveStays_next rfl
  case primeGoodCountReached | adoptionGoodCountReached | idleCountReached | takeUpWindowsReached | balanceConfirmed
      | qerrRunReached | cleanRunReached | locateHoldExpires | budgetHoldExpires | fallbackTimeExpires
      | badFrameCountReached | warmRstAsserted | warmRstNegated | tripInNegated | lineBreak | frameReceived =>
    refine railDriveStays_next ?_
    split <;> simp
  case octetReceived | periodStart | pickupSample => exact railDriveStays_next (by simp)
  case presentCloses =>
    simp only [exec, execPresentCloses]
    split
    · exact railDriveStays_next rfl
    · refine railDriveStays_next ?_
      split <;> simp [setPresent]
  case latchCloses =>
    simp only [exec, execLatchCloses]
    split
    · exact railDriveStays_next rfl
    · refine railDriveStays_next ?_
      split <;> simp [setLatched, railDrive]
  case latchOpens =>
    simp only [exec, execLatchOpens]
    split
    · exact railDriveStays_next rfl
    · refine railDriveStays_next ?_
      (repeat' split) <;> simp [railDrive]
  case interOctetTimeout =>
    simp only [exec, execInterOctetTimeout]
    split
    · exact railDriveStays_next rfl
    · exact railDriveStays_next (by simp)
  case replySent =>
    simp only [exec, execReplySent]
    split
    · refine railDriveStays_next ?_
      split <;> simp
    · exact railDriveStays_next rfl
    · exact railDriveStays_next rfl
  case storeWriteCompletes =>
    simp only [exec, execStoreWriteCompletes]
    split
    · exact railDriveStays_next rfl
    · exact railDriveStays_next (by simp)
  all_goals cases still

/-! ## The commands that may move the rail -/

theorem answers_next {P : State → Prop} (h : P t) : Answers (.next t) P := ⟨t, rfl, h⟩

/-- A request that hands a cause of a branch or of the rail, or takes one away. -/
theorem isolateTarget_railDutyLaw (target : Target) (h : RailDutyLaw s) : RailDutyLaw (isolateTarget target s) := by
  cases target with
  | branch b => exact railDutyLaw_of_railDrive_eq (by simp [isolateTarget]) h
  | rail => exact addRailCause_railDutyLaw .commanded h

theorem clearTarget_railDutyLaw (target : Target) (code : Nat) (h : RailDutyLaw s) :
    RailDutyLaw (clearTarget target code s) := by
  cases target with
  | branch b =>
    simp only [clearTarget, clearBranch]
    split
    · exact h
    · exact removeBranchCause_railDutyLaw b _ h
  | rail =>
    simp only [clearTarget, clearRail]
    split
    · exact h
    · exact removeRailCause_railDutyLaw _ h

theorem serveRestore_railDutyLaw (tag : Byte) (h : RailDutyLaw s) : RailDutyLaw (serveRestore tag s) := by
  unfold serveRestore
  split
  · exact h
  · exact removeRailCause_railDutyLaw .tripLine h

theorem execPresentOpens_railDutyLaw (b : BranchNo) (h : RailDutyLaw s) :
    Answers (execPresentOpens b s) RailDutyLaw := by
  unfold execPresentOpens
  split
  · exact answers_next h
  · refine answers_next ?_
    split
    · exact railDutyLaw_of_railDrive_eq (by simp [railDrive]) h
    · split
      · exact enterVacant_railDutyLaw b h
      · exact railDutyLaw_of_railDrive_eq (by simp [railDrive]) h

theorem execStripStateChange_railDutyLaw (n : StripNo) (level : StripState) (h : RailDutyLaw s) :
    Answers (execStripStateChange n level s) RailDutyLaw := by
  unfold execStripStateChange
  dsimp only
  split
  · exact answers_next h
  · exact answers_next (stripConsequences_railDutyLaw n _ level h)

/-- R131, R132: the timer's event comes in CLOSING alone. -/
theorem execRailCloseTimeExpires_railDutyLaw (h : RailDutyLaw s) :
    Answers (execRailCloseTimeExpires s) RailDutyLaw := by
  unfold execRailCloseTimeExpires
  split
  next left closing _ => exact answers_next (enterClosed_railDutyLaw (s := elapse left s) closing h)
  next => exact answers_next h

/-- R133: the timer's event comes in OPENING alone. -/
theorem execRailOpenTimeExpires_railDutyLaw (h : RailDutyLaw s) :
    Answers (execRailOpenTimeExpires s) RailDutyLaw := by
  unfold execRailOpenTimeExpires
  split
  next left opening _ => exact answers_next (enterOpened_railDutyLaw (s := elapse left s) opening h)
  next => exact answers_next h

theorem exec_railDutyLaw_of_movesRail (i : Instr) (moves : movesRail i = true) (h : RailDutyLaw s) :
    Answers (exec i s) RailDutyLaw := by
  cases i
  case powerOnReset => exact answers_next rfl
  case settingsBlockRead acked dripFirst =>
    refine answers_next ?_
    split
    · exact readNextBlock_railDutyLaw acked dripFirst h
    · exact h
  case isolate =>
    simp only [exec, execIsolate]
    split
    · exact answers_next (isolateTarget_railDutyLaw _ h)
    · exact answers_next h
  case clearCause =>
    simp only [exec, execClearCause]
    split
    · exact answers_next (clearTarget_railDutyLaw _ _ h)
    · exact answers_next h
  case restore =>
    simp only [exec, execRestore]
    split
    · exact answers_next (serveRestore_railDutyLaw _ h)
    · exact answers_next h
  case plantStop =>
    simp only [exec, execPlantStop]
    split
    · exact answers_next (addRailCause_railDutyLaw .plantStop h)
    · exact answers_next h
  case plantResume =>
    simp only [exec, execPlantResume]
    split
    · exact answers_next (removeRailCause_railDutyLaw .plantStop h)
    · exact answers_next h
  case presentOpens b => exact execPresentOpens_railDutyLaw b h
  case closeCompletes b =>
    simp only [exec, execCloseCompletes]
    split
    · exact answers_next (completeClose_railDutyLaw b h)
    · exact answers_next h
  case windowClose order =>
    simp only [exec, execWindowClose]
    split
    · exact answers_next (closeWindow_railDutyLaw order h)
    · exact answers_next h
  case railBalanceConfirmed =>
    refine answers_next ?_
    split
    · exact addRailCause_railDutyLaw .railBalance h
    · exact h
  case tripInAsserted =>
    refine answers_next ?_
    split
    · exact h
    · exact assertTrip_railDutyLaw h
  case railCloseTimeExpires => exact execRailCloseTimeExpires_railDutyLaw h
  case railOpenTimeExpires => exact execRailOpenTimeExpires_railDutyLaw h
  case stripStateChange n level => exact execStripStateChange_railDutyLaw n level h
  all_goals cases moves

/-- Every command that runs where the duty follows the rail leaves a state where it does. -/
theorem exec_railDutyLaw (i : Instr) (h : RailDutyLaw s) : Answers (exec i s) RailDutyLaw := by
  cases moves : movesRail i with
  | true => exact exec_railDutyLaw_of_movesRail i moves h
  | false =>
    obtain ⟨t, answer, same⟩ := exec_railDrive i moves (s := s)
    exact ⟨t, answer, railDutyLaw_of_railDrive_eq same h⟩

theorem railDrive_tick (s : State) : railDrive (tick s) = railDrive s := by
  obtain ⟨_, _, frame⟩ := passed_frame s
  rw [tick_eq, frame]
  rfl

/-- The invariant of R82: a step is a millisecond, or the command at the front of the queue. -/
theorem step_railDutyLaw (h : RailDutyLaw s) : Answers (step s) RailDutyLaw := by
  unfold step
  split
  · exact answers_next (railDutyLaw_of_railDrive_eq (railDrive_tick s) h)
  · exact exec_railDutyLaw _ h

end

/-! ## The output of channel 12 (R76, R77) -/

theorem valveActive_railInlet (s : State) (us : Nat) :
    valveActive s 12 us = (s.valves.railEnable && decide (us < 20 * s.valves.railApplied)) := rfl

/-- Settles O12: the invariant over every step, R77 at the period start, and the two duties of R82 as outputs. -/
theorem railValveFollowsTheRailState : Obligations.RailValveFollowsTheRailState := by
  unfold Obligations.RailValveFollowsTheRailState
  intro s t
  refine ⟨fun law stepped => ?invariant, ?period, fun enabled full us within => ?active, fun shut us => ?inactive⟩
  case invariant =>
    obtain ⟨u, answer, kept⟩ := step_railDutyLaw law
    cases stepped.symm.trans answer
    exact kept
  case period => exact ⟨startPeriod (elapse s.valves.periodTimer s), rfl, rfl⟩
  case active =>
    rw [valveActive_railInlet, enabled, full, Bool.true_and, decide_eq_true_iff]
    exact within
  case inactive => simp [valveActive_railInlet, shut]

end Sys2Proof.Machine
end

section
/-! SUPPORT. READ_STRIPS: the strip fields of its reply as digits of a number, the reply read octet by octet, and what
the emptied delta set leaves alone (R114, R115, R118, R173; 9.7). -/

namespace Sys2Proof.Machine

open Sys2Proof Sys2Proof.Safety

/-! ## Octets and flags -/

/-- Numbers past the end of a written number are read from what follows it. -/
theorem numberAt_toOctets_append (k n : Nat) (ys : List Byte) (i j : Nat) :
    numberAt (toOctets k n ++ ys) (k + i) j = numberAt ys i j := by
  simpa only [toOctets_length] using numberAt_append_right (toOctets k n) ys i j

theorem numberAt_one (xs : List Byte) (i : Nat) : numberAt xs i 1 = octetAt xs i := by
  simp [numberAt]

theorem flagBit_eq_ite {b : Bool} {p : Prop} [Decidable p] (h : b = true ↔ p) (n : Nat) :
    flagBit b n = if p then 2 ^ n else 0 := by
  simp only [flagBit, h]

theorem flagBit_zero_lt_two (b : Bool) : flagBit b 0 < 2 := by cases b <;> decide

theorem stripCode_lt_four (x : StripState) : stripCode x < 4 := by cases x <;> decide

/-! ## Sixteen strips as one number -/

/-- A strip field is a digit: base 2 to the width of the field, lowest strip first. -/
theorem stripNumber_eq_ofDigits (width : Nat) (f : StripNo → Nat) :
    stripNumber width f = Nat.ofDigits (2 ^ width) (allStrips.map f) := by
  simp [Nat.ofDigits_eq_sum_mapIdx, stripNumber, allStrips, pow_mul]

section
variable {width : Nat} {f : StripNo → Nat} (within : ∀ n, f n < 2 ^ width)
include within

theorem digits_within : ∀ d ∈ allStrips.map f, d < 2 ^ width := List.forall_mem_map.2 fun n _ => within n

theorem stripNumber_lt (wide : width ≠ 0) : stripNumber width f < (2 ^ width) ^ 16 := by
  rw [stripNumber_eq_ofDigits]
  exact Nat.ofDigits_lt_base_pow_length (Nat.one_lt_two_pow wide) (digits_within within)

theorem stripNumber_digit (n : StripNo) : stripNumber width f / (2 ^ width) ^ n.val % 2 ^ width = f n := by
  rw [stripNumber_eq_ofDigits, Nat.ofDigits_div_pow_eq_ofDigits_drop _ (Nat.two_pow_pos width) _ (digits_within within),
    Nat.ofDigits_mod_eq_head!]
  have nth : ((allStrips.map f).drop n.val).head! = f n := by fin_cases n <;> rfl
  rw [nth, Nat.mod_eq_of_lt (within n)]

/-- Sixteen fields of `width` bits, written in octets that just hold them, read back strip by strip. -/
theorem numberAt_stripNumber (wide : width ≠ 0) {octets : Nat} (hold : (2 ^ width) ^ 16 = 256 ^ octets)
    (ys : List Byte) (n : StripNo) :
    numberAt (toOctets octets (stripNumber width f) ++ ys) 0 octets / (2 ^ width) ^ n.val % 2 ^ width = f n := by
  rw [numberAt_toOctets, ← hold, Nat.mod_eq_of_lt (stripNumber_lt within wide), stripNumber_digit within]

end

/-! ## The reply (R114, 9.7) -/

@[simp] theorem stripsReply_length (s : State) : (stripsReply s).length = 11 := by simp [stripsReply]

theorem stripsReply_state (s : State) (n : StripNo) :
    numberAt (stripsReply s) 0 4 / 4 ^ n.val % 4 = stripCode (s.strip n).state := by
  simp only [stripsReply, List.append_assoc]
  exact numberAt_stripNumber (width := 2) (fun n => stripCode_lt_four (s.strip n).state) two_ne_zero (by norm_num) _ n

theorem stripsReply_changed (s : State) (n : StripNo) :
    numberAt (stripsReply s) 4 2 / 2 ^ n.val % 2 = if (s.strip n).changed = true then 1 else 0 := by
  simp only [stripsReply, List.append_assoc]
  rw [numberAt_toOctets_append 4 _ _ 0 2]
  exact numberAt_stripNumber (width := 1) (fun n => flagBit_zero_lt_two (s.strip n).changed) one_ne_zero (by norm_num)
    _ n

/-- R115: the role that the reply carries. -/
theorem stripsReply_common (s : State) (n : StripNo) :
    numberAt (stripsReply s) 6 2 / 2 ^ n.val % 2 = if CommonRole s n then 1 else 0 := by
  have role : flagBit (actsCommon s n) 0 = if CommonRole s n then 1 else 0 := flagBit_eq_ite (actsCommon_iff s n) 0
  simp only [stripsReply, List.append_assoc]
  rw [numberAt_toOctets_append 4 _ _ 2 2, numberAt_toOctets_append 2 _ _ 0 2, ← role]
  exact numberAt_stripNumber (width := 1) (fun n => flagBit_zero_lt_two (actsCommon s n)) one_ne_zero (by norm_num) _ n

/-- The three last octets follow the eight of the strips. -/
theorem numberAt_stripsReply_tail (s : State) (i : Nat) :
    numberAt (stripsReply s) (8 + i) 1 =
      octetAt [locateOctet s, octet s.drip.windowsLeft, octet (orCode (s.drip.locateStrip.map (·.val)) 0xFF)] i := by
  simp only [stripsReply, List.append_assoc]
  rw [show 8 + i = 4 + (2 + (2 + i)) by omega, numberAt_toOctets_append, numberAt_toOctets_append,
    numberAt_toOctets_append, numberAt_one]

/-- R118: the freeze that the reply carries, with the locate state and the last outcome. -/
theorem stripsReply_locate (s : State) :
    numberAt (stripsReply s) 8 1 =
      (if AdmissionsFrozen s then 1 else 0) + (if s.drip.running = true then 2 else 0) + 4 * s.drip.outcome.code := by
  have freeze : flagBit (frozen s) 0 = if AdmissionsFrozen s then 1 else 0 := flagBit_eq_ite (frozen_iff s) 0
  have locate : flagBit s.drip.running 1 = if s.drip.running = true then 2 else 0 := rfl
  have outcome : s.drip.outcome.code ≤ 3 := by cases s.drip.outcome <;> decide
  rw [numberAt_stripsReply_tail s 0, octetAt_cons_zero, locateOctet, octet_toNat, freeze, locate]
  apply Nat.mod_eq_of_lt
  split <;> split <;> omega

theorem stripsReply_windowsLeft (s : State) : numberAt (stripsReply s) 9 1 = s.drip.windowsLeft % 256 := by
  rw [numberAt_stripsReply_tail s 1, octetAt_cons_succ, octetAt_cons_zero, octet_toNat]

theorem stripsReply_locateStrip (s : State) :
    numberAt (stripsReply s) 10 1 = match s.drip.locateStrip with | none => 0xFF | some n => n.val := by
  rw [numberAt_stripsReply_tail s 2, octetAt_cons_succ, octetAt_cons_succ, octetAt_cons_zero, octet_toNat]
  cases s.drip.locateStrip with
  | none => rfl
  | some n => exact Nat.mod_eq_of_lt (n.isLt.trans (by decide))

/-! ## The delta set (R114, R173) -/

theorem emptyDelta_strip (s : State) (n : StripNo) : (emptyDelta s).strip n = { s.strip n with changed := false } := by
  simp [emptyDelta, State.strip]

theorem emptyDelta_detailList (s : State) (c : AttnCause) :
    detailList ((emptyDelta s).attnOf supLine) c =
      if c = .sup .stripChange then [] else detailList (s.attnOf supLine) c := by
  simp only [emptyDelta, detailList_dropCause, State.updDrip_attnOf]

theorem emptyDelta_attnOf_ne (s : State) {l : LineNo} (h : l ≠ supLine) : (emptyDelta s).attnOf l = s.attnOf l := by
  simp only [emptyDelta, dropCause_attnOf_ne _ _ _ h.symm, State.updDrip_attnOf]

/-- A cause with an empty detail list is not pending (R169). -/
theorem isPending_eq_false_of_detailList {a : AttnLine} {c : AttnCause} (h : detailList a c = []) :
    isPending a c = false :=
  List.any_eq_false.2 (List.filter_eq_nil_iff.1 h)

theorem emptyDelta_not_pending (s : State) : isPending ((emptyDelta s).attnOf supLine) (.sup .stripChange) = false :=
  isPending_eq_false_of_detailList ((emptyDelta_detailList s _).trans (if_pos rfl))

theorem exec_readStrips_of_handed {s : State} {tag : Byte} (h : Handed s supLine tag .readStrips) :
    exec .readStrips s = .next (startReply supLine Kind.readStrips.code tag .ok (stripsReply s) (emptyDelta s)) := by
  simp only [exec, execReadStrips, h]

/-- Settles O36: each field of the reply is read off the octets that `stripsReply` writes, and the state is that of
`emptyDelta` behind the reply. -/
theorem readStripsReportsAndEmptiesTheDelta : Obligations.ReadStripsReportsAndEmptiesTheDelta := by
  unfold Obligations.ReadStripsReportsAndEmptiesTheDelta
  intro s tag handed
  refine ⟨_, stripsReply s, exec_readStrips_of_handed handed, ?reply, stripsReply_length s,
    fun n => ⟨stripsReply_state s n, stripsReply_changed s n, stripsReply_common s n⟩, stripsReply_locate s,
    stripsReply_windowsLeft s, stripsReply_locateStrip s, emptyDelta_strip s, emptyDelta_not_pending s, ?causes,
    fun l other => emptyDelta_attnOf_ne s other, ?frame⟩
  case reply => rfl
  case causes => exact fun c other => (emptyDelta_detailList s c).trans (if_neg other)
  case frame => rfl

end Sys2Proof.Machine
end

section
/-! SUPPORT. TRIP_OUT: which operations and commands leave the rail set and the output alone, and that every one that
changes the set brings the output into line with it (R141). -/

namespace Sys2Proof.Machine

open Sys2Proof Sys2Proof.Safety

section

variable {s t : State}

/-! ## What R141 speaks of -/

/-- The rail set and the level of TRIP_OUT. -/
def tripDrive (s : State) : List RailCause × Bool := (s.rail.causes, s.iso.tripOut)

/-- The law says that the second half of `tripDrive` is the level of R141 for the first. -/
theorem tripOutLaw_iff (s : State) : TripOutLaw s ↔ (tripDrive s).2 = tripOutOf (tripDrive s).1 := by
  rw [Bool.eq_iff_iff]
  simp [tripDrive, tripOutOf]

theorem tripOutLaw_of_tripDrive_eq (same : tripDrive t = tripDrive s) (h : TripOutLaw s) : TripOutLaw t := by
  rw [tripOutLaw_iff] at h ⊢
  rwa [same]

/-! ## Updates and shared operations that leave the rail set and the output alone -/

@[simp] theorem tripDrive_ite (p : Prop) [Decidable p] (s t : State) :
    tripDrive (if p then s else t) = if p then tripDrive s else tripDrive t := apply_ite tripDrive p s t

@[simp] theorem tripDrive_updBranch (b : BranchNo) (f : Branch → Branch) (s : State) :
    tripDrive (s.updBranch b f) = tripDrive s := rfl

@[simp] theorem tripDrive_updLine (l : LineNo) (f : Line → Line) (s : State) :
    tripDrive (s.updLine l f) = tripDrive s := rfl

@[simp] theorem tripDrive_updAlloc (f : Allocator → Allocator) (s : State) : tripDrive (s.updAlloc f) = tripDrive s :=
  rfl

@[simp] theorem tripDrive_updRing (f : Ring → Ring) (s : State) : tripDrive (s.updRing f) = tripDrive s := rfl

@[simp] theorem tripDrive_updLoader (f : Loader → Loader) (s : State) : tripDrive (s.updLoader f) = tripDrive s := rfl

@[simp] theorem tripDrive_updPins (f : Pins → Pins) (s : State) : tripDrive (s.updPins f) = tripDrive s := rfl

@[simp] theorem tripDrive_raise (l : LineNo) (e : AttnEntry) (s : State) : tripDrive (raise l e s) = tripDrive s := rfl

@[simp] theorem tripDrive_raiseSup (c : SupCause) (k : Nat) (s : State) : tripDrive (raiseSup c k s) = tripDrive s :=
  rfl

@[simp] theorem tripDrive_startReply (l : LineNo) (k tag : Byte) (st : Status) (body : List Byte) (s : State) :
    tripDrive (startReply l k tag st body s) = tripDrive s := rfl

@[simp] theorem tripDrive_elapse (ms : Nat) (s : State) : tripDrive (elapse ms s) = tripDrive s := rfl

@[simp] theorem tripDrive_dockTimerRunsOut (b : BranchNo) (ms : Nat) (s : State) :
    tripDrive (dockTimerRunsOut b ms s) = tripDrive s := rfl

@[simp] theorem tripDrive_gate (b : BranchNo) (s : State) : tripDrive (gate b s) = tripDrive s := by simp [tripDrive]

@[simp] theorem tripDrive_addBranchCause (b : BranchNo) (c : BranchCause) (x : Bool) (s : State) :
    tripDrive (addBranchCause b c x s) = tripDrive s := by simp [tripDrive]

@[simp] theorem tripDrive_enterHeld (b : BranchNo) (x : Bool) (s : State) :
    tripDrive (enterHeld b x s) = tripDrive s := by simp [tripDrive]

@[simp] theorem tripDrive_enterSeated (b : BranchNo) (s : State) : tripDrive (enterSeated b s) = tripDrive s := rfl

@[simp] theorem tripDrive_enterPriming (b : BranchNo) (s : State) : tripDrive (enterPriming b s) = tripDrive s := rfl

@[simp] theorem tripDrive_enterAdmitted (b : BranchNo) (s : State) : tripDrive (enterAdmitted b s) = tripDrive s := by
  simp [tripDrive]

@[simp] theorem tripDrive_raiseOwner (b : BranchNo) (c : SledCause) (xs : List BranchCause) (s : State) :
    tripDrive (raiseOwner b c xs s) = tripDrive s := by simp [tripDrive]

/-! ## The rail set changes: TRIP_OUT is brought into line -/

theorem driveTripOut_tripOutLaw (s : State) : TripOutLaw (driveTripOut s) := (tripOutLaw_iff _).2 rfl

/-- R144: an incident of the rail writes its reference and its lost flag, not its set. -/
@[simp] theorem tripDrive_ringAdd (x : Target) (c : Cause) (byContact : Bool) (s : State) :
    tripDrive (ringAdd x c byContact s) = tripDrive s := by
  simp only [tripDrive, ringAdd_iso]
  rw [(ringAdd_same x c byContact s).rail]

/-- R124: a cause already in the set changes nothing; any other ends with TRIP_OUT driven from the new set. -/
theorem addRailCause_tripOutLaw (c : RailCause) (h : TripOutLaw s) : TripOutLaw (addRailCause c s) := by
  unfold addRailCause
  split
  · exact h
  · dsimp only
    split
    · exact tripOutLaw_of_tripDrive_eq (tripDrive_ringAdd _ _ _ _) (driveTripOut_tripOutLaw _)
    · exact driveTripOut_tripOutLaw _

/-- R125, R132: a cause removed drives TRIP_OUT from what is left; an entry into OPENING then keeps set and output. -/
theorem removeRailCause_tripOutLaw (c : RailCause) (h : TripOutLaw s) : TripOutLaw (removeRailCause c s) := by
  unfold removeRailCause
  split
  · dsimp only
    split <;> exact driveTripOut_tripOutLaw (s.updRail fun r => { r with causes := r.causes.filter (· ≠ c) })
  · exact h

/-! ## What may reach the common role, and through it COMMON_RAIL (R115, R117) -/

theorem commonWet_tripOutLaw (n : StripNo) (h : TripOutLaw s) : TripOutLaw (commonWet n s) := by
  unfold commonWet
  dsimp only
  split
  · exact h
  · exact h
  · exact addRailCause_tripOutLaw .commonRail h

theorem enterVacant_tripOutLaw (b : BranchNo) (h : TripOutLaw s) : TripOutLaw (enterVacant b s) := by
  unfold enterVacant
  dsimp only
  split
  · exact commonWet_tripOutLaw _ h
  · exact h

theorem enterByContacts_tripOutLaw (b : BranchNo) (h : TripOutLaw s) : TripOutLaw (enterByContacts b s) := by
  unfold enterByContacts
  split
  · exact enterVacant_tripOutLaw b h
  · split <;> exact tripOutLaw_of_tripDrive_eq (by simp [tripDrive]) h

theorem removeBranchCause_tripOutLaw (b : BranchNo) (c : BranchCause) (h : TripOutLaw s) :
    TripOutLaw (removeBranchCause b c s) := by
  unfold removeBranchCause
  split
  · dsimp only
    split
    · exact enterByContacts_tripOutLaw b h
    · exact h
  · exact h

theorem completeClose_tripOutLaw (b : BranchNo) (h : TripOutLaw s) : TripOutLaw (completeClose b s) := by
  have closed : TripOutLaw (closeRecord (.branch b) s) := tripOutLaw_of_tripDrive_eq (by simp [tripDrive]) h
  unfold completeClose
  dsimp only
  split
  · exact enterByContacts_tripOutLaw b closed
  · exact closed

/-- R132: CLOSED, and OPENING after it, keep the set, so the output too. -/
theorem tripDrive_enterClosed (s : State) : tripDrive (enterClosed s) = tripDrive s := by
  unfold enterClosed
  dsimp only
  split <;> simp [tripDrive, enterOpening]

/-- R126, R133: a bay that RAIL leaves may turn VACANT over a WET strip, which may add COMMON_RAIL. -/
theorem enterOpened_tripOutLaw (h : TripOutLaw s) : TripOutLaw (enterOpened s) := by
  unfold enterOpened
  dsimp only
  refine forBranches_inv TripOutLaw _ (fun b u hu => ?_) _ (by exact h)
  split
  · exact removeBranchCause_tripOutLaw b .rail hu
  · exact hu

theorem stripEntersWet_tripOutLaw (n : StripNo) (h : TripOutLaw s) : TripOutLaw (stripEntersWet n s) := by
  unfold stripEntersWet
  split
  · split
    · exact commonWet_tripOutLaw n h
    · exact tripOutLaw_of_tripDrive_eq (by simp [tripDrive]) h
  · exact commonWet_tripOutLaw n h

theorem stripConsequences_tripOutLaw (n : StripNo) (old level : StripState) (h : TripOutLaw s) :
    TripOutLaw (stripConsequences n old level s) := by
  unfold stripConsequences
  split
  · exact h
  · split
    · exact stripEntersWet_tripOutLaw n h
    · split
      · exact tripOutLaw_of_tripDrive_eq (by simp [tripDrive]) h
      · exact h

/-! ## The window close (R34) -/

theorem tripDrive_closeMeters (s : State) : tripDrive (closeMeters s) = tripDrive s := by
  have raised : ∀ (cs : List ChannelNo) (u : State), tripDrive (raiseDegraded cs u) = tripDrive u := by
    intro cs
    induction cs with
    | nil => exact fun _ => rfl
    | cons c cs ih => exact fun u => ih (raiseSup .meterDegraded c.val u)
  exact raised _ _

theorem tripDrive_closeValves (s : State) : tripDrive (closeValves s) = tripDrive s :=
  forBranches_keeps tripDrive trimBranch (fun b s => by unfold trimBranch; split <;> rfl) s

theorem tripDrive_closeDock (b : BranchNo) (s : State) : tripDrive (closeDock b s) = tripDrive s := by
  unfold closeDock
  split
  · unfold primingCheck; (repeat' split) <;> simp [tripDrive]
  · unfold adoptionCheck; (repeat' split) <;> simp [tripDrive]
  · unfold drainCheck; split <;> simp [tripDrive]
  all_goals rfl

theorem foldl_addBranchCause_iso {α : Type} (b : α → BranchNo) (c : α → BranchCause) (xs : List α) (s : State) :
    (xs.foldl (fun s x => addBranchCause (b x) (c x) false s) s).iso = s.iso := by
  induction xs generalizing s with
  | nil => rfl
  | cons x xs ih => rw [List.foldl_cons, ih, addBranchCause_iso]

theorem tripDrive_balanceBranch (b : BranchNo) (s : State) : tripDrive (balanceBranch b s) = tripDrive s := by
  unfold balanceBranch
  split
  · simp [tripDrive, addBranchCauses, foldl_addBranchCause_iso]
  · rfl

theorem tripDrive_handLosses (s : State) : tripDrive (handLosses s) = tripDrive s := by
  have branches : ∀ u, tripDrive (forBranches (fun b s =>
      if supplyHealthy s b && returnHealthy s b then addLoss (.branch b) (imbalance s b) s else s) u) = tripDrive u :=
    forBranches_keeps tripDrive _ fun b s => by split <;> simp [tripDrive]
  unfold handLosses
  dsimp only
  split
  · exact Eq.trans (by simp [tripDrive]) (branches s)
  · exact branches s

/-- R106: a CONFIRMED rail account adds RAIL_BALANCE. -/
theorem balanceRail_tripOutLaw (h : TripOutLaw s) : TripOutLaw (balanceRail s) := by
  unfold balanceRail
  split
  · dsimp only
    split
    · exact addRailCause_tripOutLaw .railBalance h
    · exact h
  · exact h

theorem closeBalance_tripOutLaw (h : TripOutLaw s) : TripOutLaw (closeBalance s) := by
  have branches := forBranches_keeps tripDrive balanceBranch tripDrive_balanceBranch s
  exact tripOutLaw_of_tripDrive_eq (tripDrive_handLosses _)
    (balanceRail_tripOutLaw (tripOutLaw_of_tripDrive_eq branches h))

/-- R119: a locate that finds the rail alone adds COMMON_RAIL. -/
theorem closeLocate_tripOutLaw (h : TripOutLaw s) : TripOutLaw (closeLocate s) := by
  unfold closeLocate
  split
  · dsimp only
    split
    · exact tripOutLaw_of_tripDrive_eq (by simp [tripDrive, endLocate, foldl_addBranchCause_iso]) h
    · split
      · exact addRailCause_tripOutLaw .commonRail h
      · split <;> exact h
  · exact h

theorem takePart_tripOutLaw (p : ClosePart) (h : TripOutLaw s) : TripOutLaw (takePart s p) := by
  unfold takePart
  split
  · exact tripOutLaw_of_tripDrive_eq (tripDrive_closeDock _ s) h
  · exact tripOutLaw_of_tripDrive_eq (by simp [tripDrive]) h
  · exact tripOutLaw_of_tripDrive_eq (tripDrive_closeValves s) h
  · exact closeBalance_tripOutLaw h
  · exact closeLocate_tripOutLaw h

theorem closeWindow_tripOutLaw (order : List ClosePart) (h : TripOutLaw s) : TripOutLaw (closeWindow order s) :=
  List.foldlRecOn _ takePart (tripOutLaw_of_tripDrive_eq (tripDrive_closeMeters s) h)
    fun _ hu p _ => takePart_tripOutLaw p hu

/-! ## The end of loading (R176) -/

theorem tripDrive_resumeState (b : BranchNo) (s : State) : tripDrive (resumeState b s) = tripDrive s := by
  have byContacts : tripDrive (resumeByContacts b s) = tripDrive s := by
    unfold resumeByContacts
    (repeat' split) <;> simp [tripDrive]
  unfold resumeState
  split <;> simp [byContacts]

theorem tripDrive_resumeDock (b : BranchNo) (s : State) : tripDrive (resumeDock b s) = tripDrive s := by
  have contacts : ∀ u, tripDrive (resumeContacts b u) = tripDrive u := fun u => by
    unfold resumeContacts
    split <;> simp [tripDrive]
  have causes : ∀ u, tripDrive (resumeCauses b u) = tripDrive u := fun u => by
    unfold resumeCauses
    split <;> rfl
  exact (causes _).trans ((contacts _).trans (tripDrive_resumeState b s))

theorem tripDrive_alignRail (s : State) : tripDrive (alignRail s) = tripDrive s := by
  unfold alignRail
  split <;> simp [tripDrive]

/-- R142, R143: the Isolation Controller adds TRIP_LINE, opens a CLOSED rail or starts the rail timer. -/
theorem resumeIsolation_tripOutLaw (h : TripOutLaw s) : TripOutLaw (resumeIsolation s) := by
  unfold resumeIsolation
  split
  · split
    · exact addRailCause_tripOutLaw .tripLine h
    · split <;> exact h
  · exact h

theorem resumeStrips_tripOutLaw (h : TripOutLaw s) : TripOutLaw (resumeStrips s) := by
  unfold resumeStrips
  refine List.foldlRecOn _ _ h fun u hu n _ => ?_
  split
  · exact stripEntersWet_tripOutLaw n hu
  · exact hu

/-- Log 17: in either order. -/
theorem resumeIsolationAndStrips_tripOutLaw (dripFirst : Bool) (h : TripOutLaw s) :
    TripOutLaw (resumeIsolationAndStrips dripFirst s) := by
  unfold resumeIsolationAndStrips
  split
  · exact resumeIsolation_tripOutLaw (resumeStrips_tripOutLaw h)
  · exact resumeStrips_tripOutLaw (resumeIsolation_tripOutLaw h)

theorem tripDrive_resumeEnables (s : State) : tripDrive (resumeEnables s) = tripDrive s := by
  unfold resumeEnables
  dsimp only
  (repeat' split) <;> rfl

theorem endLoading_tripOutLaw (blocks : List (List Byte)) (reason : EndReason) (defaulted dripFirst : Bool)
    (h : TripOutLaw s) : TripOutLaw (endLoading blocks reason defaulted dripFirst s) := by
  have docks : ∀ u, tripDrive (alignRail (forBranches resumeDock u)) = tripDrive u := fun u =>
    (tripDrive_alignRail _).trans (forBranches_keeps tripDrive resumeDock tripDrive_resumeDock u)
  have gated : ∀ u, tripDrive (raiseSup .settingsDone 0 (gateAll (resumeDuties (resumeEnables u)))) = tripDrive u :=
    fun u => Eq.trans (by simp [tripDrive, resumeDuties]) (tripDrive_resumeEnables u)
  exact tripOutLaw_of_tripDrive_eq (gated _)
    (resumeIsolationAndStrips_tripOutLaw dripFirst (tripOutLaw_of_tripDrive_eq (docks _) h))

theorem takeBlock_tripOutLaw (x : List Byte) (dripFirst : Bool) (h : TripOutLaw s) :
    TripOutLaw (takeBlock x dripFirst s) := by
  unfold takeBlock
  dsimp only
  split
  · exact endLoading_tripOutLaw _ _ _ _ h
  · split
    · exact endLoading_tripOutLaw _ _ _ _ h
    · exact h

theorem readNextBlock_tripOutLaw (acked dripFirst : Bool) (h : TripOutLaw s) :
    TripOutLaw (readNextBlock acked dripFirst s) := by
  unfold readNextBlock
  dsimp only
  split
  · exact endLoading_tripOutLaw _ _ _ _ h
  · split
    · exact takeBlock_tripOutLaw _ _ h
    · exact endLoading_tripOutLaw _ _ _ _ h

/-! ## Reception and the service place -/

/-- R166: a window replaced changes the windows and the owner lines alone. -/
theorem tripDrive_setWindowResult (s : State) (n : Nat) (w : Window) :
    tripDrive (setWindowResult s n w).1 = tripDrive s := by
  unfold setWindowResult
  (repeat' split) <;> rfl

theorem tripDrive_handRequest (l : LineNo) (k : Kind) (f : Frame) (s : State) :
    tripDrive (handRequest l k f s) = tripDrive s := by
  unfold handRequest
  split
  · unfold serveReadBranch
    split <;> simp
  · exact tripDrive_setWindowResult s _ _
  · split <;> rfl

@[simp] theorem tripDrive_takeForService (l : LineNo) (f : Frame) (s : State) :
    tripDrive (takeForService l f s) = tripDrive s := by
  unfold takeForService
  split
  · rfl
  · exact tripDrive_handRequest _ _ _ _

@[simp] theorem tripDrive_discardFrame (l : LineNo) (s : State) : tripDrive (discardFrame l s) = tripDrive s := by
  simp [tripDrive]

@[simp] theorem tripDrive_completeFrame (l : LineNo) (f : Frame) (check : BitVec 16) (s : State) :
    tripDrive (completeFrame l f check s) = tripDrive s := by
  simp [completeFrame, placeFrame, raiseLineFault]

@[simp] theorem tripDrive_receiveOctet (l : LineNo) (octet : Byte) (framingError : Bool) (s : State) :
    tripDrive (receiveOctet l octet framingError s) = tripDrive s := by
  unfold receiveOctet
  split <;> simp [collectOctet]

@[simp] theorem tripDrive_noteOctet (l : LineNo) (framingError : Bool) (s : State) :
    tripDrive (noteOctet l framingError s) = tripDrive s := rfl

@[simp] theorem tripDrive_serviceNext (l : LineNo) (s : State) : tripDrive (serviceNext l s) = tripDrive s := by
  unfold serviceNext
  split <;> simp

/-! ## What the requests ask for -/

@[simp] theorem tripDrive_serveFlowRequest (l : LineNo) (tag : Byte) (b : BranchNo) (flow : Nat) (s : State) :
    tripDrive (serveFlowRequest l tag b flow s) = tripDrive s := by
  simp [serveFlowRequest, storeRequest]

@[simp] theorem tripDrive_serveTransfer (l : LineNo) (tag : Byte) (i j : BranchNo) (x : Nat) (s : State) :
    tripDrive (serveTransfer l tag i j x s) = tripDrive s := by
  simp [serveTransfer, applyTransfer]

@[simp] theorem tripDrive_applySetBranch (b : BranchNo) (v : Limits) (hold : Bool) (s : State) :
    tripDrive (applySetBranch b v hold s) = tripDrive s := by
  have noted : ∀ u, tripDrive (raiseGrantChanged b (s.br b).grant u) = tripDrive u := fun u => by simp [tripDrive]
  simp [applySetBranch, setHold, noted]

@[simp] theorem tripDrive_applyBudget (value : Nat) (urgent : Bool) (s : State) :
    tripDrive (applyBudget value urgent s) = tripDrive s := by
  have round : ∀ u, tripDrive (runRound u) = tripDrive u := fun u => by simp [tripDrive]
  simp [applyBudget, declareBudget, round]

@[simp] theorem tripDrive_releaseBay (b : BranchNo) (s : State) : tripDrive (releaseBay b s) = tripDrive s := by
  unfold releaseBay
  split <;> simp [enterPullReady]

@[simp] theorem tripDrive_admitEffect (b : BranchNo) (s : State) : tripDrive (admitEffect b s) = tripDrive s := by
  unfold admitEffect
  split <;> simp

@[simp] theorem tripDrive_noteRead (l : LineNo) (chosen : Option AttnCause) (s : State) :
    tripDrive (noteRead l chosen s) = tripDrive s := by
  have dropped : ∀ c, tripDrive (dropCause l c s) = tripDrive s := fun _ => rfl
  cases chosen <;> simp [noteRead, dropped]

@[simp] theorem tripDrive_noteDemand (l : LineNo) (s : State) : tripDrive (noteDemand l s) = tripDrive s := by
  simp [noteDemand]

@[simp] theorem tripDrive_resumeLog (s : State) : tripDrive (resumeLog s) = tripDrive s := by simp [resumeLog]

/-- R152: freeing a slot takes an incident reference away, of a branch or of the rail. -/
theorem tripDrive_freeSlot (k : SlotNo) (s : State) : tripDrive (freeSlot k s) = tripDrive s := by
  unfold freeSlot dropReference
  split
  · rfl
  · simp only [tripDrive, State.updRail_rail, State.updRail_iso]
    split <;> rfl
  · rfl

@[simp] theorem tripDrive_serveReturnIncident (tag : Byte) (n : Nat) (s : State) :
    tripDrive (serveReturnIncident tag n s) = tripDrive s := by
  unfold serveReturnIncident
  (repeat' split) <;> simp [tripDrive_freeSlot]

@[simp] theorem tripDrive_serveTakeIncident (tag : Byte) (n : Nat) (s : State) :
    tripDrive (serveTakeIncident tag n s) = tripDrive s := by
  unfold serveTakeIncident
  split <;> rfl

@[simp] theorem tripDrive_serveReadMeters (tag : Byte) (first count : Nat) (s : State) :
    tripDrive (serveReadMeters tag first count s) = tripDrive s := by
  simp [serveReadMeters]

@[simp] theorem tripDrive_serveStoreWrite (tag : Byte) (block half : Nat) (octets : List Byte) (s : State) :
    tripDrive (serveStoreWrite tag block half octets s) = tripDrive s := by
  unfold serveStoreWrite
  (repeat' split) <;> rfl

@[simp] theorem tripDrive_serveClearAttn (l : LineNo) (tag : Byte) (set : BitVec 16) (s : State) :
    tripDrive (serveClearAttn l tag set s) = tripDrive s := rfl

@[simp] theorem tripDrive_serveSetAttnMask (l : LineNo) (tag : Byte) (set : BitVec 16) (s : State) :
    tripDrive (serveSetAttnMask l tag set s) = tripDrive s := rfl

@[simp] theorem tripDrive_emptyDelta (s : State) : tripDrive (emptyDelta s) = tripDrive s := rfl

/-! ## The warm restart, and the events of the bays and of other units -/

/-- A warm restart keeps the rail set (R143) and the output. -/
@[simp] theorem tripDrive_warmRestart (s : State) : tripDrive (warmRestart s) = tripDrive s := by
  unfold warmRestart
  dsimp only
  split <;> rfl

@[simp] theorem tripDrive_contactOpened (b : BranchNo) (s : State) : tripDrive (contactOpened b s) = tripDrive s := by
  simp [tripDrive]

@[simp] theorem tripDrive_markHotPull (b : BranchNo) (s : State) : tripDrive (markHotPull b s) = tripDrive s := by
  simp [tripDrive]

theorem tripDrive_sledArrives (b : BranchNo) (s : State) : tripDrive (sledArrives b s) = tripDrive s := by
  unfold sledArrives
  split <;> simp [tripDrive]

theorem tripDrive_finishWrite (w : StoreWrite) (acked : Bool) (s : State) :
    tripDrive (finishWrite w acked s) = tripDrive s := by
  unfold finishWrite
  split <;> simp [tripDrive]

@[simp] theorem tripDrive_restrict (b : BranchNo) (s : State) : tripDrive (restrict b s) = tripDrive s := by
  simp [tripDrive]

@[simp] theorem tripDrive_becomeStale (s : State) : tripDrive (becomeStale s) = tripDrive s := by
  unfold becomeStale
  dsimp only
  split <;> rfl

@[simp] theorem tripDrive_fallBack (s : State) : tripDrive (fallBack s) = tripDrive s := rfl

@[simp] theorem tripDrive_setHealth (c : ChannelNo) (f : MeterChannel → MeterChannel) (s : State) :
    tripDrive (setHealth c f s) = tripDrive s := rfl

@[simp] theorem tripDrive_endLocate (o : LocateOutcome) (s : State) : tripDrive (endLocate o s) = tripDrive s := rfl

@[simp] theorem tripDrive_startPeriod (s : State) : tripDrive (startPeriod s) = tripDrive s := rfl

@[simp] theorem tripDrive_samplePickups (a b : BitVec 26) (s : State) :
    tripDrive (samplePickups a b s) = tripDrive s := rfl

@[simp] theorem tripDrive_negateTrip (s : State) : tripDrive (negateTrip s) = tripDrive s := rfl

@[simp] theorem tripDrive_setPresent (b : BranchNo) (closed : Bool) (s : State) :
    tripDrive (setPresent b closed s) = tripDrive s := rfl

@[simp] theorem tripDrive_setLatched (b : BranchNo) (closed : Bool) (s : State) :
    tripDrive (setLatched b closed s) = tripDrive s := rfl

/-! ## The commands that leave the rail set and TRIP_OUT alone -/

/-- The command answers a state with the rail set and the TRIP_OUT of `s`. -/
abbrev TripDriveStays (s : State) (o : Host.Outcome State Fault Refusal) : Prop :=
  Answers o fun t => tripDrive t = tripDrive s

/-- Of the commands that do not move the rail, a request served is a reply around an operation that stays, and a command
that comes without its request or its timer does nothing (log 4). -/
theorem exec_tripDrive (i : Instr) (still : movesRail i = false) : TripDriveStays s (exec i s) := by
  cases i
  case flowRequest | transfer | release | readAttn | clearAttn | setAttnMask | setBranch | admitBay | readStrips
      | readMeters | readRound | takeIncident | returnIncident | logResume | storeRead | storeWrite | restart | budget
      | readDemand =>
    simp only [exec, execFlowRequest, execTransfer, execRelease, execReadAttn, execClearAttn, execSetAttnMask,
      execSetBranch, execAdmitBay, execReadStrips, execReadMeters, execReadRound, execTakeIncident, execReturnIncident,
      execLogResume, execStoreRead, execStoreWrite, execRestart, execBudget, execReadDemand]
    split <;> exact answers_next (by simp [replyDock])
  case seatSettleExpires | primeTimeoutExpires | closeTimeExpires | drainLimitExpires =>
    simp only [exec, execSeatSettleExpires, execPrimeTimeoutExpires, execCloseTimeExpires, execDrainLimitExpires]
    split <;> exact answers_next (by simp [seatSettled])
  case presentCloses | latchCloses | latchOpens =>
    simp only [exec, execPresentCloses, execLatchCloses, execLatchOpens]
    split <;> exact answers_next (by simp [tripDrive_sledArrives])
  case interOctetTimeout | replySent | storeWriteCompletes =>
    simp only [exec, execInterOctetTimeout, execReplySent, execStoreWriteCompletes]
    split <;> exact answers_next (by simp [tripDrive_finishWrite])
  case octetReceived | frameReceived | badFrameCountReached | lineBreak | periodStart | pickupSample | warmRstAsserted
      | warmRstNegated | tripInNegated | primeGoodCountReached | adoptionGoodCountReached | idleCountReached
      | takeUpWindowsReached | balanceConfirmed | qerrRunReached | cleanRunReached | locateHoldExpires
      | budgetHoldExpires | fallbackTimeExpires =>
    exact answers_next (by simp)
  all_goals cases still

/-! ## The commands that may change the rail set or end a loading -/

theorem isolateTarget_tripOutLaw (target : Target) (h : TripOutLaw s) : TripOutLaw (isolateTarget target s) := by
  cases target with
  | branch b => exact tripOutLaw_of_tripDrive_eq (tripDrive_addBranchCause b .commanded false s) h
  | rail => exact addRailCause_tripOutLaw .commanded h

theorem clearTarget_tripOutLaw (target : Target) (code : Nat) (h : TripOutLaw s) :
    TripOutLaw (clearTarget target code s) := by
  cases target with
  | branch b =>
    simp only [clearTarget, clearBranch]
    split
    · exact h
    · exact removeBranchCause_tripOutLaw b _ h
  | rail =>
    simp only [clearTarget, clearRail]
    split
    · exact h
    · exact removeRailCause_tripOutLaw _ h

theorem serveRestore_tripOutLaw (tag : Byte) (h : TripOutLaw s) : TripOutLaw (serveRestore tag s) := by
  unfold serveRestore
  split
  · exact h
  · exact removeRailCause_tripOutLaw .tripLine h

/-- R138: the enables go, and TRIP_LINE comes. -/
theorem assertTrip_tripOutLaw (h : TripOutLaw s) : TripOutLaw (assertTrip s) := by
  have cleared : ∀ u, tripDrive (clearEnables u) = tripDrive u := fun _ => rfl
  unfold assertTrip
  dsimp only
  split
  · exact tripOutLaw_of_tripDrive_eq (cleared _) h
  · exact addRailCause_tripOutLaw .tripLine (tripOutLaw_of_tripDrive_eq (cleared _) h)

theorem execPresentOpens_tripOutLaw (b : BranchNo) (h : TripOutLaw s) : Answers (execPresentOpens b s) TripOutLaw := by
  unfold execPresentOpens
  split
  · exact answers_next h
  · refine answers_next ?_
    split
    · exact tripOutLaw_of_tripDrive_eq (by simp) h
    · split
      · exact enterVacant_tripOutLaw b h
      · exact tripOutLaw_of_tripDrive_eq (by simp) h

theorem execStripStateChange_tripOutLaw (n : StripNo) (level : StripState) (h : TripOutLaw s) :
    Answers (execStripStateChange n level s) TripOutLaw := by
  unfold execStripStateChange
  dsimp only
  split
  · exact answers_next h
  · exact answers_next (stripConsequences_tripOutLaw n _ level h)

theorem exec_tripOutLaw_of_movesRail (i : Instr) (moves : movesRail i = true) (h : TripOutLaw s) :
    Answers (exec i s) TripOutLaw := by
  cases i
  case powerOnReset hold speed => exact ⟨_, exec_powerOnReset hold speed s, (tripOutLaw_iff _).2 rfl⟩
  case settingsBlockRead acked dripFirst =>
    refine answers_next ?_
    split
    · exact readNextBlock_tripOutLaw acked dripFirst h
    · exact h
  case isolate =>
    simp only [exec, execIsolate]
    split
    · exact answers_next (isolateTarget_tripOutLaw _ h)
    · exact answers_next h
  case clearCause =>
    simp only [exec, execClearCause]
    split
    · exact answers_next (clearTarget_tripOutLaw _ _ h)
    · exact answers_next h
  case restore =>
    simp only [exec, execRestore]
    split
    · exact answers_next (serveRestore_tripOutLaw _ h)
    · exact answers_next h
  case plantStop =>
    simp only [exec, execPlantStop]
    split
    · exact answers_next (addRailCause_tripOutLaw .plantStop h)
    · exact answers_next h
  case plantResume =>
    simp only [exec, execPlantResume]
    split
    · exact answers_next (removeRailCause_tripOutLaw .plantStop h)
    · exact answers_next h
  case presentOpens b => exact execPresentOpens_tripOutLaw b h
  case closeCompletes b =>
    simp only [exec, execCloseCompletes]
    split
    · exact answers_next (completeClose_tripOutLaw b h)
    · exact answers_next h
  case windowClose order =>
    simp only [exec, execWindowClose]
    split
    · exact answers_next (closeWindow_tripOutLaw order h)
    · exact answers_next h
  case railBalanceConfirmed =>
    refine answers_next ?_
    split
    · exact addRailCause_tripOutLaw .railBalance h
    · exact h
  case tripInAsserted =>
    refine answers_next ?_
    split
    · exact h
    · exact assertTrip_tripOutLaw h
  case railCloseTimeExpires =>
    simp only [exec, execRailCloseTimeExpires]
    split
    · exact answers_next (tripOutLaw_of_tripDrive_eq (tripDrive_enterClosed _) h)
    · exact answers_next h
  case railOpenTimeExpires =>
    simp only [exec, execRailOpenTimeExpires]
    split
    · exact answers_next (enterOpened_tripOutLaw h)
    · exact answers_next h
  case stripStateChange n level => exact execStripStateChange_tripOutLaw n level h
  all_goals cases moves

/-- Every command that runs where TRIP_OUT follows the rail set leaves a state where it does. -/
theorem exec_tripOutLaw (i : Instr) (h : TripOutLaw s) : Answers (exec i s) TripOutLaw := by
  cases moves : movesRail i with
  | true => exact exec_tripOutLaw_of_movesRail i moves h
  | false =>
    obtain ⟨t, answer, same⟩ := exec_tripDrive i moves (s := s)
    exact ⟨t, answer, tripOutLaw_of_tripDrive_eq same h⟩

theorem tripDrive_tick (s : State) : tripDrive (tick s) = tripDrive s := by
  obtain ⟨_, _, frame⟩ := passed_frame s
  rw [tick_eq, frame]
  rfl

/-- The invariant of R141: a step is a millisecond, or the command at the front of the queue. -/
theorem step_tripOutLaw (h : TripOutLaw s) : Answers (step s) TripOutLaw := by
  unfold step
  split
  · exact answers_next (tripOutLaw_of_tripDrive_eq (tripDrive_tick s) h)
  · exact exec_tripOutLaw _ h

end

/-- Settles O11: the invariant over every step, the pin that shows the output, and the set and output that
`poweredOn` leaves. -/
theorem tripOutFollowsTheRailSet : Obligations.TripOutFollowsTheRailSet := by
  unfold Obligations.TripOutFollowsTheRailSet
  intro s t
  refine ⟨fun law stepped => ?invariant, rfl, fun hold speed => ?reset⟩
  case invariant =>
    obtain ⟨u, answer, kept⟩ := step_tripOutLaw law
    cases stepped.symm.trans answer
    exact kept
  case reset => exact ⟨poweredOn hold speed s, exec_powerOnReset hold speed s, rfl, rfl⟩

end Sys2Proof.Machine
end

section
/-! SUPPORT. SET_ATTN_MASK: the pending set as bits and the ATTN output as a cause, what a raise leaves in the set, and the
answer to a request while the settings are loading (R169, R172, R162). -/

namespace Sys2Proof.Machine

open Sys2Proof Sys2Proof.Safety

/-! ## The pending set as bits, and ATTN (R169, 10.1) -/

theorem AttnCause.number_lt (c : AttnCause) : c.number < 16 := by
  rcases c with c | c | c <;> cases c <;> decide

theorem causeBit_getLsbD (n : Nat) {i : Nat} (within : i < 16) : (causeBit n).getLsbD i = decide (n = i) := by
  simp only [causeBit, BitVec.getLsbD_shiftLeft, BitVec.getLsbD_one, within, decide_true, Bool.true_and,
    ← decide_not, ← Bool.decide_and, decide_eq_decide]
  omega

theorem foldl_causeBit_getLsbD (xs : List AttnEntry) (acc : BitVec 16) {i : Nat} (within : i < 16) :
    (xs.foldl (fun acc e => acc ||| causeBit e.cause.number) acc).getLsbD i =
      (acc.getLsbD i || xs.any fun e => decide (e.cause.number = i)) := by
  induction xs generalizing acc with
  | nil => simp
  | cons e xs ih =>
    rw [List.foldl_cons, ih, BitVec.getLsbD_or, causeBit_getLsbD _ within, List.any_cons, Bool.or_assoc]

theorem pendingBits_getLsbD (a : AttnLine) {i : Nat} (within : i < 16) :
    (pendingBits a).getLsbD i = a.entries.any fun e => decide (e.cause.number = i) := by
  rw [pendingBits, foldl_causeBit_getLsbD _ _ within, BitVec.ofNat_eq_ofNat, BitVec.getLsbD_zero, Bool.false_or]

/-- A bit of the pending set is set for a pending cause of that number. -/
theorem pendingBits_getLsbD_iff (a : AttnLine) {i : Nat} (within : i < 16) :
    (pendingBits a).getLsbD i = true ↔ ∃ c, isPending a c = true ∧ c.number = i := by
  simp only [pendingBits_getLsbD a within, isPending, List.any_eq_true, decide_eq_true_iff]
  constructor
  · rintro ⟨e, pending, number⟩
    exact ⟨e.cause, ⟨e, pending, rfl⟩, number⟩
  · rintro ⟨_, ⟨e, pending, rfl⟩, number⟩
    exact ⟨e, pending, number⟩

theorem ne_zero_iff_exists_getLsbD {w : Nat} (x : BitVec w) : x ≠ 0#w ↔ ∃ i < w, x.getLsbD i = true := by
  simp [BitVec.eq_of_getLsbD_eq_iff]

/-- R169: ATTN of a line is asserted while a pending cause of its set is in the mask. -/
theorem attnPin_iff (s : State) (l : LineNo) :
    attnPin s l = true ↔
      ∃ c, isPending (s.attnOf l) c = true ∧ (s.attnOf l).mask.getLsbD c.number = true := by
  rw [attnPin, attnAsserted, bne_iff_ne, BitVec.ofNat_eq_ofNat, ne_zero_iff_exists_getLsbD]
  simp only [BitVec.getLsbD_and, Bool.and_eq_true]
  constructor
  · rintro ⟨i, within, pending, masked⟩
    obtain ⟨c, raised, rfl⟩ := (pendingBits_getLsbD_iff _ within).1 pending
    exact ⟨c, raised, masked⟩
  · rintro ⟨c, pending, masked⟩
    exact ⟨c.number, c.number_lt, (pendingBits_getLsbD_iff _ c.number_lt).2 ⟨c, pending, rfl⟩, masked⟩

/-! ## What a raise leaves in the set (R169) -/

theorem AttnEntry.mem_merge_causes {x e : AttnEntry} {c : BranchCause} :
    c ∈ (x.merge e).causes ↔ c ∈ x.causes ∨ c ∈ e.causes := by
  by_cases held : c ∈ x.causes <;> simp [AttnEntry.merge, held]

theorem AttnEntry.merge_overrun (x e : AttnEntry) : (x.merge e).overrun = (x.overrun || e.overrun) := rfl

/-- R169: a raised entry stands in the set itself, or merged into one of its cause and key. -/
theorem self_or_merge_mem_addEntry (xs : List AttnEntry) (e : AttnEntry) :
    e ∈ addEntry xs e ∨ ∃ x : AttnEntry, x.cause = e.cause ∧ x.key = e.key ∧ x.merge e ∈ addEntry xs e := by
  induction xs with
  | nil => exact .inl (List.mem_singleton_self e)
  | cons x xs ih =>
    rw [addEntry]
    split
    next same => exact .inr ⟨x, same.1, same.2, List.mem_cons_self⟩
    next =>
      refine ih.imp (List.mem_cons_of_mem x) fun ⟨y, cause, key, held⟩ => ?_
      exact ⟨y, cause, key, List.mem_cons_of_mem x held⟩

/-- The entry of the raised cause and key holds the causes and the overrun flag it was raised with. -/
theorem raise_entry (l : LineNo) (e : AttnEntry) (s : State) :
    ∃ x ∈ ((raise l e s).attnOf l).entries, x.cause = e.cause ∧ x.key = e.key ∧ (∀ c ∈ e.causes, c ∈ x.causes) ∧
      (e.overrun = true → x.overrun = true) := by
  rw [raise_attnOf_same]
  rcases self_or_merge_mem_addEntry (s.attnOf l).entries e with held | ⟨x, cause, key, held⟩
  case inl => exact ⟨e, held, rfl, rfl, fun _ raised => raised, id⟩
  case inr =>
    refine ⟨x.merge e, held, cause, key, fun c raised => AttnEntry.mem_merge_causes.2 (.inr raised), fun overrun => ?_⟩
    rw [AttnEntry.merge_overrun, overrun, Bool.or_true]

/-! ## A frame while the settings are loading (R160, R162) -/

/-- The state when a frame has arrived whole and its line hunts for the next (R158, log 27). -/
def arrived (l : LineNo) (s : State) : State := (noteOctet l false s).updLine l fun ln => { ln with rx := .hunting }

/-- R160: a good frame that finds the service place empty is taken at once. -/
theorem exec_frameReceived_of_empty {s : State} {l : LineNo} (kind tag : Byte) {body : List Byte}
    (fits : body.length ≤ 48) (empty : (s.line l).service = .empty) :
    exec (.frameReceived l kind tag body (frameCheck kind tag body)) s =
      .next (takeForService l ⟨kind, tag, body⟩ (arrived l s)) := by
  simp [exec, execFrameReceived, fits, completeFrame, placeFrame, arrived, empty]

/-- R162: while the settings are loading, every request that its line takes but READ_ATTN is answered NOT_READY. -/
theorem takeForService_of_loading {s : State} {l : LineNo} {f : Frame} {k : Kind} (loading : s.loader.loading = true)
    (known : Kind.ofOctet f.kind = some k) (taken : k.takenOn (lineClass l) = true) (other : k ≠ .readAttn) :
    takeForService l f s = startReply l f.kind f.tag .notReady [] s := by
  simp [takeForService, checkRequest, known, taken, loading, other]

/-! ## The request (R172) -/

theorem exec_setAttnMask_of_handed {s : State} {l : LineNo} {tag : Byte} {set : BitVec 16}
    (h : Handed s l tag (.setAttnMask set)) : exec (.setAttnMask l) s = .next (serveSetAttnMask l tag set s) := by
  simp only [exec, execSetAttnMask, h]

theorem serveSetAttnMask_attnOf (l : LineNo) (tag : Byte) (set : BitVec 16) (s : State) :
    (serveSetAttnMask l tag set s).attnOf l = { s.attnOf l with mask := set &&& (lineClass l).allCauses } := by
  simp [serveSetAttnMask, maskOf, State.attnOf, State.updAttn]

/-- Settles O30: the request is read off `serveSetAttnMask` and its ATTN off `attnPin_iff`, the raised cause off
`raise_entry`, and a loading answers before the request is handed on. -/
theorem setAttnMaskReplacesTheMask : Obligations.SetAttnMaskReplacesTheMask := by
  unfold Obligations.SetAttnMaskReplacesTheMask
  intro s l tag set e body
  refine ⟨fun handed _ => ⟨exec_setAttnMask_of_handed handed, ?attn⟩, raise_entry l e s, fun empty loading fits => ?loading⟩
  case attn =>
    have pin := attnPin_iff (serveSetAttnMask l tag set s) l
    have mask := congrArg AttnLine.mask (serveSetAttnMask_attnOf l tag set s)
    rwa [mask] at pin
  case loading =>
    have refused := takeForService_of_loading (s := arrived l s) (l := l) (f := ⟨0x07, tag, body⟩) (k := .setAttnMask)
      loading rfl rfl (by decide)
    exact ⟨_, (exec_frameReceived_of_empty 0x07 tag fits empty).trans (congrArg _ refused),
      startReply_service l 0x07 tag .notReady [] (arrived l s), rfl⟩

end Sys2Proof.Machine
end

section
/-! SUPPORT. What a step can do, said once: the acts of the blocks on a branch record and on the state, the moves (an act, or
one of the operations that a bay without RAIL can be inside of), and that every command is a run of moves after time has
passed, or the end of a loading. A law that every act keeps is then kept by every step. -/

namespace Sys2Proof.Machine

open Sys2Proof Sys2Proof.Safety

/-! ## The acts on a branch record -/

/-- The dock states of a bay that neither takes flow nor closes nor is isolated. -/
def DockState.resting : DockState → Bool
  | .vacant | .seated | .held | .pullReady => true
  | .priming | .admitted | .adopting | .releasing | .draining | .isolating | .isolated => false

/-- R9, R10, R11, R27: an entry into VACANT, SEATED or HELD. -/
inductive ContactEntry : Branch → Branch → Prop
  | vacant (x : Branch) : ContactEntry x x.toVacant
  | seated (x : Branch) : ContactEntry x x.toSeated
  | held (x : Branch) (seatSettle : Nat) (byAdmit : Bool) : ContactEntry x (x.toHeld seatSettle byAdmit)

/-- What one event may do to a branch record. `free` must hold where an occupied bay may come out without RAIL that it
should hold, and `shut` where the bay leaves ISOLATING. -/
inductive BranchAct (p : Params) (free shut : Prop) : Branch → Branch → Prop
  | quiet (x : Branch) (present latched hold clearance : Bool) (dockTimer : Option Nat) (primeGood idle : Nat)
      (restricted : Option Nat) (takeUp presentRun latchRun : Nat) :
      BranchAct p free shut x { x with
        present := present
        latched := latched
        hold := hold
        clearance := clearance
        dockTimer := dockTimer
        primeGood := primeGood
        idle := idle
        restricted := restricted
        takeUp := takeUp
        presentRun := presentRun
        latchRun := latchRun }
  | account (x : Branch) (a : Account) (h : x.account.integrator ≤ 65535 → a.integrator ≤ 65535) :
      BranchAct p free shut x { x with account := a }
  | request (x : Branch) (r : Nat) (h : x.floor ≤ x.cap → x.floor ≤ r ∧ r ≤ x.cap) :
      BranchAct p free shut x { x with request := r, restricted := none, takeUp := 0 }
  | trim (x : Branch) (rate : Int) (h : x.dock = .admitted ∨ x.dock = .adopting) :
      BranchAct p free shut x { x with trim := nextTrim x rate }.redrive
  | setTo (x : Branch) (v : Limits) (h : v.floor ≤ v.cap ∧ v.cap ≤ 4000) :
      BranchAct p free shut x (x.setTo p.primeFlow v)
  | toPriming (x : Branch) (h : x.dock = .adopting ∨ x.dock = .held ∧ x.causes = []) :
      BranchAct p free shut x (x.toPriming p)
  | toAdmitted (x : Branch) (h : x.dock = .priming ∨ x.dock = .adopting) : BranchAct p free shut x x.toAdmitted
  | toReleasing (x : Branch) (h : x.dock.participating = true) : BranchAct p free shut x (x.toReleasing p)
  | toDraining (x : Branch) (h : x.dock = .releasing) : BranchAct p free shut x (x.toDraining p)
  | toPullReady (x : Branch) (h : x.dock = .seated ∨ x.dock = .held ∨ x.dock = .draining) :
      BranchAct p free shut x x.toPullReady
  | toIsolated (x : Branch) (h : x.dock = .isolating) (held : x.causes ≠ []) (closed : shut) :
      BranchAct p free shut x x.toIsolated
  | rest {x y : Branch} (entry : ContactEntry x y)
      (h : x.dock.resting = true ∨ x.dock = .isolating ∧ x.causes = [] ∧ shut)
      (arrives : x.dock = .vacant → y.dock ≠ .vacant → free) : BranchAct p free shut x y
  | addCause (x : Branch) (close : Option Nat) (c : BranchCause) (fresh : c ∉ x.causes)
      (arrives : x.dock = .vacant → c ≠ .rail → free) :
      BranchAct p free shut x (Branch.respond close { x with causes := x.causes ++ [c] })
  | dropCause (x : Branch) (c : BranchCause) (h : x.dock = .isolated → x.causes.filter (· ≠ c) ≠ [])
      (loses : c = .rail → free) : BranchAct p free shut x { x with causes := x.causes.filter (· ≠ c) }
  | exit {x y : Branch} (c : BranchCause) (h : x.dock = .isolated) (last : x.causes.filter (· ≠ c) = [])
      (entry : ContactEntry { x with causes := x.causes.filter (· ≠ c) } y) (loses : c = .rail → free) :
      BranchAct p free shut x y

/-! ## The acts on the state -/

/-- R159, R160: what `LineLaw` asks of one line. -/
abbrev Line.Fits (ln : Line) : Prop :=
  ln.waiting.length ≤ 2 ∧ (ln.waiting ≠ [] → ln.service ≠ .empty) ∧ ln.badCount ≤ 8

/-- R130, R133: a cause joins the rail set, and an OPEN or OPENING rail goes to CLOSING. -/
def railTakes (c : RailCause) (s : State) : State :=
  let t := s.updRail fun r => { r with causes := r.causes ++ [c] }
  match s.rail.state with
  | .opened | .opening => enterClosing t
  | .closing | .closed => t

/-- R131: the rail stands CLOSED and its OPEN record closes. -/
def railShuts (s : State) : State :=
  closeRecord .rail (s.updRail fun r => { r with state := .closed, timer := none, account := Account.zero })

/-- R85, R138: the trip level is ASSERTED, TRIP_LINE is raised and the enables of channels 0 to 12 are cleared. -/
def tripTaken (s : State) : State :=
  clearEnables (raiseSup .tripLine 0 ((s.updPins fun p => { p with trip := true }).updIso fun i =>
    { i with tripAsserted := true, tripCandidate := 0 }))

/-- R60, R61, R81: the grants, the record and the bypass duty of a round. -/
def roundTaken (s : State) : State :=
  driveBypass ((publishGrants (roundPlan s).given s).updAlloc
    (recordRound s s.alloc.pendingBudget (roundPlan s) (grantSum (publishGrants (roundPlan s).given s))))

/-- One act of a block. With `keep`, no occupied bay comes out without RAIL that it should hold (R126). -/
inductive Act (keep : Bool) : State → State → Prop
  | aside (s : State) (m : MeterUnit) (p : Pins) (d : Loader) (sample free : Nat) :
      Act keep s { s with meter := m, pins := p, loader := d, sampleTimer := sample, freeCount := free }
  | branch (s : State) (b : BranchNo) (f : Branch → Branch)
      (h : BranchAct s.params (keep = true → s.rail.state = .opened) (openSlot s (.branch b) = none) (s.br b)
        (f (s.br b))) : Act keep s (s.updBranch b f)
  | transfer (s : State) (i j : BranchNo) (m : Nat) (distinct : i ≠ j) (source : (s.br i).dock = .admitted)
      (target : (s.br j).dock = .admitted) (spare : m ≤ (s.br i).grant - (s.br i).floor)
      (room : m ≤ (s.br j).cap - (s.br j).grant) :
      Act keep s ((s.updBranch i (Branch.giveUp m)).updBranch j (Branch.takeOver m))
  | round (s : State) : Act keep s (roundTaken s)
  | alloc (s : State) (f : Allocator → Allocator) (budget : (f s.alloc).effectiveBudget = s.alloc.effectiveBudget)
      (bypass : (f s.alloc).bypassTarget = s.alloc.bypassTarget) : Act keep s (s.updAlloc f)
  | railRecord (s : State) (timer : Option Nat) (a : Account)
      (h : s.rail.account.integrator ≤ 65535 → a.integrator ≤ 65535) :
      Act keep s (s.updRail fun r => { r with timer := timer, account := a })
  | railTakes (s : State) (c : RailCause) (fresh : c ∉ s.rail.causes) (h : keep = true → s.rail.state ≠ .opened) :
      Act keep s (railTakes c s)
  | railDrops (s : State) (c : RailCause) :
      Act keep s (s.updRail fun r => { r with causes := r.causes.filter (· ≠ c) })
  | railShuts (s : State) (h : s.rail.state = .closing) : Act keep s (railShuts s)
  | railOpening (s : State) (h : s.rail.state = .closed) (empty : s.rail.causes = []) : Act keep s (enterOpening s)
  | railOpened (s : State) (h : s.rail.state = .opening) :
      Act keep s (s.updRail fun r => { r with state := .opened, timer := none })
  | ringAdd (s : State) (g : Target) (c : Cause) (byContact : Bool) (h : stillClosing s g ∨ standsClosed s g = true) :
      Act keep s (ringAdd g c byContact s)
  | closeRecord (s : State) (g : Target) : Act keep s (closeRecord g s)
  | slot (s : State) (k : SlotNo) (hotPull : Bool) (loss : Nat)
      (h : (s.slot k).loss ≤ 16777215 → loss ≤ 16777215) :
      Act keep s (s.updSlot k fun r => { r with hotPull := hotPull, loss := loss })
  | freeSlot (s : State) (k : SlotNo) (h : (s.slot k).state = .closed) : Act keep s (freeSlot k s)
  | suspend (s : State) (x : Bool) : Act keep s (s.updRing fun g => { g with suspended := x })
  | iso (s : State) (f : IsoUnit → IsoUnit) (h : (f s.iso).tripAsserted = true → s.iso.tripAsserted = true) :
      Act keep s (s.updIso f)
  | trip (s : State) : Act keep s (tripTaken s)
  | enables (s : State) (h : s.iso.tripAsserted = false) : Act keep s (setEnables s)
  | period (s : State) : Act keep s (startPeriod s)
  | drip (s : State) (f : DripUnit → DripUnit) (h : ∀ n, (Vec.pick (f s.drip).strips n).changed = (s.strip n).changed) :
      Act keep s (s.updDrip f)
  | takeStrip (s : State) (n : StripNo) (level : StripState) : Act keep s (takeStrip n level s)
  | emptyDelta (s : State) : Act keep s (emptyDelta s)
  | raise (s : State) (l : LineNo) (e : AttnEntry) (cls : e.cause ∈ (lineClass l).causes)
      (h : e.cause ≠ .sup .stripChange) : Act keep s (raise l e s)
  | dropCause (s : State) (l : LineNo) (c : AttnCause) (h : c.leavesOnRead = true) : Act keep s (dropCause l c s)
  | clearCauses (s : State) (l : LineNo) (set : BitVec 16) : Act keep s (clearCauses l set s)
  | mask (s : State) (l : LineNo) (set : BitVec 16) : Act keep s (s.updAttn l fun a => { a with mask := maskOf l set })
  | line (s : State) (l : LineNo) (f : Line → Line) (h : (s.line l).Fits → (f (s.line l)).Fits) :
      Act keep s (s.updLine l f)
  | clearCounts (s : State) : Act keep s { s with lines := Vec.map (fun ln => { ln with badCount := 0 }) s.lines }
  | window (s : State) (n : BranchNo) (w : Window) (h : windowStatus s n w = .ok) : Act keep s (replaceWindow n w s)
  | store (s : State) (k : Fin 4) (h : Fin 2) (f : Nat → Byte) : Act keep s (s.storeHalf k h f)
  | warm (s : State) : Act keep s (warmRestart s)
  | reset (s : State) (hold speed : Bool) : Act keep s (poweredOn hold speed s)

theorem BranchAct.mono {p : Params} {free free' shut : Prop} {x y : Branch} (imp : free → free')
    (h : BranchAct p free shut x y) : BranchAct p free' shut x y := by
  cases h with
  | quiet => exact .quiet ..
  | account a h => exact .account _ a h
  | request r h => exact .request _ r h
  | trim rate h => exact .trim _ rate h
  | setTo v h => exact .setTo _ v h
  | toPriming h => exact .toPriming _ h
  | toAdmitted h => exact .toAdmitted _ h
  | toReleasing h => exact .toReleasing _ h
  | toDraining h => exact .toDraining _ h
  | toPullReady h => exact .toPullReady _ h
  | toIsolated h held closed => exact .toIsolated _ h held closed
  | rest entry h arrives => exact .rest entry h fun v n => imp (arrives v n)
  | addCause close c fresh arrives => exact .addCause _ close c fresh fun v n => imp (arrives v n)
  | dropCause c h loses => exact .dropCause _ c h fun e => imp (loses e)
  | exit c h last entry loses => exact .exit c h last entry fun e => imp (loses e)

/-- Every act is one that is not held to keep RAIL on the occupied bays. -/
theorem Act.weaken {keep : Bool} {s t : State} (h : Act keep s t) : Act false s t := by
  cases h with
  | aside => exact .aside ..
  | branch b f h => exact .branch _ b f (h.mono fun _ no => nomatch no)
  | transfer i j m distinct source target spare room => exact .transfer _ i j m distinct source target spare room
  | round => exact .round _
  | alloc f budget bypass => exact .alloc _ f budget bypass
  | railRecord timer a h => exact .railRecord _ timer a h
  | railTakes c fresh h => exact .railTakes _ c fresh nofun
  | railDrops c => exact .railDrops _ c
  | railShuts h => exact .railShuts _ h
  | railOpening h empty => exact .railOpening _ h empty
  | railOpened h => exact .railOpened _ h
  | ringAdd g c byContact h => exact .ringAdd _ g c byContact h
  | closeRecord g => exact .closeRecord _ g
  | slot k hotPull loss h => exact .slot _ k hotPull loss h
  | freeSlot k h => exact .freeSlot _ k h
  | suspend x => exact .suspend _ x
  | iso f h => exact .iso _ f h
  | trip => exact .trip _
  | enables h => exact .enables _ h
  | period => exact .period _
  | drip f h => exact .drip _ f h
  | takeStrip n level => exact .takeStrip _ n level
  | emptyDelta => exact .emptyDelta _
  | raise l e cls h => exact .raise _ l e cls h
  | dropCause l c h => exact .dropCause _ l c h
  | clearCauses l set => exact .clearCauses _ l set
  | mask l set => exact .mask _ l set
  | line l f h => exact .line _ l f h
  | clearCounts => exact .clearCounts _
  | window n w h => exact .window _ n w h
  | store k h f => exact .store _ k h f
  | warm => exact .warm _
  | reset hold speed => exact .reset _ hold speed

/-! ## Runs and moves -/

/-- A run of acts. -/
abbrev Runs (keep : Bool) : State → State → Prop := Relation.ReflTransGen (Act keep)

/-- An act that keeps RAIL on the occupied bays, or one of the three operations inside of which a bay may lack it. -/
inductive Move : State → State → Prop
  | act {s t : State} (h : Act true s t) : Move s t
  | addCause (s : State) (b : BranchNo) (c : BranchCause) (x : Bool) : Move s (addBranchCause b c x s)
  | addRail (s : State) (c : RailCause) : Move s (addRailCause c s)
  | arrive (s : State) (b : BranchNo) (h : (s.br b).dock = .vacant) : Move s (sledArrives b s)

/-- A run of moves. -/
abbrev Moves : State → State → Prop := Relation.ReflTransGen Move

section

variable {keep : Bool} {s t u : State}

theorem Act.runs (h : Act keep s t) : Runs keep s t := .single h

theorem Runs.weaken (h : Runs keep s t) : Runs false s t := Relation.ReflTransGen.mono (fun _ _ => Act.weaken) _ _ h

theorem Runs.moves (h : Runs true s t) : Moves s t := Relation.ReflTransGen.mono (fun _ _ => Move.act) _ _ h

theorem Act.moves (h : Act true s t) : Moves s t := h.runs.moves

theorem foldl_reaches {α : Type} {r : State → State → Prop} {f : State → α → State}
    (turn : ∀ x s, Relation.ReflTransGen r s (f s x)) (xs : List α) (s : State) :
    Relation.ReflTransGen r s (xs.foldl f s) := by
  induction xs generalizing s with
  | nil => exact .refl
  | cons x xs ih => exact (turn x s).trans (ih _)

theorem forBranches_reaches {r : State → State → Prop} {f : BranchNo → State → State}
    (turn : ∀ b s, Relation.ReflTransGen r s (f b s)) (s : State) : Relation.ReflTransGen r s (forBranches f s) :=
  foldl_reaches turn allBranches s

theorem State.updBranch_updBranch (s : State) (b : BranchNo) (f g : Branch → Branch) :
    (s.updBranch b f).updBranch b g = s.updBranch b fun x => g (f x) := by
  simp only [State.updBranch, State.br, Vec.pick_put_same]
  simp [Vec.put]

theorem State.updLine_updLine (s : State) (l : LineNo) (f g : Line → Line) :
    (s.updLine l f).updLine l g = s.updLine l fun x => g (f x) := by
  simp only [State.updLine, State.line, Vec.pick_put_same]
  simp [Vec.put]

/-! ## Raising -/

theorem raiseSup_runs {c : SupCause} (h : c ≠ .stripChange) (key : Nat) (s : State) : Runs keep s (raiseSup c key s) :=
  (Act.raise s supLine _ c.mem_class (by simpa [AttnEntry.of] using h)).runs

theorem raisePlant_runs (c : PlantCause) (s : State) : Runs keep s (raisePlant c s) :=
  (Act.raise s plantLine _ c.mem_class (by simp [AttnEntry.of])).runs

theorem raiseOwner_runs (b : BranchNo) (c : SledCause) (xs : List BranchCause) (s : State) :
    Runs keep s (raiseOwner b c xs s) := by
  unfold raiseOwner
  split
  · exact .refl
  · exact (Act.raise s _ _ (c.mem_class _) (by simp)).runs

/-! ## The gate -/

theorem gate_runs (b : BranchNo) (s : State) : Runs keep s (gate b s) := by
  obtain stays | ⟨opens, primes⟩ := gate_eq b s
  · rw [stays]
  · rw [primes]
    simp only [gateOpen, Bool.and_eq_true, decide_eq_true_eq, List.isEmpty_iff] at opens
    exact (Act.branch s b _ (.toPriming _ (.inr ⟨opens.1.1.1.1.1, opens.1.2⟩))).runs

theorem gateAll_runs (s : State) : Runs keep s (gateAll s) := forBranches_reaches gate_runs s

/-! ## Causes of a branch -/

theorem respond_stands (close : Option Nat) (br : Branch) :
    (br.respond close).dock = .isolating ∨ (br.respond close).dock = .isolated := by
  rw [Branch.respond_dock]
  cases br.dock <;> simp

theorem addCauseCore_runs (b : BranchNo) (c : BranchCause) (x : Bool) (s : State)
    (h : keep = true → (s.br b).dock = .vacant → c ≠ .rail → s.rail.state = .opened) :
    Runs keep s (addCauseCore b c x s) := by
  unfold addCauseCore
  split
  case isTrue => exact .refl
  case isFalse fresh =>
    have added : Runs keep s (s.updBranch b fun br => Branch.respond (closeTimer s) { br with causes := br.causes ++ [c] }) :=
      (Act.branch s b _ (.addCause _ _ c (by simpa using fresh) fun v n k => h k v n)).runs
    have told := added.trans (raiseOwner_runs b .isolated [c] _)
    dsimp only
    split
    · refine told.tail (.ringAdd _ _ _ _ ?_)
      simpa [stillClosing, standsClosed] using respond_stands (closeTimer s) _
    · exact told

theorem addRailCore_runs (b : BranchNo) (x : Bool) (s : State) : Runs keep s (addCauseCore b .rail x s) :=
  addCauseCore_runs b .rail x s fun _ _ no => absurd rfl no

theorem leftVacant_runs (b : BranchNo) (s : State) : Runs keep s (leftVacant b s) := by
  unfold leftVacant
  refine .trans ?_ (gateAll_runs _)
  split
  · exact .refl
  · exact addRailCore_runs b false s

theorem addBranchCause_acts (b : BranchNo) (c : BranchCause) (x : Bool) (s : State) :
    Runs false s (addBranchCause b c x s) := by
  have core : Runs false s (addCauseCore b c x s) := addCauseCore_runs b c x s nofun
  unfold addBranchCause
  dsimp only
  split
  · exact core.trans (leftVacant_runs b _)
  · exact core

theorem addRailToOccupied_runs (s : State) : Runs keep s (addRailToOccupied s) :=
  forBranches_reaches (fun b s => by
    split
    · exact .refl
    · exact addRailCore_runs b false s) s

/-! ## Causes of the rail -/

/-- R130: after a cause the rail is CLOSING or CLOSED, and one that was OPEN has its occupied bays told. -/
theorem railRespond_eq (c : RailCause) (s : State) :
    railRespond (s.updRail fun r => { r with causes := r.causes ++ [c] }) =
      if s.rail.state = .opened then addRailToOccupied (railTakes c s) else railTakes c s := by
  unfold railRespond railTakes
  cases h : s.rail.state <;> simp [h]

theorem railTakes_state (c : RailCause) (s : State) :
    (railTakes c s).rail.state = .closing ∨ (railTakes c s).rail.state = .closed := by
  unfold railTakes
  cases h : s.rail.state <;> simp [enterClosing, h]

theorem standsClosed_rail (s : State) : standsClosed s .rail = true ↔ s.rail.state = .closed := by simp [standsClosed]

theorem addRailCause_acts (c : RailCause) (s : State) : Runs false s (addRailCause c s) := by
  unfold addRailCause
  split
  case isTrue => exact .refl
  case isFalse fresh =>
    dsimp only
    rw [railRespond_eq]
    have taken : Runs false s (railTakes c s) := (Act.railTakes s c (by simpa using fresh) (by simp)).runs
    have responded : Runs false s (if s.rail.state = .opened then addRailToOccupied (railTakes c s) else railTakes c s) := by
      split
      · exact taken.trans (addRailToOccupied_runs _)
      · exact taken
    have driven : Runs false s (driveTripOut
        (if s.rail.state = .opened then addRailToOccupied (railTakes c s) else railTakes c s)) :=
      responded.tail (.iso _ _ id)
    split
    · refine driven.tail (.ringAdd _ _ _ _ ?_)
      have state := railTakes_state c s
      split <;> simpa [stillClosing, standsClosed_rail] using state
    · exact driven

theorem sledArrives_acts (b : BranchNo) (s : State) (h : (s.br b).dock = .vacant) : Runs false s (sledArrives b s) := by
  have entered : ∀ f : Branch → Branch, ContactEntry (s.br b) (f (s.br b)) → Runs false s (s.updBranch b f) :=
    fun f entry => (Act.branch s b f (.rest entry (.inl (by rw [h]; rfl)) fun _ _ => by simp)).runs
  unfold sledArrives
  refine .trans ?_ (leftVacant_runs b _)
  split
  · unfold enterHeld
    dsimp only
    split
    · exact (entered _ (.held ..)).trans (gate_runs b _)
    · exact entered _ (.held ..)
  · exact entered _ (.seated _)

theorem Move.acts (h : Move s t) : Runs false s t := by
  cases h with
  | act h => exact .single h.weaken
  | addCause b c x => exact addBranchCause_acts b c x s
  | addRail c => exact addRailCause_acts c s
  | arrive b h => exact sledArrives_acts b s h

theorem Moves.acts (h : Moves s t) : Runs false s t := by
  induction h with
  | refl => exact .refl
  | tail _ last ih => exact ih.trans last.acts

end

end Sys2Proof.Machine
end

section
/-! SUPPORT. Every shared operation of the blocks as a run of acts, or of moves where it may add a cause to a VACANT bay or to
the rail. -/

namespace Sys2Proof.Machine

open Sys2Proof Sys2Proof.Safety

section

variable {keep : Bool} {s : State}

/-! ## Dock transitions, and what the common strips bring -/

theorem commonWet_moves (n : StripNo) (s : State) : Moves s (commonWet n s) := by
  have told : Moves s (raiseSup .commonWet n.val s) := (raiseSup_runs (by decide) _ _).moves
  unfold commonWet
  dsimp only
  split
  · exact told
  · exact told.tail (.act (.drip _ _ fun _ => rfl))
  · exact told.tail (.addRail _ _)

theorem enterVacant_after (b : BranchNo) (s : State) : Moves (s.updBranch b Branch.toVacant) (enterVacant b s) := by
  unfold enterVacant
  dsimp only
  split
  · exact commonWet_moves _ _
  · exact .refl

theorem enterHeld_after (b : BranchNo) (byAdmit : Bool) (s : State) :
    Runs keep (s.updBranch b (Branch.toHeld s.params.seatSettle byAdmit)) (enterHeld b byAdmit s) := by
  unfold enterHeld
  dsimp only
  split
  · exact gate_runs b _
  · exact .refl

/-- R27, R28: an entry by the contacts, and what follows it. -/
theorem enterByContacts_entry (b : BranchNo) (s : State) :
    ∃ f, ContactEntry (s.br b) (f (s.br b)) ∧ Moves (s.updBranch b f) (enterByContacts b s) := by
  unfold enterByContacts
  split
  · exact ⟨_, .vacant _, enterVacant_after b s⟩
  · split
    · exact ⟨_, .held .., (enterHeld_after b false s).moves⟩
    · exact ⟨_, .seated _, .refl⟩

theorem enterPullReady_runs (b : BranchNo) (s : State)
    (h : (s.br b).dock = .seated ∨ (s.br b).dock = .held ∨ (s.br b).dock = .draining) : Runs keep s (enterPullReady b s) :=
  (Act.branch s b _ (.toPullReady _ h)).runs.trans (raiseOwner_runs b _ _ _)

theorem enterAdmitted_runs (b : BranchNo) (s : State) (h : (s.br b).dock = .priming ∨ (s.br b).dock = .adopting) :
    Runs keep s (enterAdmitted b s) :=
  (Act.branch s b _ (.toAdmitted _ h)).runs.trans (raiseOwner_runs b _ _ _)

/-- R125: a cause that is not RAIL leaves a set, or RAIL does while the rail is OPEN. -/
theorem removeBranchCause_moves (b : BranchNo) (c : BranchCause) (s : State) (h : c = .rail → s.rail.state = .opened) :
    Moves s (removeBranchCause b c s) := by
  unfold removeBranchCause
  dsimp only
  split
  · split
    case isTrue leaves =>
      simp only [State.updBranch_br_same, Bool.and_eq_true, decide_eq_true_eq, List.isEmpty_iff] at leaves
      obtain ⟨f, entry, after⟩ :=
        enterByContacts_entry b (s.updBranch b fun br => { br with causes := br.causes.filter (· ≠ c) })
      rw [State.updBranch_updBranch] at after
      rw [State.updBranch_br_same] at entry
      exact (Act.branch s b _ (.exit c leaves.2 leaves.1 entry fun e _ => h e)).moves.trans after
    case isFalse stays =>
      simp only [State.updBranch_br_same, Bool.and_eq_true, decide_eq_true_eq, List.isEmpty_iff] at stays
      exact (Act.branch s b _ (.dropCause _ c (fun isolated empty => stays ⟨empty, isolated⟩) fun e _ => h e)).moves
  · exact .refl

theorem removeRailCause_runs (c : RailCause) (s : State) : Runs keep s (removeRailCause c s) := by
  unfold removeRailCause
  dsimp only
  split
  · have dropped : Runs keep s (driveTripOut (s.updRail fun r => { r with causes := r.causes.filter (· ≠ c) })) :=
      (Act.railDrops s c).runs.tail (.iso _ _ id)
    split
    case isTrue shut =>
      simp only [Bool.and_eq_true, decide_eq_true_eq, List.isEmpty_iff] at shut
      exact dropped.tail (.railOpening _ shut.2 shut.1)
    case isFalse => exact dropped
  · exact .refl

theorem enterClosed_runs (h : s.rail.state = .closing) : Runs keep s (enterClosed s) := by
  have shuts : Runs keep s (raisePlant .railClosed (railShuts s)) := (Act.railShuts s h).runs.trans (raisePlant_runs _ _)
  unfold enterClosed
  dsimp only
  split
  case isTrue empty =>
    exact shuts.tail (.railOpening _ (by simp [railShuts]) (List.isEmpty_iff.1 empty))
  case isFalse => exact shuts

theorem enterOpened_moves (h : s.rail.state = .opening) : Moves s (enterOpened s) :=
  (Act.railOpened s h).moves.trans (forBranches_reaches (fun b u => by
    split
    case isTrue opened => exact removeBranchCause_moves b .rail u fun _ => opened
    case isFalse => exact .refl) _)

/-! ## Contacts and strips -/

theorem markHotPull_runs (b : BranchNo) (s : State) : Runs keep s (markHotPull b s) := by
  unfold markHotPull
  split
  · exact .refl
  · exact (Act.slot s _ true _ id).runs

theorem contactOpened_moves (b : BranchNo) (s : State) : Moves s (contactOpened b s) := by
  unfold contactOpened
  split
  · exact (Relation.ReflTransGen.single (.addCause s b _ true)).trans (markHotPull_runs b _).moves
  · exact (markHotPull_runs b s).moves

theorem setPresent_runs (b : BranchNo) (closed : Bool) (s : State) : Runs keep s (setPresent b closed s) :=
  (Act.aside s ..).runs.tail (.branch _ b _ (.quiet ..))

theorem setLatched_runs (b : BranchNo) (closed : Bool) (s : State) : Runs keep s (setLatched b closed s) :=
  (Act.aside s ..).runs.tail (.branch _ b _ (.quiet ..))

/-- R10, R14, R24: an entry into VACANT, SEATED or HELD from SEATED, HELD or PULL_READY. -/
theorem rest_runs (b : BranchNo) (f : Branch → Branch) (s : State) (entry : ContactEntry (s.br b) (f (s.br b)))
    (h : (s.br b).dock.resting = true) (occupied : (s.br b).dock ≠ .vacant) : Runs keep s (s.updBranch b f) :=
  (Act.branch s b f (.rest entry (.inl h) fun v => absurd v occupied)).runs

theorem stripEntersWet_moves (n : StripNo) (s : State) : Moves s (stripEntersWet n s) := by
  unfold stripEntersWet
  split
  · split
    · exact commonWet_moves n s
    · exact .single (.addCause ..)
  · exact commonWet_moves n s

theorem stripConsequences_moves (n : StripNo) (old level : StripState) (s : State) :
    Moves s (stripConsequences n old level s) := by
  unfold stripConsequences
  split
  · exact .refl
  · split
    · exact stripEntersWet_moves n s
    · split
      · exact (gateAll_runs s).moves
      · exact .refl

theorem assertTrip_moves (s : State) : Moves s (assertTrip s) := by
  have taken : Moves s (tripTaken s) := (Act.trip s).moves
  unfold assertTrip
  dsimp only
  split
  · exact taken
  · exact taken.tail (.addRail _ _)

/-! ## The meters -/

theorem raiseDegraded_runs (cs : List ChannelNo) (s : State) : Runs keep s (raiseDegraded cs s) :=
  foldl_reaches (fun c s => raiseSup_runs (by decide) c.val s) cs s

theorem closeMeters_runs (s : State) : Runs keep s (closeMeters s) := by
  unfold closeMeters
  exact ((Act.aside s ..).runs.tail (.clearCounts _)).trans (raiseDegraded_runs _ _)

theorem setHealth_runs (c : ChannelNo) (f : MeterChannel → MeterChannel) (s : State) : Runs keep s (setHealth c f s) :=
  (Act.aside s ..).runs

/-! ## The Allocator -/

/-- R55, R60, R72: what a round tells when it has been published. -/
theorem runRound_eq (s : State) : runRound s = raiseDemandChanged (forBranches
    (fun b u => if (s.br b).dock.participating then raiseGrantChanged b (s.br b).grant u else u)
    (if (roundPlan s).short && !s.alloc.shortfall then raiseShortfall (roundTaken s) else roundTaken s)) := rfl

theorem raiseGrantChanged_runs (b : BranchNo) (old : Nat) (s : State) : Runs keep s (raiseGrantChanged b old s) := by
  unfold raiseGrantChanged
  split
  · exact raiseOwner_runs b _ _ s
  · exact .refl

theorem raiseDemandChanged_runs (s : State) : Runs keep s (raiseDemandChanged s) := by
  unfold raiseDemandChanged
  split
  · exact raisePlant_runs _ _
  · exact .refl

theorem runRound_runs (s : State) : Runs keep s (runRound s) := by
  have taken : Runs keep s (roundTaken s) := (Act.round s).runs
  rw [runRound_eq]
  refine .trans (.trans ?_ (forBranches_reaches (fun b u => ?_) _)) (raiseDemandChanged_runs _)
  · split
    · exact (taken.trans (raisePlant_runs _ _)).trans (raiseSup_runs (by decide) _ _)
    · exact taken
  · split
    · exact raiseGrantChanged_runs b _ u
    · exact .refl

theorem restrict_runs (b : BranchNo) (s : State) : Runs keep s (restrict b s) := by
  have restricted : ∀ v, Runs keep s (s.updBranch b fun br => { br with restricted := some v, takeUp := 0 }) :=
    fun v => (Act.branch s b _ (.quiet ..)).runs
  unfold restrict
  dsimp only
  split
  · exact restricted _
  · exact ((restricted _).trans (raiseOwner_runs b _ _ _)).trans (raiseSup_runs (by decide) _ _)

theorem takeUpCheck_runs (b : BranchNo) (s : State) : Runs keep s (takeUpCheck b s) := by
  unfold takeUpCheck
  split
  · split
    · split
      · exact restrict_runs b s
      · exact (Act.branch s b _ (.quiet ..)).runs
    · exact (Act.branch s b _ (.quiet ..)).runs
  · exact .refl

theorem closeAllocator_runs (s : State) : Runs keep s (closeAllocator s) :=
  (forBranches_reaches takeUpCheck_runs s).trans (runRound_runs _)

theorem fallBack_runs (s : State) : Runs keep s (fallBack s) := .single (.alloc _ _ rfl rfl)

theorem becomeStale_runs (s : State) : Runs keep s (becomeStale s) := by
  have told : Runs keep s (raiseStale (s.updAlloc fun a => { a with ageState := .stale })) :=
    .trans (.trans (.single (.alloc _ _ rfl rfl)) (raisePlant_runs _ _)) (raiseSup_runs (by decide) _ _)
  unfold becomeStale
  dsimp only
  split
  · exact told.trans (fallBack_runs _)
  · exact told

/-! ## The balance, the locate, the trims and the dock checks -/

theorem judgeAccount_integrator (threshold confirm above a : Nat) :
    (judgeAccount threshold confirm above a).integrator = a := by
  unfold judgeAccount
  dsimp only
  split
  · rfl
  · split
    · rfl
    · split <;> rfl

theorem step_integrator_le (decayShift threshold confirm : Nat) (e : Int) (x : Account) :
    (x.step decayShift threshold confirm e).integrator ≤ 65535 := by
  rw [Account.step, judgeAccount_integrator, nextIntegrator, clampInt]
  omega

theorem foldl_addBranchCause_moves {α : Type} (b : α → BranchNo) (c : α → BranchCause) (xs : List α) (s : State) :
    Moves s (xs.foldl (fun s x => addBranchCause (b x) (c x) false s) s) :=
  foldl_reaches (fun x s => .single (.addCause s (b x) (c x) false)) xs s

theorem balanceBranch_moves (b : BranchNo) (s : State) : Moves s (balanceBranch b s) := by
  unfold balanceBranch
  split
  · exact (Act.branch s b _ (.account _ _ fun _ => step_integrator_le ..)).moves.trans
      (foldl_addBranchCause_moves (fun _ => b) id _ _)
  · exact .refl

theorem balanceRail_moves (s : State) : Moves s (balanceRail s) := by
  have judged : Moves s (s.updRail fun r => { r with account := newRailAccount s }) :=
    (Act.railRecord s s.rail.timer _ fun _ => step_integrator_le ..).moves
  unfold balanceRail
  dsimp only
  split
  · split
    · exact judged.tail (.addRail _ _)
    · exact judged
  · exact .refl

theorem addLoss_runs (g : Target) (d : Int) (s : State) : Runs keep s (addLoss g d s) := by
  unfold addLoss
  split
  · exact .refl
  case h_2 k _ => exact (Act.slot s k (s.slot k).hotPull _ fun _ => Nat.min_le_left _ _).runs

theorem handLosses_runs (s : State) : Runs keep s (handLosses s) := by
  unfold handLosses
  dsimp only
  have branches := forBranches_reaches (r := Act keep)
    (f := fun b s => if supplyHealthy s b && returnHealthy s b then addLoss (.branch b) (imbalance s b) s else s)
    (fun b s => by
      split
      · exact addLoss_runs _ _ s
      · exact .refl) s
  split
  · exact branches.trans (addLoss_runs _ _ _)
  · exact branches

theorem closeBalance_moves (s : State) : Moves s (closeBalance s) :=
  ((forBranches_reaches balanceBranch_moves s).trans (balanceRail_moves _)).trans (handLosses_runs _).moves

theorem endLocate_runs (o : LocateOutcome) (s : State) : Runs keep s (endLocate o s) :=
  .single (.drip _ _ fun _ => rfl)

theorem closeLocate_moves (s : State) : Moves s (closeLocate s) := by
  unfold closeLocate
  split
  · dsimp only
    split
    · exact (foldl_addBranchCause_moves id (fun _ => .located) _ s).trans (endLocate_runs _ _).moves
    · split
      · exact (Relation.ReflTransGen.single (.addRail s _)).trans (endLocate_runs _ _).moves
      · split
        · exact (endLocate_runs _ s).moves
        · exact .single (.act (.drip _ _ fun _ => rfl))
  · exact .refl

theorem trimBranch_runs (b : BranchNo) (s : State) : Runs keep s (trimBranch b s) := by
  unfold trimBranch
  split
  case isTrue h =>
    simp only [trims, Bool.and_eq_true, Bool.or_eq_true, decide_eq_true_eq] at h
    exact (Act.branch s b _ (.trim _ _ h.1.1)).runs
  case isFalse => exact .refl

theorem closeValves_runs (s : State) : Runs keep s (closeValves s) := forBranches_reaches trimBranch_runs s

theorem primingCheck_runs (b : BranchNo) (s : State) (h : (s.br b).dock = .priming) : Runs keep s (primingCheck b s) := by
  unfold primingCheck
  split
  · split
    · split
      · exact enterAdmitted_runs b s (.inl h)
      · exact (Act.branch s b _ (.quiet ..)).runs
    · exact (Act.branch s b _ (.quiet ..)).runs
  · exact .refl

theorem adoptionCheck_runs (b : BranchNo) (s : State) (h : (s.br b).dock = .adopting) :
    Runs keep s (adoptionCheck b s) := by
  unfold adoptionCheck
  split
  · split
    · split
      · exact enterAdmitted_runs b s (.inr h)
      · exact (Act.branch s b _ (.quiet ..)).runs
    · split
      · split
        · exact (Act.branch s b _ (.toPriming _ (.inl h))).runs
        · exact (Act.branch s b _ (.quiet ..)).runs
      · exact (Act.branch s b _ (.quiet ..)).runs
  · exact .refl

theorem drainCheck_runs (b : BranchNo) (s : State) (h : (s.br b).dock = .draining) : Runs keep s (drainCheck b s) := by
  unfold drainCheck
  split
  · exact enterPullReady_runs b s (.inr (.inr h))
  · exact .refl

theorem closeDock_runs (b : BranchNo) (s : State) : Runs keep s (closeDock b s) := by
  unfold closeDock
  split
  case h_1 h => exact primingCheck_runs b s h
  case h_2 h => exact adoptionCheck_runs b s h
  case h_3 h => exact drainCheck_runs b s h
  all_goals exact .refl

theorem takePart_moves (p : ClosePart) (s : State) : Moves s (takePart s p) := by
  cases p with
  | dock b => exact (closeDock_runs b s).moves
  | allocator => exact (closeAllocator_runs s).moves
  | valves => exact (closeValves_runs s).moves
  | balance => exact closeBalance_moves s
  | locate => exact closeLocate_moves s

theorem closeWindow_moves (order : List ClosePart) (s : State) : Moves s (closeWindow order s) :=
  (closeMeters_runs s).moves.trans (foldl_reaches takePart_moves (closeOrder order) _)

end

end Sys2Proof.Machine
end

section
/-! SUPPORT. The end of a loading as a run of its own acts, the requests and the lines as runs, and the decomposition of every
command and every step; the principle that turns a law of the acts into a law of the steps. -/

namespace Sys2Proof.Machine

open Sys2Proof Sys2Proof.Safety

/-! ## The end of a loading -/

/-- What the end of a loading does beside acts: it takes the values, resumes the bays and drives the valves anew. Between
the values and the duties the duties of R78 and R81 do not stand. -/
inductive LoadAct : State → State → Prop
  | act {s t : State} (h : Act false s t) : LoadAct s t
  | values (s : State) (blocks : List (List Byte)) : LoadAct s (takeValues blocks s)
  | adopt (s : State) (b : BranchNo) (h : (s.br b).dock = .admitted ∨ (s.br b).dock = .adopting) :
      LoadAct s (s.updBranch b fun br => { br.enter .adopting with dockTimer := none })
  | prime (s : State) (b : BranchNo) (timer : Option Nat) (h : (s.br b).dock = .priming) :
      LoadAct s (s.updBranch b fun br => { br with dockTimer := timer, trim := 0 })
  | respond (s : State) (b : BranchNo) (h : (s.br b).causes ≠ []) :
      LoadAct s (s.updBranch b (Branch.respond (closeTimer s)))
  | bypass (s : State) : LoadAct s (s.updValves fun v => { v with bypassEnable := true })
  | duties (s : State) : LoadAct s (resumeDuties s)

/-- A run of the acts of a loading's end. -/
abbrev Loads : State → State → Prop := Relation.ReflTransGen LoadAct

section

variable {keep : Bool} {s t : State}

theorem Runs.loads (h : Runs keep s t) : Loads s t := Relation.ReflTransGen.mono (fun _ _ => LoadAct.act) _ _ h.weaken

theorem Moves.loads (h : Moves s t) : Loads s t := h.acts.loads

theorem resumeByContacts_runs (b : BranchNo) (s : State) (h : (s.br b).dock.resting = true) :
    Runs false s (resumeByContacts b s) := by
  have entered : ∀ f : Branch → Branch, ContactEntry (s.br b) (f (s.br b)) → Runs false s (s.updBranch b f) :=
    fun f entry => .single (.branch s b f (.rest entry (.inl h) fun _ _ => by simp))
  unfold resumeByContacts
  split
  · exact entered _ (.vacant _)
  · split
    · exact (entered _ (.held ..)).trans (enterHeld_after b false s)
    · exact entered _ (.seated _)

theorem resumeState_loads (b : BranchNo) (s : State) : Loads s (resumeState b s) := by
  unfold resumeState
  split
  case h_1 h => exact .single (.adopt s b (.inl h))
  case h_2 h => exact .single (.adopt s b (.inr h))
  case h_3 h => exact .single (.prime s b _ h)
  case h_4 | h_5 | h_6 | h_7 => exact .single (.act (.branch s b _ (.quiet ..)))
  all_goals rename_i h; exact (resumeByContacts_runs b s (by rw [h]; rfl)).loads

theorem resumeContacts_moves (b : BranchNo) (s : State) : Moves s (resumeContacts b s) := by
  unfold resumeContacts
  split
  · exact contactOpened_moves b s
  · exact .refl

theorem resumeCauses_loads (b : BranchNo) (s : State) : Loads s (resumeCauses b s) := by
  unfold resumeCauses
  split
  case isTrue => exact .refl
  case isFalse held => exact .single (.respond s b (by simpa using held))

theorem resumeDock_loads (b : BranchNo) (s : State) : Loads s (resumeDock b s) :=
  ((resumeState_loads b s).trans (resumeContacts_moves b _).loads).trans (resumeCauses_loads b _)

theorem resumeIsolation_moves (s : State) : Moves s (resumeIsolation s) := by
  unfold resumeIsolation
  split
  · split
    · exact .single (.addRail ..)
    · split
      case isTrue shut =>
        simp only [Bool.and_eq_true, decide_eq_true_eq, List.isEmpty_iff] at shut
        exact .single (.act (.railOpening s shut.2 shut.1))
      case isFalse => exact .refl
  · exact .single (.act (.railRecord s _ s.rail.account id))

theorem resumeStrips_moves (s : State) : Moves s (resumeStrips s) :=
  foldl_reaches (fun n s => by
    split
    · exact stripEntersWet_moves n s
    · exact .refl) allStrips s

theorem resumeIsolationAndStrips_moves (dripFirst : Bool) (s : State) : Moves s (resumeIsolationAndStrips dripFirst s) := by
  unfold resumeIsolationAndStrips
  split
  · exact (resumeStrips_moves s).trans (resumeIsolation_moves _)
  · exact (resumeIsolation_moves s).trans (resumeStrips_moves _)

theorem resumeEnables_loads (s : State) : Loads s (resumeEnables s) := by
  unfold resumeEnables
  dsimp only
  split
  · split
    · exact .single (.bypass s)
    case isFalse negated =>
      exact (Relation.ReflTransGen.single (.bypass s)).tail (.act (.enables _ (by simpa using negated)))
  · exact .refl

/-- R175, R176: the state once the blocks have taken up their values. -/
def valuesTaken (blocks : List (List Byte)) (reason : EndReason) (defaulted : Bool) (s : State) : State :=
  startAge (startCounting (takeValues blocks (s.updLoader fun d =>
    { d with
      loading := false
      next := 0
      taken := []
      blocksTaken := blocks.length
      endReason := reason
      defaulted := defaulted })))

/-- R176: the state once the bays have resumed, before the rail and the strips are taken. -/
def baysResumed (blocks : List (List Byte)) (reason : EndReason) (defaulted : Bool) (s : State) : State :=
  forBranches resumeDock (valuesTaken blocks reason defaulted s)

theorem endLoading_eq (blocks : List (List Byte)) (reason : EndReason) (defaulted dripFirst : Bool) (s : State) :
    endLoading blocks reason defaulted dripFirst s =
      raiseSup .settingsDone 0 (gateAll (resumeDuties (resumeEnables (resumeIsolationAndStrips dripFirst
        (alignRail (baysResumed blocks reason defaulted s)))))) := rfl

theorem startCounting_runs (s : State) : Runs keep s (startCounting s) := .single (.aside s ..)

theorem startAge_runs (s : State) : Runs keep s (startAge s) := .single (.alloc s _ rfl rfl)

theorem valuesTaken_loads (blocks : List (List Byte)) (reason : EndReason) (defaulted : Bool) (s : State) :
    Loads s (valuesTaken blocks reason defaulted s) := by
  have ended : Loads s (s.updLoader fun d =>
      { d with
        loading := false
        next := 0
        taken := []
        blocksTaken := blocks.length
        endReason := reason
        defaulted := defaulted }) := .single (.act (.aside s ..))
  exact ((ended.tail (.values _ blocks)).trans (startCounting_runs (keep := false) _).loads).trans
    (startAge_runs (keep := false) _).loads

theorem baysResumed_loads (blocks : List (List Byte)) (reason : EndReason) (defaulted : Bool) (s : State) :
    Loads s (baysResumed blocks reason defaulted s) :=
  (valuesTaken_loads blocks reason defaulted s).trans (forBranches_reaches resumeDock_loads _)

theorem alignRail_runs (s : State) : Runs keep s (alignRail s) := by
  unfold alignRail
  split
  · exact .refl
  · exact addRailToOccupied_runs s

/-- The state before the enables and the duties of a loading's end. -/
theorem undriven_loads (blocks : List (List Byte)) (reason : EndReason) (defaulted dripFirst : Bool) (s : State) :
    Loads s (resumeEnables (resumeIsolationAndStrips dripFirst (alignRail (baysResumed blocks reason defaulted s)))) :=
  (((baysResumed_loads blocks reason defaulted s).trans (alignRail_runs (keep := false) _).loads).trans
    (resumeIsolationAndStrips_moves dripFirst _).loads).trans (resumeEnables_loads _)

/-- What follows the duties of a loading's end. -/
theorem endLoading_after (blocks : List (List Byte)) (reason : EndReason) (defaulted dripFirst : Bool) (s : State) :
    Runs keep (resumeDuties (resumeEnables (resumeIsolationAndStrips dripFirst
      (alignRail (baysResumed blocks reason defaulted s))))) (endLoading blocks reason defaulted dripFirst s) := by
  rw [endLoading_eq]
  exact (gateAll_runs _).trans (raiseSup_runs (by decide) 0 _)

theorem endLoading_loads (blocks : List (List Byte)) (reason : EndReason) (defaulted dripFirst : Bool) (s : State) :
    Loads s (endLoading blocks reason defaulted dripFirst s) :=
  ((undriven_loads blocks reason defaulted dripFirst s).tail (.duties _)).trans
    (endLoading_after (keep := false) blocks reason defaulted dripFirst s).loads

/-! ## The requests -/

theorem startReply_runs (l : LineNo) (k tag : Byte) (st : Status) (body : List Byte) (s : State) :
    Runs keep s (startReply l k tag st body s) :=
  .single (.line s l _ fun fits => ⟨fits.1, fun _ => nofun, fits.2.2⟩)

/-- A request served: what it does, and the start of its reply. -/
theorem Moves.reply (h : Moves s t) (l : LineNo) (k tag : Byte) (st : Status) (body : List Byte) :
    Moves s (startReply l k tag st body t) := h.trans (startReply_runs l k tag st body t).moves

theorem clampNat_within (lo hi x : Nat) (h : lo ≤ hi) : lo ≤ clampNat lo hi x ∧ clampNat lo hi x ≤ hi := by
  unfold clampNat
  omega

theorem serveFlowRequest_moves (l : LineNo) (tag : Byte) (b : BranchNo) (flow : Nat) (s : State) :
    Moves s (serveFlowRequest l tag b flow s) := by
  unfold serveFlowRequest
  split
  · exact Moves.reply (.single (.act (.branch s b _ (.request _ _ (clampNat_within _ _ flow))))) ..
  · exact Moves.reply .refl ..

theorem transferAmount_within {i j : BranchNo} (x : Nat) (distinct : i ≠ j) :
    transferAmount s i j x ≤ (s.br i).grant - (s.br i).floor ∧ transferAmount s i j x ≤ (s.br j).cap - (s.br j).grant := by
  rw [transferAmount, if_neg distinct]
  omega

theorem serveTransfer_moves (l : LineNo) (tag : Byte) (i j : BranchNo) (x : Nat) (s : State) :
    Moves s (serveTransfer l tag i j x s) := by
  unfold serveTransfer
  split
  case isTrue admitted =>
    simp only [Bool.and_eq_true, decide_eq_true_eq] at admitted
    refine Moves.reply ?_ ..
    unfold applyTransfer
    dsimp only
    split
    case isTrue => exact .refl
    case isFalse some =>
      have distinct : i ≠ j := fun e => some (by rw [transferAmount, if_pos e])
      have within := transferAmount_within (s := s) x distinct
      have moved := (Act.transfer (keep := true) s i j _ distinct admitted.1 admitted.2 within.1 within.2).moves
      split
      · exact (moved.trans (raiseOwner_runs i _ _ _).moves).trans (raiseOwner_runs j _ _ _).moves
      · exact moved
  case isFalse => exact Moves.reply .refl ..

theorem setLimits_within (tier floor cap fopen : Nat) :
    (setLimits tier floor cap fopen).floor ≤ (setLimits tier floor cap fopen).cap ∧
      (setLimits tier floor cap fopen).cap ≤ 4000 := by
  simp only [setLimits, clampNat]
  omega

theorem setHold_moves (b : BranchNo) (hold : Bool) (s : State) : Moves s (setHold b hold s) := by
  have set : Moves s (s.updBranch b fun br => { br with hold := hold }) := .single (.act (.branch s b _ (.quiet ..)))
  unfold setHold
  dsimp only
  split
  · split
    · exact (set.tail (.act (.branch _ b _ (.quiet ..)))).trans (gate_runs b _).moves
    · exact set.tail (.act (.branch _ b _ (.quiet ..)))
  · exact set

theorem applySetBranch_moves (b : BranchNo) {v : Limits} (h : v.floor ≤ v.cap ∧ v.cap ≤ 4000) (hold : Bool) (s : State) :
    Moves s (applySetBranch b v hold s) :=
  .trans (.trans (.single (.act (.branch s b _ (.setTo _ v h)))) (raiseGrantChanged_runs b _ _).moves)
    (setHold_moves b hold _)

theorem applyBudget_moves (value : Nat) (urgent : Bool) (s : State) : Moves s (applyBudget value urgent s) := by
  have declared : Moves s (declareBudget value s) := .single (.act (.alloc s _ rfl rfl))
  unfold applyBudget
  split
  · exact declared.trans (runRound_runs _).moves
  · exact declared

theorem noteDemand_moves (l : LineNo) (s : State) : Moves s (noteDemand l s) := by
  unfold noteDemand
  split
  · exact .single (.act (.alloc s _ rfl rfl))
  · exact .refl

theorem releaseBay_moves (b : BranchNo) (s : State) : Moves s (releaseBay b s) := by
  unfold releaseBay
  split
  case h_1 h => exact (enterPullReady_runs b s (.inl h)).moves
  case h_2 h => exact (enterPullReady_runs b s (.inr (.inl h))).moves
  case h_3 h | h_4 h | h_5 h => exact .single (.act (.branch s b _ (.toReleasing _ (by rw [h]; rfl))))
  all_goals exact .refl

theorem admitEffect_moves (b : BranchNo) (s : State) : Moves s (admitEffect b s) := by
  unfold admitEffect
  split
  case h_1 =>
    split
    · exact .trans (.single (.act (.branch s b _ (.quiet ..)))) (gate_runs b _).moves
    · exact .refl
  case h_2 h =>
    exact (rest_runs b _ s (.held ..) (by rw [h]; rfl) (by rw [h]; decide)).moves.trans (enterHeld_after b true s).moves
  all_goals exact .refl

theorem noteRead_moves (l : LineNo) (chosen : Option AttnCause) (s : State) : Moves s (noteRead l chosen s) := by
  unfold noteRead
  split
  · exact .refl
  · split
    case isTrue leaves => exact .single (.act (.dropCause s l _ leaves))
    case isFalse => exact .refl

theorem isolateTarget_moves (g : Target) (s : State) : Moves s (isolateTarget g s) := by
  cases g with
  | branch b => exact .single (.addCause ..)
  | rail => exact .single (.addRail ..)

/-- R128: RAIL is never the cause that a CLEAR_CAUSE removes. -/
theorem clearBranchTest_ne_rail {b : BranchNo} {code : Nat} {c : BranchCause} (h : (clearBranchTest s b code).2 = some c) :
    c ≠ .rail := by
  unfold clearBranchTest at h
  intro e
  split at h
  · cases h
  · split at h
    · cases h
    · split at h
      · cases h
      · split at h
        · cases h
        · split at h
          · cases h
          · simp_all

theorem clearTarget_moves (g : Target) (code : Nat) (s : State) : Moves s (clearTarget g code s) := by
  cases g with
  | branch b =>
    simp only [clearTarget, clearBranch]
    split
    case h_1 => exact .refl
    case h_2 removed => exact removeBranchCause_moves b _ s fun e => absurd e (clearBranchTest_ne_rail removed)
  | rail =>
    simp only [clearTarget, clearRail]
    split
    · exact .refl
    · exact (removeRailCause_runs _ s).moves

@[simp] theorem removeRailCause_tripAsserted (c : RailCause) (s : State) :
    (removeRailCause c s).iso.tripAsserted = s.iso.tripAsserted := by
  unfold removeRailCause
  dsimp only
  split
  · split <;> rfl
  · rfl

theorem serveRestore_moves (tag : Byte) (s : State) : Moves s (serveRestore tag s) := by
  unfold serveRestore
  split
  case isTrue => exact Moves.reply .refl ..
  case isFalse negated =>
    exact Moves.reply ((removeRailCause_runs .tripLine s).moves.tail (.act (.enables _ (by simpa using negated)))) ..

theorem serveReturnIncident_moves (tag : Byte) (n : Nat) (s : State) : Moves s (serveReturnIncident tag n s) := by
  unfold serveReturnIncident
  split
  case h_1 => exact Moves.reply .refl ..
  case h_2 k _ =>
    split
    case h_3 closed => exact Moves.reply (.single (.act (.freeSlot s k closed))) ..
    all_goals exact Moves.reply .refl ..

theorem serveTakeIncident_moves (tag : Byte) (n : Nat) (s : State) : Moves s (serveTakeIncident tag n s) := by
  unfold serveTakeIncident
  split <;> exact Moves.reply .refl ..

theorem serveReadMeters_moves (tag : Byte) (first count : Nat) (s : State) : Moves s (serveReadMeters tag first count s) := by
  unfold serveReadMeters
  split <;> exact Moves.reply .refl ..

theorem resumeLog_moves (s : State) : Moves s (resumeLog s) := by
  unfold resumeLog
  split
  · exact .refl
  · exact .single (.act (.suspend s false))

theorem serveStoreWrite_moves (tag : Byte) (block half : Nat) (octets : List Byte) (s : State) :
    Moves s (serveStoreWrite tag block half octets s) := by
  unfold serveStoreWrite
  split
  · exact Moves.reply .refl ..
  · split
    · exact Moves.reply .refl ..
    · exact Moves.reply (.single (.act (.aside s ..))) ..

end

end Sys2Proof.Machine
end

section
/-! SUPPORT. The lines as runs, every command and every step decomposed, and the principle that turns a law of the acts into a
law of the steps. -/

namespace Sys2Proof.Machine

open Sys2Proof Sys2Proof.Safety

section

variable {keep : Bool} {s t : State}

/-! ## The lines -/

/-- R166: a window accepted is in range and overlaps no other. -/
theorem setWindowResult_eq (s : State) (n : Nat) (w : Window) :
    (setWindowResult s n w).1 = s ∨
      ∃ k : BranchNo, windowStatus s k w = .ok ∧ (setWindowResult s n w).1 = replaceWindow k w s := by
  unfold setWindowResult
  split
  case isTrue h =>
    split
    case h_1 ok => exact .inr ⟨_, ok, rfl⟩
    case h_2 => exact .inl rfl
  case isFalse => exact .inl rfl

/-- R162, R163: the taking of a request fills the service place of its line; a SET_WINDOW may replace a window first. -/
theorem takeForService_eq (l : LineNo) (f : Frame) (s : State) :
    ∃ u v, (u = s ∨ ∃ (k : BranchNo) (w : Window), windowStatus s k w = .ok ∧ u = replaceWindow k w s) ∧
      v ≠ Service.empty ∧ takeForService l f s = u.updLine l fun ln => { ln with service := v } := by
  have replied : ∀ k tag st body, ∃ u v,
      (u = s ∨ ∃ (k : BranchNo) (w : Window), windowStatus s k w = .ok ∧ u = replaceWindow k w s) ∧
      v ≠ Service.empty ∧ startReply l k tag st body s = u.updLine l fun ln => { ln with service := v } :=
    fun k tag st body => ⟨s, .sending ⟨replyKind k, tag, st.code :: body, false⟩, .inl rfl, nofun, rfl⟩
  unfold takeForService
  split
  case h_1 => exact replied ..
  case h_2 k _ =>
    unfold handRequest
    split
    case h_1 =>
      unfold serveReadBranch
      dsimp only
      split
      · exact replied ..
      · exact replied ..
      · split <;> exact replied ..
    case h_2 =>
      refine ⟨_, .sending _, ?_, nofun, rfl⟩
      obtain same | ⟨k, ok, replaced⟩ := setWindowResult_eq s (octetAt f.body 0) ⟨octetAt f.body 1, octetAt f.body 2⟩
      · exact .inl same
      · exact .inr ⟨k, _, ok, replaced⟩
    case h_3 =>
      split
      · exact ⟨s, .handed _ _, .inl rfl, nofun, rfl⟩
      · exact replied ..

/-- A request taken after a change of its line that leaves fitting places. -/
theorem takeForService_after (l : LineNo) (f : Frame) (g : Line → Line) (s : State)
    (h : (s.line l).Fits → (g (s.line l)).waiting.length ≤ 2 ∧ (g (s.line l)).badCount ≤ 8) :
    Runs keep s (takeForService l f (s.updLine l g)) := by
  have filled : ∀ v, v ≠ Service.empty → ∀ u : State, u.line l = s.line l →
      Runs keep u ((u.updLine l g).updLine l fun ln => { ln with service := v }) := fun v some u same => by
    rw [State.updLine_updLine]
    exact .single (.line u l _ fun fits => by rw [same] at fits ⊢; exact ⟨(h fits).1, fun _ => some, (h fits).2⟩)
  obtain ⟨u, v, rfl | ⟨k, w, ok, rfl⟩, some, taken⟩ := takeForService_eq l f (s.updLine l g)
  · rw [taken]
    exact filled v some s rfl
  · rw [taken]
    exact (Act.window s k w ok).runs.trans (filled v some (replaceWindow k w s) rfl)

theorem takeForService_runs (l : LineNo) (f : Frame) (s : State) : Runs keep s (takeForService l f s) := by
  have same : s.updLine l id = s := by simp [State.updLine, State.line]
  have taken := takeForService_after (keep := keep) l f id s fun fits => ⟨fits.1, fits.2.2⟩
  rwa [same] at taken

theorem raiseLineFault_runs (l : LineNo) (overrun : Bool) (s : State) : Runs keep s (raiseLineFault l overrun s) :=
  .single (.raise s supLine _ (SupCause.lineFault.mem_class) (by simp))

theorem discardFrame_runs (l : LineNo) (s : State) : Runs keep s (discardFrame l s) := by
  have counted : Runs keep s (s.updLine l fun ln => { ln with rx := .hunting, badCount := min 8 (ln.badCount + 1) }) :=
    .single (.line s l _ fun fits => ⟨fits.1, fits.2.1, Nat.min_le_left _ _⟩)
  unfold discardFrame
  dsimp only
  split
  · exact counted.trans (raiseLineFault_runs l false _)
  · exact counted

theorem placeFrame_runs (l : LineNo) (f : Frame) (s : State) : Runs keep s (placeFrame l f s) := by
  have hunts : Runs keep s (s.updLine l fun ln => { ln with rx := .hunting }) := .single (.line s l _ id)
  unfold placeFrame
  dsimp only
  split
  case isTrue => exact hunts.trans (takeForService_runs l f _)
  case isFalse occupied =>
    split
    case isTrue few =>
      refine hunts.tail (.line _ l _ fun fits => ⟨?_, fun _ => occupied, fits.2.2⟩)
      simpa using few
    case isFalse => exact hunts.trans (raiseLineFault_runs l true _)

theorem completeFrame_runs (l : LineNo) (f : Frame) (check : BitVec 16) (s : State) :
    Runs keep s (completeFrame l f check s) := by
  unfold completeFrame
  split
  · exact placeFrame_runs l f s
  · exact discardFrame_runs l s

theorem noteOctet_runs (l : LineNo) (e : Bool) (s : State) : Runs keep s (noteOctet l e s) := .single (.line s l _ id)

theorem receiveOctet_runs (l : LineNo) (octet : Byte) (e : Bool) (s : State) : Runs keep s (receiveOctet l octet e s) := by
  unfold receiveOctet
  split
  · split
    · exact .single (.line s l _ id)
    · exact .refl
  · split
    · exact discardFrame_runs l s
    · unfold collectOctet
      dsimp only
      split
      · exact discardFrame_runs l s
      · split
        · exact .single (.line s l _ id)
        · exact completeFrame_runs l _ _ s

theorem serviceNext_runs (l : LineNo) (s : State) : Runs keep s (serviceNext l s) := by
  unfold serviceNext
  split
  case h_1 none => exact .single (.line s l _ fun fits => ⟨fits.1, fun some => absurd none some, fits.2.2⟩)
  case h_2 f rest waits =>
    refine takeForService_after l f _ s fun fits => ⟨?_, fits.2.2⟩
    have two := fits.1
    rw [waits, List.length_cons] at two
    exact Nat.le_of_lt two

theorem lineBreak_runs (l : LineNo) (s : State) : Runs keep s (s.updLine l Line.break) :=
  .single (.line s l _ fun _ => ⟨Nat.zero_le 2, fun no => absurd rfl no, Nat.zero_le 8⟩)

theorem finishWrite_runs (w : StoreWrite) (acked : Bool) (s : State) : Runs keep s (finishWrite w acked s) := by
  unfold finishWrite
  split
  · exact .single (.store ..)
  · exact (Act.store s ..).runs.tail (.aside _ ..)

/-! ## Time -/

theorem elapse_zero (s : State) : elapse 0 s = s := by
  have timers : ∀ o : Option Nat, o.map (· - 0) = o := fun o => by cases o <;> rfl
  have branches : Vec.map (Branch.elapse 0) s.branches = s.branches :=
    Vec.ext_pick fun b => by simp [Branch.elapse]
  simp [elapse, branches]

theorem dockTimerRunsOut_runs (b : BranchNo) (left : Nat) (s : State) :
    Runs keep (elapse left s) (dockTimerRunsOut b left s) := .single (.branch _ b _ (.quiet ..))

theorem sampleSlow_runs (s : State) : Runs keep s (sampleSlow s) := by
  unfold sampleSlow
  split
  · refine .trans (.trans (.single (.aside s ..)) (forBranches_reaches (fun b s => ?_) _)) (foldl_reaches (fun n s => ?_) _ _)
    · exact .single (.branch s b _ (.quiet ..))
    · refine .single (.drip s (fun d => { d with strips := _ }) fun m => ?_)
      have sampled : ∀ d l (x : Strip), (Strip.sample d l x).changed = x.changed := fun d l x => by
        unfold Strip.sample
        split
        · rfl
        · split <;> rfl
      simp only [Vec.pick_put]
      split
      case isTrue e => rw [sampled, e]
      case isFalse => rfl
  · exact .single (.aside s ..)

/-- A millisecond with nothing in the queue, short of the events that then join it. -/
theorem passed_runs (s : State) : Runs keep (elapse 1 s) (passed s) :=
  .trans (.trans (.single (.iso _ _ id)) (.single (.aside _ ..))) (sampleSlow_runs _)

/-! ## Every command -/

/-- R3: the outcome of a command: time passes and moves are made, or a loading ends. -/
abbrev Outcome (s : State) (t : State) : Prop :=
  (∃ ms, Moves (elapse ms s) t) ∨ ∃ blocks reason defaulted dripFirst, t = endLoading blocks reason defaulted dripFirst s

theorem Moves.outcome (h : Moves s t) : Answers (.next t) (Outcome s) := ⟨t, rfl, .inl ⟨0, by rwa [elapse_zero]⟩⟩

theorem Runs.outcome (h : Runs true s t) : Answers (.next t) (Outcome s) := h.moves.outcome

theorem Moves.outcome_later {ms : Nat} (h : Moves (elapse ms s) t) : Answers (.next t) (Outcome s) := ⟨t, rfl, .inl ⟨ms, h⟩⟩

theorem takeBlock_outcome (x : List Byte) (dripFirst : Bool) (s : State) :
    Answers (.next (takeBlock x dripFirst s)) (Outcome s) := by
  unfold takeBlock
  dsimp only
  split
  · exact ⟨_, rfl, .inr ⟨_, _, _, _, rfl⟩⟩
  · split
    · exact ⟨_, rfl, .inr ⟨_, _, _, _, rfl⟩⟩
    · exact Runs.outcome (.single (.aside s ..))

theorem readNextBlock_outcome (acked dripFirst : Bool) (s : State) :
    Answers (.next (readNextBlock acked dripFirst s)) (Outcome s) := by
  unfold readNextBlock
  dsimp only
  split
  · exact ⟨_, rfl, .inr ⟨_, _, _, _, rfl⟩⟩
  · split
    · exact takeBlock_outcome _ dripFirst s
    · exact ⟨_, rfl, .inr ⟨_, _, _, _, rfl⟩⟩

/-- A command whose event cannot come in the state changes nothing (log 4). -/
theorem unchanged_outcome (s : State) : Answers (.next s) (Outcome s) := Moves.outcome .refl

theorem execPresentCloses_outcome (b : BranchNo) (s : State) : Answers (execPresentCloses b s) (Outcome s) := by
  have set : Moves s (setPresent b true s) := (setPresent_runs b true s).moves
  unfold execPresentCloses
  split
  · exact unchanged_outcome s
  · refine Moves.outcome ?_
    split
    case isTrue vacant =>
      simp only [Bool.and_eq_true, decide_eq_true_eq] at vacant
      exact set.tail (.arrive _ b (by simpa [setPresent] using vacant.1))
    case isFalse => exact set

theorem execPresentOpens_outcome (b : BranchNo) (s : State) : Answers (execPresentOpens b s) (Outcome s) := by
  have set : Moves s (setPresent b false s) := (setPresent_runs b false s).moves
  have dock : ((setPresent b false s).br b).dock = (s.br b).dock := by simp [setPresent]
  unfold execPresentOpens
  split
  · exact unchanged_outcome s
  · refine Moves.outcome (set.trans ?_)
    split
    · exact (markHotPull_runs b _).moves
    · split
      case isTrue leaves =>
        refine .trans (rest_runs b Branch.toVacant _ (.vacant _) ?_ ?_).moves (enterVacant_after b _)
        all_goals
          rw [dock]
          cases h : (s.br b).dock <;> simp_all [leavesOnOpen, DockState.resting]
      case isFalse => exact contactOpened_moves b _

theorem execLatchCloses_outcome (b : BranchNo) (s : State) : Answers (execLatchCloses b s) (Outcome s) := by
  have set : Moves s (setLatched b true s) := (setLatched_runs b true s).moves
  have dock : ((setLatched b true s).br b).dock = (s.br b).dock := by simp [setLatched]
  unfold execLatchCloses
  split
  · exact unchanged_outcome s
  · refine Moves.outcome (set.trans ?_)
    split
    case isTrue seated =>
      simp only [Bool.and_eq_true, decide_eq_true_eq] at seated
      rw [seated.1.1] at dock
      exact (rest_runs b _ _ (.held ..) (by rw [dock]; rfl) (by rw [dock]; decide)).moves.trans
        (enterHeld_after b false _).moves
    case isFalse => exact .refl

theorem execLatchOpens_outcome (b : BranchNo) (s : State) : Answers (execLatchOpens b s) (Outcome s) := by
  have set : Moves s (setLatched b false s) := (setLatched_runs b false s).moves
  have dock : ((setLatched b false s).br b).dock = (s.br b).dock := by simp [setLatched]
  unfold execLatchOpens
  split
  · exact unchanged_outcome s
  · refine Moves.outcome (set.trans ?_)
    split
    · exact (markHotPull_runs b _).moves
    · split
      · exact contactOpened_moves b _
      · split
        · exact (markHotPull_runs b _).moves
        · split
          case isTrue held =>
            rw [held] at dock
            exact (rest_runs b _ _ (.seated _) (by rw [dock]; rfl) (by rw [dock]; decide)).moves
          case isFalse => exact contactOpened_moves b _

theorem execStripStateChange_outcome (n : StripNo) (level : StripState) (s : State) :
    Answers (execStripStateChange n level s) (Outcome s) := by
  have pins : Moves s (s.updPins fun p => { p with strips := Vec.put p.strips n (StripPins.show level (Vec.pick p.strips n)) }) :=
    .single (.act (.aside s ..))
  unfold execStripStateChange
  dsimp only
  split
  · refine Moves.outcome (pins.tail (.act (.drip _ (fun d => { d with strips := _ }) fun m => ?_)))
    simp only [Vec.pick_put]
    split
    case isTrue e => rw [e]
    case isFalse => rfl
  · exact Moves.outcome ((pins.tail (.act (.takeStrip _ n level))).trans (stripConsequences_moves n _ level _))

/-- R149: a target whose record was closed has no OPEN record. -/
theorem openSlot_closeRecord (s : State) (g : Target) : openSlot (closeRecord g s) g = none := by
  cases found : openSlot s g with
  | none => rw [closeRecord_of_none found, found]
  | some k =>
    have named := (openSlot_eq_some.1 found).1
    have same : incidentOf (closeRecord g s) g = some k := by
      rw [← named]
      cases g <;> simp [incidentOf]
    have closed : ((closeRecord g s).slot k).state = .closed := by simp [closeRecord, found, State.slot, State.updSlot]
    rw [openSlot, same]
    simp [closed]

/-- R11: what SEAT_SETTLE_EXPIRES does to a bay that stays in HELD. -/
theorem seatSettled_moves (b : BranchNo) (s : State) : Moves s (seatSettled b s) := by
  unfold seatSettled
  split
  · exact .refl
  · exact .trans (.single (.act (.branch _ b _ (.quiet ..)))) (gate_runs b _).moves

/-- R26: the record closes before the bay leaves ISOLATING. -/
theorem completeClose_moves (b : BranchNo) (s : State) (h : (s.br b).dock = .isolating) :
    Moves s (completeClose b s) := by
  have closed : Moves s (closeRecord (.branch b) s) := (Act.closeRecord s _).moves
  have shut := openSlot_closeRecord s (.branch b)
  have dock : ((closeRecord (.branch b) s).br b).dock = .isolating := by simpa using h
  unfold completeClose
  dsimp only
  split
  case isTrue empty =>
    obtain ⟨f, entry, after⟩ := enterByContacts_entry b (closeRecord (.branch b) s)
    refine closed.trans (.trans (.single (.act (.branch _ b f ?_))) after)
    exact .rest entry (.inr ⟨dock, List.isEmpty_iff.1 empty, shut⟩) fun v => by rw [dock] at v; cases v
  case isFalse held =>
    exact closed.tail (.act (.branch _ b _ (.toIsolated _ dock (by simpa using held) shut)))

/-- Every command ends in a next state, after time has passed and moves been made, or a loading ended. -/
theorem exec_outcome (i : Instr) (s : State) : Answers (exec i s) (Outcome s) := by
  cases i with
  | powerOnReset hold speed => exact ⟨_, exec_powerOnReset hold speed s, .inl ⟨0, by rw [elapse_zero]; exact .single (.act (.reset s hold speed))⟩⟩
  | settingsBlockRead acked dripFirst =>
    simp only [exec, execSettingsBlockRead]
    split
    · exact readNextBlock_outcome acked dripFirst s
    · exact unchanged_outcome s
  | warmRstAsserted =>
    refine Moves.outcome ?_
    split
    · exact .refl
    · exact .tail (.single (.act (.aside s ..))) (.act (.warm _))
  | warmRstNegated =>
    refine Moves.outcome ?_
    split
    · exact .single (.act (.aside s ..))
    · exact .refl
  | storeWriteCompletes acked =>
    simp only [exec, execStoreWriteCompletes]
    split
    · exact unchanged_outcome s
    · exact Runs.outcome (((finishWrite_runs _ acked s).tail (.aside _ ..)).trans (raiseSup_runs (by decide) 1 _))
  | frameReceived l kind tag body check =>
    refine Runs.outcome ((noteOctet_runs l false s).trans ?_)
    split
    · exact completeFrame_runs l _ check _
    · exact discardFrame_runs l _
  | interOctetTimeout l =>
    simp only [exec, execInterOctetTimeout]
    split
    · exact unchanged_outcome s
    · exact Runs.outcome (discardFrame_runs l s)
  | badFrameCountReached l =>
    refine Runs.outcome ?_
    split
    · exact discardFrame_runs l s
    · exact .refl
  | replySent l =>
    simp only [exec, execReplySent]
    split
    · refine Runs.outcome ?_
      split
      · exact .single (.warm s)
      · exact serviceNext_runs l s
    · exact unchanged_outcome s
    · exact unchanged_outcome s
  | lineBreak l =>
    refine Runs.outcome ?_
    split
    · exact (lineBreak_runs l s).tail (.warm _)
    · exact lineBreak_runs l s
  | flowRequest l =>
    simp only [exec, execFlowRequest]
    split
    · exact Moves.outcome (serveFlowRequest_moves l _ _ _ s)
    · exact unchanged_outcome s
  | transfer l =>
    simp only [exec, execTransfer]
    split
    · exact Moves.outcome (serveTransfer_moves l _ _ _ _ s)
    · exact unchanged_outcome s
  | release l =>
    simp only [exec, execRelease]
    split
    · exact Moves.outcome ((releaseBay_moves _ s).reply ..)
    · exact unchanged_outcome s
  | readAttn l =>
    simp only [exec, execReadAttn]
    split
    · exact Moves.outcome ((noteRead_moves l _ s).reply ..)
    · exact unchanged_outcome s
  | clearAttn l =>
    simp only [exec, execClearAttn]
    split
    · exact Moves.outcome ((Act.clearCauses s l _).moves.reply ..)
    · exact unchanged_outcome s
  | setAttnMask l =>
    simp only [exec, execSetAttnMask]
    split
    · exact Moves.outcome ((Act.mask s l _).moves.reply ..)
    · exact unchanged_outcome s
  | setBranch =>
    simp only [exec, execSetBranch]
    split
    · exact Moves.outcome ((applySetBranch_moves _ (setLimits_within ..) _ s).reply ..)
    · exact unchanged_outcome s
  | admitBay =>
    simp only [exec, execAdmitBay]
    split
    · exact Moves.outcome ((admitEffect_moves _ s).reply ..)
    · exact unchanged_outcome s
  | isolate =>
    simp only [exec, execIsolate]
    split
    · exact Moves.outcome ((isolateTarget_moves _ s).reply ..)
    · exact unchanged_outcome s
  | clearCause =>
    simp only [exec, execClearCause]
    split
    · exact Moves.outcome ((clearTarget_moves _ _ s).reply ..)
    · exact unchanged_outcome s
  | restore =>
    simp only [exec, execRestore]
    split
    · exact Moves.outcome (serveRestore_moves _ s)
    · exact unchanged_outcome s
  | readStrips =>
    simp only [exec, execReadStrips]
    split
    · exact Moves.outcome ((Act.emptyDelta s).moves.reply ..)
    · exact unchanged_outcome s
  | readMeters =>
    simp only [exec, execReadMeters]
    split
    · exact Moves.outcome (serveReadMeters_moves _ _ _ s)
    · exact unchanged_outcome s
  | readRound l =>
    simp only [exec, execReadRound]
    split
    · exact Runs.outcome (startReply_runs ..)
    · exact unchanged_outcome s
  | takeIncident =>
    simp only [exec, execTakeIncident]
    split
    · exact Moves.outcome (serveTakeIncident_moves _ _ s)
    · exact unchanged_outcome s
  | returnIncident =>
    simp only [exec, execReturnIncident]
    split
    · exact Moves.outcome (serveReturnIncident_moves _ _ s)
    · exact unchanged_outcome s
  | logResume =>
    simp only [exec, execLogResume]
    split
    · exact Moves.outcome ((resumeLog_moves s).reply ..)
    · exact unchanged_outcome s
  | storeRead acked =>
    simp only [exec, execStoreRead]
    split
    · exact Runs.outcome (startReply_runs ..)
    · exact unchanged_outcome s
  | storeWrite =>
    simp only [exec, execStoreWrite]
    split
    · exact Moves.outcome (serveStoreWrite_moves _ _ _ _ s)
    · exact unchanged_outcome s
  | restart =>
    simp only [exec, execRestart]
    split
    · exact Runs.outcome (.single (.line s _ _ fun fits => ⟨fits.1, fun _ => nofun, fits.2.2⟩))
    · exact unchanged_outcome s
  | budget =>
    simp only [exec, execBudget]
    split
    · exact Moves.outcome ((applyBudget_moves _ _ s).reply ..)
    · exact unchanged_outcome s
  | plantStop =>
    simp only [exec, execPlantStop]
    split
    · exact Moves.outcome (Moves.reply (.tail (.single (.addRail s _)) (.act (.alloc _ _ rfl rfl))) ..)
    · exact unchanged_outcome s
  | plantResume =>
    simp only [exec, execPlantResume]
    split
    · exact Moves.outcome (Moves.reply (.tail (removeRailCause_runs _ s).moves (.act (.alloc _ _ rfl rfl))) ..)
    · exact unchanged_outcome s
  | readDemand l =>
    simp only [exec, execReadDemand]
    split
    · exact Moves.outcome ((noteDemand_moves l s).reply ..)
    · exact unchanged_outcome s
  | presentCloses b => exact execPresentCloses_outcome b s
  | presentOpens b => exact execPresentOpens_outcome b s
  | latchCloses b => exact execLatchCloses_outcome b s
  | latchOpens b => exact execLatchOpens_outcome b s
  | seatSettleExpires b =>
    simp only [exec, execSeatSettleExpires]
    split
    · exact Moves.outcome_later ((dockTimerRunsOut_runs b _ s).moves.trans (seatSettled_moves b _))
    · exact unchanged_outcome s
  | primeTimeoutExpires b =>
    simp only [exec, execPrimeTimeoutExpires]
    split
    · exact Moves.outcome_later ((dockTimerRunsOut_runs b _ s).moves.tail (.addCause ..))
    · exact unchanged_outcome s
  | closeTimeExpires b =>
    simp only [exec, execCloseTimeExpires]
    split
    case h_1 releasing _ =>
      refine Moves.outcome_later ((dockTimerRunsOut_runs b _ s).moves.tail (.act (.branch _ b _ (.toDraining _ ?_))))
      simpa [dockTimerRunsOut, Branch.elapse] using releasing
    case h_2 => exact unchanged_outcome s
  | closeCompletes b =>
    simp only [exec, execCloseCompletes]
    split
    case h_1 isolating _ =>
      refine Moves.outcome_later ((dockTimerRunsOut_runs b _ s).moves.trans (completeClose_moves b _ ?_))
      simpa [dockTimerRunsOut, Branch.elapse] using isolating
    case h_2 => exact unchanged_outcome s
  | drainLimitExpires b =>
    simp only [exec, execDrainLimitExpires]
    split
    · exact Moves.outcome_later ((dockTimerRunsOut_runs b _ s).moves.tail (.addCause ..))
    · exact unchanged_outcome s
  | windowClose order =>
    simp only [exec, execWindowClose]
    split
    · exact Moves.outcome_later (closeWindow_moves order _)
    · exact unchanged_outcome s
  | qerrRunReached c =>
    refine Runs.outcome ?_
    split
    · exact (setHealth_runs c _ s).trans (raiseSup_runs (by decide) _ _)
    · exact .refl
  | cleanRunReached c =>
    refine Runs.outcome ?_
    split
    · exact setHealth_runs c _ s
    · exact .refl
  | primeGoodCountReached b =>
    refine Runs.outcome ?_
    split
    case isTrue h =>
      simp only [primeGoodReaches, Bool.and_eq_true, decide_eq_true_eq] at h
      exact enterAdmitted_runs b s (.inl h.1.1.1.1)
    case isFalse => exact .refl
  | adoptionGoodCountReached b =>
    refine Runs.outcome ?_
    split
    case isTrue h =>
      simp only [adoptionGoodReaches, Bool.and_eq_true, decide_eq_true_eq] at h
      exact enterAdmitted_runs b s (.inr h.1.1.1)
    case isFalse => exact .refl
  | idleCountReached b =>
    refine Runs.outcome ?_
    split
    case isTrue h =>
      simp only [idleReaches, Bool.and_eq_true, decide_eq_true_eq] at h
      exact .single (.branch s b _ (.toPriming _ (.inl h.1.1.1)))
    case isFalse => exact .refl
  | takeUpWindowsReached b =>
    refine Runs.outcome ?_
    split
    · exact restrict_runs b s
    · exact .refl
  | balanceConfirmed b =>
    refine Moves.outcome ?_
    split
    · exact .tail (.single (.act (.branch s b _ (.account _ (s.br b).account.confirm id)))) (.addCause ..)
    · exact .refl
  | railBalanceConfirmed =>
    refine Moves.outcome ?_
    split
    · exact .tail (.single (.act (.railRecord s s.rail.timer s.rail.account.confirm id))) (.addRail ..)
    · exact .refl
  | locateHoldExpires =>
    refine Runs.outcome ?_
    split
    · exact endLocate_runs _ s
    · exact .refl
  | budgetHoldExpires =>
    simp only [exec, execBudgetHoldExpires]
    split
    · exact Moves.outcome_later (becomeStale_runs _).moves
    · exact unchanged_outcome s
  | fallbackTimeExpires =>
    simp only [exec, execFallbackTimeExpires]
    split
    · exact Moves.outcome_later (fallBack_runs _).moves
    · exact unchanged_outcome s
  | periodStart => exact Moves.outcome_later (.single (.act (.period _)))
  | tripInAsserted =>
    refine Moves.outcome ?_
    split
    · exact .refl
    · exact assertTrip_moves s
  | tripInNegated =>
    refine Moves.outcome ?_
    split
    · exact .tail (.single (.act (.aside s ..))) (.act (.iso _ _ nofun))
    · exact .refl
  | railCloseTimeExpires =>
    simp only [exec, execRailCloseTimeExpires]
    split
    case h_1 closing _ => exact Moves.outcome_later (enterClosed_runs (s := elapse _ s) closing).moves
    case h_2 => exact unchanged_outcome s
  | railOpenTimeExpires =>
    simp only [exec, execRailOpenTimeExpires]
    split
    case h_1 opening _ => exact Moves.outcome_later (enterOpened_moves (s := elapse _ s) opening)
    case h_2 => exact unchanged_outcome s
  | stripStateChange n level => exact execStripStateChange_outcome n level s
  | pickupSample a b => exact Runs.outcome (.single (.aside s ..))
  | octetReceived l octet e => exact Runs.outcome ((noteOctet_runs l e s).trans (receiveOctet_runs l octet e _))

/-! ## Every step -/

/-- A step, but for the queue: time passes and moves are made, or a loading ends. -/
theorem step_reaches (stepped : step s = .next t) : ∃ q u r, t = { u with pending := r } ∧
    ((∃ ms, Moves (elapse ms { s with pending := q }) u) ∨
      ∃ blocks reason defaulted dripFirst, u = endLoading blocks reason defaulted dripFirst { s with pending := q }) := by
  unfold step at stepped
  split at stepped
  · exact ⟨s.pending, passed s, _, (Host.Outcome.next.inj stepped).symm, .inl ⟨1, (passed_runs s).moves⟩⟩
  · rename_i c rest _
    obtain ⟨u, answer, outcome⟩ := exec_outcome c { s with pending := rest }
    exact ⟨rest, u, u.pending, Host.Outcome.next.inj (stepped.symm.trans answer), outcome⟩

/-- A step, but for the queue, as a run of the acts of a loading's end. -/
theorem step_loads (stepped : step s = .next t) :
    ∃ q ms u r, t = { u with pending := r } ∧ Loads (elapse ms { s with pending := q }) u := by
  obtain ⟨q, u, r, rfl, ⟨ms, moves⟩ | ⟨blocks, reason, defaulted, dripFirst, rfl⟩⟩ := step_reaches stepped
  · exact ⟨q, ms, u, r, rfl, moves.loads⟩
  · exact ⟨q, 0, _, r, rfl, by rw [elapse_zero]; exact endLoading_loads blocks reason defaulted dripFirst _⟩

theorem Runs.keeps {law : State → Prop} (act : ∀ s t, Act keep s t → law s → law t) (run : Runs keep s t) (h : law s) :
    law t := by
  induction run with
  | refl => exact h
  | tail _ last ih => exact act _ _ last ih

theorem Loads.keeps {law : State → Prop} (act : ∀ s t, LoadAct s t → law s → law t) (run : Loads s t) (h : law s) :
    law t := by
  induction run with
  | refl => exact h
  | tail _ last ih => exact act _ _ last ih

/-- A law that the queue does not touch, that outlives time, that every act keeps and that the end of a loading leaves
standing, is kept by every step. -/
theorem step_keeps {law : State → Prop} (queue : ∀ s q, law s → law { s with pending := q })
    (time : ∀ s ms, law s → law (elapse ms s)) (act : ∀ s t, Act false s t → law s → law t)
    (load : ∀ s blocks reason defaulted dripFirst, law s → law (endLoading blocks reason defaulted dripFirst s))
    (h : law s) (stepped : step s = .next t) : law t := by
  obtain ⟨q, u, r, rfl, ⟨ms, moves⟩ | ⟨blocks, reason, defaulted, dripFirst, rfl⟩⟩ := step_reaches stepped
  · exact queue u r (moves.acts.keeps act (time _ ms (queue s q h)))
  · exact queue _ r (load _ blocks reason defaulted dripFirst (queue s q h))

/-- The same for a law that every act of a loading's end keeps too. -/
theorem step_keeps_of_loads {law : State → Prop} (queue : ∀ s q, law s → law { s with pending := q })
    (time : ∀ s ms, law s → law (elapse ms s)) (act : ∀ s t, LoadAct s t → law s → law t)
    (h : law s) (stepped : step s = .next t) : law t := by
  obtain ⟨q, ms, u, r, rfl, loads⟩ := step_loads stepped
  exact queue u r (loads.keeps act (time _ ms (queue s q h)))

end

end Sys2Proof.Machine
end

section
/-! SUPPORT. The sums of a round: it spends the whole budget (R51 to R59), and no participant is given more than its cap. -/

namespace Sys2Proof.Machine

open Sys2Proof Sys2Proof.Safety

section

variable {s : State} {b : BranchNo}

/-! ## Sums of scaled parts -/

theorem sumBranches_congr {f g : BranchNo → Nat} (h : ∀ b, f b = g b) : sumBranches f = sumBranches g := by
  rw [funext h]

theorem sumBranches_add (f g : BranchNo → Nat) : sumBranches (fun b => f b + g b) = sumBranches f + sumBranches g := by
  simp only [sumBranches_eq_sum, Finset.sum_add_distrib]

/-- Parts scaled by `p` to their sum, each truncated, stay within `p` together. -/
theorem sumBranches_scaled_le (f : BranchNo → Nat) (p : Nat) :
    sumBranches (fun b => f b * p / sumBranches f) ≤ p := by
  rcases Nat.eq_zero_or_pos (sumBranches f) with none | some
  · simp [none, sumBranches_eq_sum]
  · refine Nat.le_of_mul_le_mul_right ?_ some
    rw [sumBranches_eq_sum (fun b => f b * p / sumBranches f), Finset.sum_mul]
    calc ∑ b, f b * p / sumBranches f * sumBranches f
        ≤ ∑ b, f b * p := Finset.sum_le_sum fun b _ => Nat.div_mul_le_self _ _
      _ = p * sumBranches f := by rw [← Finset.sum_mul, sumBranches_eq_sum, mul_comm]

theorem le_sumBranches (f : BranchNo → Nat) (b : BranchNo) : f b ≤ sumBranches f := by
  rw [sumBranches_eq_sum]
  exact Finset.single_le_sum (f := f) (fun _ _ => Nat.zero_le _) (Finset.mem_univ b)

theorem mul_div_sumBranches_le (f : BranchNo → Nat) {p : Nat} (b : BranchNo) (h : p ≤ sumBranches f) :
    f b * p / sumBranches f ≤ f b :=
  Nat.div_le_of_le_mul ((Nat.mul_le_mul_left _ h).trans_eq (mul_comm _ _))

/-! ## The start of a round -/

/-- R51: the flow left to the branches after the bypass reserve. -/
def reserveLeft (s : State) : Nat := s.alloc.pendingBudget - s.params.bypassMinimum

/-- R52: the flow left after the ADOPTING deduction. -/
def shareable (s : State) : Nat := reserveLeft s - adoptingSum s

theorem sum_adoptedGrant_le (s : State) (p : Nat) : sumBranches (adoptedGrant s p) ≤ p := by
  unfold adoptedGrant
  split
  case isTrue fit => exact fit
  case isFalse =>
    refine le_trans (le_of_eq ?_) (sumBranches_scaled_le (fun b => if (s.br b).dock = .adopting then (s.br b).grant else 0) p)
    refine sumBranches_congr fun b => ?_
    by_cases adopting : (s.br b).dock = .adopting <;> simp [adopting, adoptingSum]

theorem sum_adoptedGrant_of_fit {p : Nat} (fit : adoptingSum s ≤ p) : sumBranches (adoptedGrant s p) = adoptingSum s := by
  unfold adoptedGrant
  simp only [if_pos fit]
  rfl

theorem sum_givenFloor_le (s : State) (p : Nat) : sumBranches (givenFloor s p) ≤ p := by
  unfold givenFloor
  split
  case isTrue fit => exact fit
  case isFalse => exact sumBranches_scaled_le (roundFloor s) p

theorem sum_givenFloor_of_fit {p : Nat} (fit : floorSum s ≤ p) : sumBranches (givenFloor s p) = floorSum s := by
  unfold givenFloor
  simp only [if_pos fit]
  rfl

theorem roundStart_given (s : State) (b : BranchNo) :
    Vec.pick (roundStart s).given b = adoptedGrant s (reserveLeft s) b + givenFloor s (shareable s) b := by
  simp [roundStart, shareStart, reserveLeft, shareable]

/-- R58: the residue of the round of a state. -/
def roundResidue (s : State) : Nat :=
  (roundShared s).rm + (if floorSum s ≤ shareable s then 0 else shareable s - sumBranches (givenFloor s (shareable s))) +
    if adoptingSum s ≤ reserveLeft s then 0 else reserveLeft s - sumBranches (adoptedGrant s (reserveLeft s))

/-- R58: what of the residue is parked. -/
def roundParked (s : State) : Nat := parkedAmount s (roundShared s) (roundResidue s)

theorem roundPlan_eq (s : State) : roundPlan s =
    { given := parkedGrants s (roundShared s) (roundParked s)
      available := shareable s
      residue := roundResidue s
      bypassTarget := min s.params.bypassMinimum s.alloc.pendingBudget + (roundResidue s - roundParked s)
      p1 := pointerAfter s.alloc.p1 (roundShared s).last1
      p0 := pointerAfter s.alloc.p0 (roundShared s).last0
      short := !decide (floorSum s ≤ shareable s) } := by
  simp only [roundPlan, planRound, roundParked, roundResidue, roundShared, roundStart, shareable, reserveLeft, afterReserve]
  rfl

/-- R51 to R58: what is shared and the residue make up the flow after the reserve. -/
theorem roundShared_total (s : State) :
    sumBranches (Vec.pick (roundShared s).given) + roundResidue s = reserveLeft s := by
  have start : sumBranches (Vec.pick (roundStart s).given) =
      sumBranches (adoptedGrant s (reserveLeft s)) + sumBranches (givenFloor s (shareable s)) := by
    rw [← sumBranches_add]
    exact sumBranches_congr (roundStart_given s)
  have total := (grown_round s).total
  have rm : (roundStart s).rm = if floorSum s ≤ shareable s then shareable s - floorSum s else 0 := by
    simp only [roundStart, shareStart, shareable, reserveLeft]
    rfl
  have adopted := sum_adoptedGrant_le s (reserveLeft s)
  have floors := sum_givenFloor_le s (shareable s)
  have deducted : shareable s = reserveLeft s - adoptingSum s := rfl
  rw [start, rm] at total
  unfold roundResidue
  by_cases fitA : adoptingSum s ≤ reserveLeft s <;> by_cases fitF : floorSum s ≤ shareable s
  · rw [sum_adoptedGrant_of_fit fitA, sum_givenFloor_of_fit fitF] at total
    simp only [fitA, fitF, if_true] at total ⊢
    omega
  · rw [sum_adoptedGrant_of_fit fitA] at total
    simp only [fitA, fitF, if_true, if_false] at total ⊢
    omega
  · rw [sum_givenFloor_of_fit fitF] at total
    simp only [fitA, fitF, if_true, if_false] at total ⊢
    omega
  · simp only [fitA, fitF, if_false] at total ⊢
    omega

/-! ## The plan -/

theorem parkedAmount_le (s : State) (sh : Share) (residue : Nat) : parkedAmount s sh residue ≤ residue := by
  unfold parkedAmount
  split
  · exact Nat.zero_le _
  · exact Nat.min_le_left _ _

theorem sum_parkedGrants (s : State) (sh : Share) (residue : Nat) :
    sumBranches (Vec.pick (parkedGrants s sh (parkedAmount s sh residue))) =
      sumBranches (Vec.pick sh.given) + parkedAmount s sh residue := by
  unfold parkedGrants parkedAmount
  split
  case h_1 => rfl
  case h_2 => exact sumBranches_pick_put sh.given _ _

/-- R59: the grants given and the bypass target are the budget. -/
theorem roundPlan_spends (s : State) :
    sumBranches (Vec.pick (roundPlan s).given) + (roundPlan s).bypassTarget = s.alloc.pendingBudget := by
  have parked : roundParked s ≤ roundResidue s := parkedAmount_le ..
  have given := sum_parkedGrants s (roundShared s) (roundResidue s)
  have total := roundShared_total s
  have reserve : reserveLeft s = s.alloc.pendingBudget - s.params.bypassMinimum := rfl
  rw [roundPlan_eq]
  simp only [roundParked] at parked ⊢
  rw [given]
  omega

/-- R52, R62: a branch outside the participating states is given nothing. -/
theorem roundPlan_given_of_outside (h : (s.br b).dock.participating = false) : Vec.pick (roundPlan s).given b = 0 := by
  have notAdmitted : (s.br b).dock ≠ .admitted := by rintro e; rw [e] at h; cases h
  rw [(roundPlan_given s b).2 notAdmitted, ((grown_round s).within b).resolve_right fun moved => notAdmitted moved.2,
    roundStart_given]
  cases dock : (s.br b).dock <;>
    simp_all [adoptedGrant, givenFloor, roundFloor, DockState.participating]

/-- R52: an ADOPTING branch is given its grant, or the scaled one. -/
theorem roundPlan_given_of_adopting (h : (s.br b).dock = .adopting) :
    Vec.pick (roundPlan s).given b =
      if adoptingSum s ≤ reserveLeft s then (s.br b).grant else (s.br b).grant * reserveLeft s / adoptingSum s := by
  have notAdmitted : (s.br b).dock ≠ .admitted := by rw [h]; decide
  rw [(roundPlan_given s b).2 notAdmitted, ((grown_round s).within b).resolve_right fun moved => notAdmitted moved.2,
    roundStart_given]
  simp [adoptedGrant, givenFloor, roundFloor, h]

theorem givenFloor_le (s : State) (p : Nat) (b : BranchNo) : givenFloor s p b ≤ roundFloor s b := by
  unfold givenFloor
  split
  · exact le_rfl
  · exact mul_div_sumBranches_le (roundFloor s) b (by rename_i short; exact Nat.le_of_not_le short)

/-- R54, R55: a PRIMING branch is given no more than Prime Flow and its cap. -/
theorem roundPlan_given_of_priming (h : (s.br b).dock = .priming) :
    Vec.pick (roundPlan s).given b ≤ min s.params.primeFlow (s.br b).cap := by
  have notAdmitted : (s.br b).dock ≠ .admitted := by rw [h]; decide
  rw [(roundPlan_given s b).2 notAdmitted, ((grown_round s).within b).resolve_right fun moved => notAdmitted moved.2,
    roundStart_given, ← roundFloor_of_priming h]
  simpa [adoptedGrant, h] using givenFloor_le s (shareable s) b

/-- R53, R58: an ADMITTED branch is given no more than its cap. -/
theorem roundPlan_given_of_admitted (h : (s.br b).dock = .admitted) (limits : (s.br b).floor ≤ (s.br b).cap) :
    Vec.pick (roundPlan s).given b ≤ (s.br b).cap := by
  have shared : Vec.pick (roundShared s).given b ≤ (s.br b).cap := by
    rcases (grown_round s).within b with unmoved | ⟨bound, -⟩
    · rw [unmoved, roundStart_given, ← roundFloor_of_admitted h] at *
      simpa [adoptedGrant, h] using (givenFloor_le s (shareable s) b).trans limits
    · refine bound.trans ?_
      unfold demandOf
      split <;> omega
  rw [roundPlan_eq]
  simp only [pick_parkedGrants]
  split
  case isTrue target =>
    have parked : roundParked s ≤ (s.br b).cap - Vec.pick (roundShared s).given b := by
      simp only [roundParked, parkedAmount, target]
      exact Nat.min_le_right _ _
    omega
  case isFalse => simpa using shared

/-! ## The round published -/

@[simp] theorem publishGrants_br (given : Vector Nat 12) (s : State) (b : BranchNo) :
    (publishGrants given s).br b =
      if (s.br b).dock.participating then { s.br b with grant := Vec.pick given b }.redrive else s.br b := by
  simp [publishGrants, State.br]

theorem publishGrants_grant (h : GrantLaw s) (b : BranchNo) :
    ((publishGrants (roundPlan s).given s).br b).grant = Vec.pick (roundPlan s).given b := by
  rw [publishGrants_br]
  split
  case isTrue => rfl
  case isFalse outside =>
    have out := Bool.eq_false_iff.2 outside
    rw [h b out, roundPlan_given_of_outside out]

/-- R59: after a round the grants and the bypass target are the budget. -/
theorem roundTaken_spends (h : GrantLaw s) :
    grantSum (publishGrants (roundPlan s).given s) + (roundPlan s).bypassTarget = s.alloc.pendingBudget := by
  rw [← roundPlan_spends s]
  exact congrArg (· + _) (sumBranches_congr (publishGrants_grant h))

end

end Sys2Proof.Machine
end

section
/-! SUPPORT. What an act and the end of a loading do to one branch record, and the laws of one branch record that every step
therefore keeps. -/

namespace Sys2Proof.Machine

open Sys2Proof Sys2Proof.Safety

/-! ## The turns of a branch record -/

/-- R59, R60 and table 1.1: the limits of one branch record. -/
abbrev Branch.Limited (p : Params) (x : Branch) : Prop :=
  x.floor ≤ x.cap ∧ x.cap ≤ 4000 ∧ x.floor ≤ x.request ∧ x.request ≤ x.cap ∧ x.grant ≤ x.cap ∧
    (x.dock = .priming → x.grant ≤ min p.primeFlow x.cap)

/-- What an act other than a power-on reset does to a branch record. -/
inductive BranchTurn (p : Params) : Branch → Branch → Prop
  | act {free shut : Prop} {x y : Branch} (h : BranchAct p free shut x y) : BranchTurn p x y
  | mark (x : Branch) (applied : Nat) (enable : Bool) (owner : Option BranchNo) (incident : Option SlotNo) (lost : Bool)
      (h : x.applied ≤ 1000 → x.commanded ≤ 1000 → applied ≤ 1000) :
      BranchTurn p x { x with applied := applied, enable := enable, owner := owner, incident := incident, lost := lost }
  | warm (x : Branch) : BranchTurn p x x.warm
  | give (x : Branch) (g : Nat) (h : x.dock.participating = true)
      (bound : x.Limited p → g ≤ x.cap ∧ (x.dock = .priming → g ≤ min p.primeFlow x.cap)) :
      BranchTurn p x { x with grant := g }.redrive
  | giveUp (x : Branch) (m : Nat) (h : x.dock = .admitted) : BranchTurn p x (x.giveUp m)
  | takeOver (x : Branch) (m : Nat) (h : x.dock = .admitted) (room : m ≤ x.cap - x.grant) : BranchTurn p x (x.takeOver m)

theorem BranchTurn.refl (p : Params) (x : Branch) : BranchTurn p x x :=
  .mark x x.applied x.enable x.owner x.incident x.lost fun h _ => h

/-- The limits that a loading gives. -/
abbrev Limits.Fit (v : Limits) : Prop := v.floor ≤ v.cap ∧ v.cap ≤ 4000

/-- What an act of a loading's end, or a power-on reset, does to a branch record. -/
inductive BranchLoad : Params → Branch → Params → Branch → Prop
  | turn {p : Params} {x y : Branch} (h : BranchTurn p x y) : BranchLoad p x p y
  | reset (p : Params) (x : Branch) (b : BranchNo) (hold : Bool) : BranchLoad p x Params.default (Branch.reset b hold)
  | powerOn (p q : Params) (x : Branch) (v : Limits) (h : v.Fit) : BranchLoad p x q (x.loadPowerOn v)
  | warm (p q : Params) (x : Branch) (v : Limits) (h : v.Fit) : BranchLoad p x q (x.loadWarm q.primeFlow v)
  | adopt (p : Params) (x : Branch) (h : x.dock = .admitted ∨ x.dock = .adopting) :
      BranchLoad p x p { x.enter .adopting with dockTimer := none }
  | prime (p : Params) (x : Branch) (timer : Option Nat) (h : x.dock = .priming) :
      BranchLoad p x p { x with dockTimer := timer, trim := 0 }
  | respond (p : Params) (x : Branch) (close : Option Nat) (h : x.causes ≠ []) : BranchLoad p x p (x.respond close)
  | redrive (p : Params) (x : Branch) : BranchLoad p x p x.redrive

section

variable {keep : Bool} {s t : State}

theorem updBranch_turns {f : Branch → Branch} {i : BranchNo} (h : BranchTurn s.params (s.br i) (f (s.br i))) (b : BranchNo) :
    BranchTurn s.params (s.br b) ((s.updBranch i f).br b) := by
  by_cases same : i = b
  · subst same
    simpa using h
  · rw [State.updBranch_br_ne _ _ _ same]
    exact .refl _ _

theorem SameButIncidents.turns (h : SameButIncidents s t) (b : BranchNo) : BranchTurn s.params (s.br b) (t.br b) := by
  rw [h.br b]
  exact .mark _ _ _ _ _ _ fun applied _ => applied

theorem applyDuty_turns (p : Params) (x : Branch) : BranchTurn p x x.applyDuty := by
  unfold Branch.applyDuty
  split
  · exact .mark x x.commanded x.enable x.owner x.incident x.lost fun _ h => h
  · exact .refl _ _

theorem disable_turns (p : Params) (x : Branch) : BranchTurn p x x.disable := by
  unfold Branch.disable
  split
  · exact .mark x 0 false x.owner x.incident x.lost fun _ _ => Nat.zero_le _
  · exact .refl _ _

theorem dropReference_turns (k : SlotNo) (g : Option Target) (s : State) (b : BranchNo) :
    BranchTurn s.params (s.br b) ((dropReference k g s).br b) := by
  unfold dropReference
  split
  · refine updBranch_turns ?_ b
    split
    · exact .mark _ _ _ _ _ _ fun h _ => h
    · exact .refl _ _
  · exact .refl _ _
  · exact .refl _ _

theorem publishGrants_turns (s : State) (b : BranchNo) :
    BranchTurn s.params (s.br b) ((publishGrants (roundPlan s).given s).br b) := by
  rw [publishGrants_br]
  split
  case isTrue inside =>
    refine .give _ _ inside fun limited => ?_
    obtain ⟨floor, -, -, -, grant, -⟩ := limited
    have given : (s.br b).dock = .adopting → Vec.pick (roundPlan s).given b ≤ (s.br b).cap := fun adopting => by
      rw [roundPlan_given_of_adopting adopting]
      split
      · exact grant
      · refine (Nat.div_le_of_le_mul ?_).trans grant
        rw [mul_comm]
        exact Nat.mul_le_mul_right _ (by omega)
    cases dock : (s.br b).dock with
    | priming =>
      have least := roundPlan_given_of_priming dock
      exact ⟨least.trans (Nat.min_le_right _ _), fun _ => least⟩
    | admitted => exact ⟨roundPlan_given_of_admitted dock floor, nofun⟩
    | adopting => exact ⟨given dock, nofun⟩
    | _ => rw [dock] at inside; cases inside
  case isFalse => exact .refl _ _

@[simp] theorem railTakes_br (c : RailCause) (s : State) (b : BranchNo) : (railTakes c s).br b = s.br b := by
  unfold railTakes
  dsimp only
  split <;> rfl

@[simp] theorem railTakes_params (c : RailCause) (s : State) : (railTakes c s).params = s.params := by
  unfold railTakes
  dsimp only
  split <;> rfl

@[simp] theorem warmRestart_br (s : State) (b : BranchNo) : (warmRestart s).br b = (s.br b).warm := by
  unfold warmRestart
  dsimp only
  split <;> simp [State.br]

@[simp] theorem warmRestart_params (s : State) : (warmRestart s).params = s.params := by
  unfold warmRestart
  dsimp only
  split <;> rfl

@[simp] theorem freeSlot_params (k : SlotNo) (s : State) : (freeSlot k s).params = s.params := by
  unfold freeSlot dropReference
  split <;> rfl

@[simp] theorem takeStrip_br (n : StripNo) (level : StripState) (s : State) (b : BranchNo) :
    (takeStrip n level s).br b = s.br b := rfl

/-- What an act does to a branch record, and that only a power-on reset changes the parameters. -/
theorem Act.turns (h : Act keep s t) (b : BranchNo) :
    t.params = s.params ∧ BranchTurn s.params (s.br b) (t.br b) ∨ ∃ hold speed, t = poweredOn hold speed s := by
  cases h with
  | branch i f h => exact .inl ⟨rfl, updBranch_turns (.act h) b⟩
  | transfer i j m distinct source target spare room =>
    refine .inl ⟨rfl, ?_⟩
    by_cases second : j = b
    · subst second
      rw [State.updBranch_br_same, State.updBranch_br_ne _ _ _ distinct]
      exact .takeOver _ m target room
    · rw [State.updBranch_br_ne _ _ _ second]
      exact updBranch_turns (.giveUp _ m source) b
  | round => exact .inl ⟨rfl, publishGrants_turns s b⟩
  | ringAdd g c byContact h => exact .inl ⟨by simp, (ringAdd_same g c byContact s).turns b⟩
  | closeRecord g => exact .inl ⟨by simp, (closeRecord_same g s).turns b⟩
  | freeSlot k h => exact .inl ⟨by simp, dropReference_turns k _ (s.updSlot k fun _ => Slot.free) b⟩
  | trip => exact .inl ⟨rfl, by simpa [tripTaken, clearEnables, State.br] using disable_turns s.params (s.br b)⟩
  | enables h =>
    refine .inl ⟨rfl, ?_⟩
    simpa [setEnables] using BranchTurn.mark (s.br b) (s.br b).applied true (s.br b).owner (s.br b).incident (s.br b).lost
      fun h _ => h
  | period => exact .inl ⟨rfl, by simpa [startPeriod] using applyDuty_turns s.params (s.br b)⟩
  | warm => exact .inl ⟨by simp, by simpa using BranchTurn.warm (s.br b)⟩
  | window n w h =>
    refine .inl ⟨rfl, ?_⟩
    simpa [replaceWindow, State.br] using BranchTurn.mark (s.br b) (s.br b).applied (s.br b).enable
      (ownerAfter n w b (s.br b).owner) (s.br b).incident (s.br b).lost fun h _ => h
  | railTakes c fresh h => exact .inl ⟨by simp, by simpa using BranchTurn.refl _ _⟩
  | railShuts h => exact .inl ⟨by simp [Machine.railShuts], by simpa [Machine.railShuts] using BranchTurn.refl _ _⟩
  | reset hold speed => exact .inr ⟨hold, speed, rfl⟩
  | store => exact .inl ⟨by simp, by simpa using BranchTurn.refl _ _⟩
  | _ => exact .inl ⟨rfl, .refl _ _⟩

theorem Act.loads_br (h : Act keep s t) (b : BranchNo) : BranchLoad s.params (s.br b) t.params (t.br b) := by
  obtain ⟨params, turn⟩ | ⟨hold, speed, rfl⟩ := h.turns b
  · rw [params]
    exact .turn turn
  · rw [poweredOn_br]
    exact .reset ..

theorem loadedLimits_fit (blocks : List (List Byte)) (b : BranchNo) : (loadedLimits blocks b).Fit := by
  unfold loadedLimits withBlock
  split
  · decide
  · refine ⟨Nat.min_le_left _ _, ?_⟩
    simp only [readLimits, inRange]
    split <;> omega

theorem takeValues_br (blocks : List (List Byte)) (s : State) (b : BranchNo) :
    (takeValues blocks s).br b = if s.loader.afterPowerOn then (s.br b).loadPowerOn (loadedLimits blocks b)
      else (s.br b).loadWarm (loadedParams blocks).primeFlow (loadedLimits blocks b) := by
  simp [takeValues, State.br]

@[simp] theorem resumeDuties_br (s : State) (b : BranchNo) : (resumeDuties s).br b = (s.br b).redrive := by
  simp [resumeDuties, State.br, State.mapBranches]

theorem updBranch_loads {f : Branch → Branch} {i : BranchNo}
    (h : BranchLoad s.params (s.br i) s.params (f (s.br i))) (b : BranchNo) :
    BranchLoad s.params (s.br b) (s.updBranch i f).params ((s.updBranch i f).br b) := by
  by_cases same : i = b
  · subst same
    simpa using h
  · rw [State.updBranch_br_ne _ _ _ same]
    exact .turn (.refl _ _)

theorem LoadAct.loads_br (h : LoadAct s t) (b : BranchNo) : BranchLoad s.params (s.br b) t.params (t.br b) := by
  cases h with
  | act h => exact h.loads_br b
  | values blocks =>
    rw [takeValues_br]
    split
    · exact .powerOn _ _ _ _ (loadedLimits_fit blocks b)
    · exact .warm _ _ _ _ (loadedLimits_fit blocks b)
  | adopt i h => exact updBranch_loads (.adopt _ _ h) b
  | prime i timer h => exact updBranch_loads (.prime _ _ timer h) b
  | respond i h => exact updBranch_loads (.respond _ _ _ h) b
  | bypass => exact .turn (.refl _ _)
  | duties =>
    rw [resumeDuties_br]
    exact .redrive _ _

/-- A law of one branch record that outlives time and that every turn and every load keeps is kept by every step. -/
theorem step_keeps_br {law : Params → Branch → Prop} (time : ∀ p x ms, law p x → law p (x.elapse ms))
    (load : ∀ p x q y, BranchLoad p x q y → law p x → law q y) (h : ∀ b, law s.params (s.br b)) (stepped : step s = .next t) :
    ∀ b, law t.params (t.br b) :=
  step_keeps_of_loads (law := fun s => ∀ b, law s.params (s.br b)) (fun _ _ h => h)
    (fun s ms h b => by rw [elapse_br]; exact time _ _ ms (h b)) (fun s t a h b => load _ _ _ _ (a.loads_br b) (h b)) h stepped

end

end Sys2Proof.Machine
end

section
/-! PROOF. The laws of a branch record that every step keeps: no grant outside the participating states, causes only where
the bay is isolated, and the LED of the dock state (O6, O9, O18). -/

namespace Sys2Proof.Machine

open Sys2Proof Sys2Proof.Safety

section

variable {p q : Params} {x y : Branch} {may shut : Prop} {s t : State}

theorem ContactEntry.resting (h : ContactEntry x y) : y.dock.resting = true := by cases h <;> rfl

@[simp] theorem DockState.resting_not_participating {d : DockState} (h : d.resting = true) : d.participating = false := by
  cases d <;> first | rfl | cases h

/-! ## No grant outside the participating states (R62) -/

/-- R62 for one branch record. -/
abbrev Branch.Granted (x : Branch) : Prop := x.dock.participating = false → x.grant = 0

theorem ContactEntry.grant (h : ContactEntry x y) : y.grant = x.grant := by cases h <;> rfl

theorem Branch.respond_granted (close : Option Nat) (h : x.Granted) : (x.respond close).Granted := by
  unfold Branch.Granted Branch.respond at *
  cases dock : x.dock <;> simp_all [Branch.zeroed, Branch.toIsolated, DockState.participating]

theorem BranchAct.granted (a : BranchAct p may shut x y) (h : x.Granted) : y.Granted := by
  cases a with
  | setTo v => 
    intro out
    have none := h out
    simp only [Branch.setTo, Branch.redrive_grant, loweredGrant, none]
    split <;> simp
  | toPriming => nofun
  | toAdmitted => nofun
  | toReleasing => exact fun _ => rfl
  | toDraining from_ => exact fun _ => h (by rw [from_]; rfl)
  | toPullReady from_ => exact fun _ => h (by rcases from_ with e | e | e <;> rw [e] <;> rfl)
  | toIsolated from_ => exact fun _ => h (by rw [from_]; rfl)
  | rest entry from_ =>
    intro _
    rw [entry.grant]
    rcases from_ with resting | ⟨isolating, -⟩
    · exact h (DockState.resting_not_participating resting)
    · exact h (by rw [isolating]; rfl)
  | addCause close c => exact Branch.respond_granted close h
  | exit c isolated _ entry =>
    intro _
    rw [entry.grant]
    exact h (by rw [isolated]; rfl)
  | _ => exact h

theorem BranchTurn.granted (a : BranchTurn p x y) (h : x.Granted) : y.Granted := by
  cases a with
  | act a => exact a.granted h
  | give _ g inside => exact fun out => absurd (inside.symm.trans out) (by decide)
  | giveUp _ m admitted => exact fun out => absurd (out.symm.trans (congrArg DockState.participating admitted)) (by decide)
  | takeOver _ m admitted => exact fun out => absurd (out.symm.trans (congrArg DockState.participating admitted)) (by decide)
  | _ => exact h

theorem BranchLoad.granted (a : BranchLoad p x q y) (h : x.Granted) : y.Granted := by
  cases a with
  | turn a => exact a.granted h
  | reset => exact fun _ => rfl
  | powerOn => exact fun _ => rfl
  | warm _ _ _ v =>
    intro out
    have none := h out
    simp only [Branch.loadWarm, none]
    split <;> simp
  | adopt => nofun
  | respond _ close => exact Branch.respond_granted close h
  | _ => exact h

/-! ## Causes and isolation (R27) -/

/-- R27 for one branch record. -/
abbrev Branch.Secluded (x : Branch) : Prop :=
  (x.causes ≠ [] → x.dock = .isolating ∨ x.dock = .isolated) ∧ (x.dock = .isolated → x.causes ≠ [])

theorem ContactEntry.causes (h : ContactEntry x y) : y.causes = x.causes := by cases h <;> rfl

theorem Branch.Secluded.free (h : x.Secluded) (isolating : x.dock ≠ .isolating) (isolated : x.dock ≠ .isolated) :
    x.causes = [] := by
  by_contra held
  exact (h.1 held).elim isolating isolated

/-- A record without causes outside ISOLATED. -/
theorem Branch.secluded_of_free (causes : x.causes = []) (dock : x.dock ≠ .isolated) : x.Secluded :=
  ⟨fun held => absurd causes held, fun isolated => absurd isolated dock⟩

theorem ContactEntry.secluded (h : ContactEntry x y) (free : x.causes = []) : y.Secluded :=
  Branch.secluded_of_free (h.causes.trans free) fun e => by have := h.resting; rw [e] at this; cases this

theorem Branch.respond_secluded (close : Option Nat) (h : x.causes ≠ []) : (x.respond close).Secluded := by
  refine ⟨fun _ => respond_stands close x, fun _ => ?_⟩
  rw [Branch.respond_causes]
  exact h

/-- A law of the dock state and the causes passes to a record with the same ones. -/
theorem Branch.Secluded.same (h : x.Secluded) (dock : y.dock = x.dock) (causes : y.causes = x.causes) : y.Secluded := by
  unfold Branch.Secluded
  rw [dock, causes]
  exact h

theorem DockState.resting_ne {d : DockState} (h : d.resting = true) : d ≠ .isolating ∧ d ≠ .isolated := by
  constructor <;> rintro rfl <;> cases h

theorem DockState.participating_ne {d : DockState} (h : d.participating = true) : d ≠ .isolating ∧ d ≠ .isolated := by
  constructor <;> rintro rfl <;> cases h

theorem BranchAct.secluded (a : BranchAct p may shut x y) (h : x.Secluded) : y.Secluded := by
  have moved : ∀ {d}, x.dock = d → d ≠ .isolating ∧ d ≠ .isolated → x.causes = [] := fun e ne =>
    h.free (by rw [e]; exact ne.1) (by rw [e]; exact ne.2)
  cases a with
  | toPriming from_ =>
    refine Branch.secluded_of_free ?_ nofun
    rcases from_ with adopting | ⟨held, -⟩
    · exact moved adopting (by decide)
    · exact moved held (by decide)
  | toAdmitted from_ =>
    refine Branch.secluded_of_free ?_ nofun
    rcases from_ with priming | adopting
    · exact moved priming (by decide)
    · exact moved adopting (by decide)
  | toReleasing from_ => exact Branch.secluded_of_free (moved rfl (DockState.participating_ne from_)) nofun
  | toDraining from_ => exact Branch.secluded_of_free (moved from_ (by decide)) nofun
  | toPullReady from_ =>
    refine Branch.secluded_of_free ?_ nofun
    rcases from_ with e | e | e <;> exact moved e (by decide)
  | toIsolated _ held => exact ⟨fun _ => .inr rfl, fun _ => held⟩
  | rest entry from_ =>
    refine entry.secluded ?_
    rcases from_ with resting | ⟨-, free, -⟩
    · exact moved rfl (DockState.resting_ne resting)
    · exact free
  | addCause close c => exact Branch.respond_secluded close (by simp)
  | dropCause c left =>
    refine ⟨fun some => h.1 fun none => some ?_, left⟩
    simp [none]
  | exit c isolated last entry => exact entry.secluded last
  | _ => exact h.same rfl rfl

theorem BranchTurn.secluded (a : BranchTurn p x y) (h : x.Secluded) : y.Secluded := by
  cases a with
  | act a => exact a.secluded h
  | _ => exact h.same rfl rfl

theorem BranchLoad.secluded (a : BranchLoad p x q y) (h : x.Secluded) : y.Secluded := by
  cases a with
  | turn a => exact a.secluded h
  | reset => exact Branch.secluded_of_free rfl nofun
  | adopt _ from_ =>
    refine Branch.secluded_of_free ?_ nofun
    rcases from_ with e | e <;> exact h.free (by rw [e]; decide) (by rw [e]; decide)
  | respond _ close held => exact Branch.respond_secluded close held
  | _ => exact h.same rfl rfl

theorem step_isolationLaw (h : IsolationLaw s) (stepped : step s = .next t) : IsolationLaw t :=
  step_keeps_br (law := fun _ x => x.Secluded) (fun _ _ _ h => h) (fun _ _ _ _ a => a.secluded) h stepped

/-! ## The LED (R7) -/

/-- R7 for one branch record: the LED is the one of the dock state, and where it is not `led` its blink starts anew. -/
abbrev Branch.Shows (led : LedPattern) (x : Branch) : Prop := x.led = x.dock.led ∧ (x.led ≠ led → x.ledPhase = 0)

theorem Branch.enter_shows {led : LedPattern} (d : DockState) (h : x.Shows led) : (x.enter d).Shows led := by
  refine ⟨rfl, fun other => ?_⟩
  simp only [Branch.enter] at other ⊢
  split
  case isTrue same => exact h.2 (same ▸ other)
  case isFalse => rfl

/-- A law of the LED passes to a record with the same dock state, LED and blink. -/
theorem Branch.Shows.same {led : LedPattern} (h : x.Shows led) (dock : y.dock = x.dock) (same : y.led = x.led)
    (phase : y.ledPhase = x.ledPhase) : y.Shows led := by
  unfold Branch.Shows
  rw [dock, same, phase]
  exact h

theorem ContactEntry.shows {led : LedPattern} (a : ContactEntry x y) (h : x.Shows led) : y.Shows led := by
  cases a <;> exact (Branch.enter_shows _ h).same rfl rfl rfl

theorem Branch.respond_shows {led : LedPattern} (close : Option Nat) (h : x.Shows led) : (x.respond close).Shows led := by
  unfold Branch.respond
  split
  case h_1 | h_2 | h_3 => exact (Branch.enter_shows (x := x.zeroed) .isolating (h.same rfl rfl rfl)).same rfl rfl rfl
  case h_4 => exact Branch.enter_shows _ h
  case h_10 | h_11 => exact h
  all_goals exact (Branch.enter_shows .isolated h).same rfl rfl rfl

theorem BranchAct.shows {led : LedPattern} (a : BranchAct p may shut x y) (h : x.Shows led) : y.Shows led := by
  cases a with
  | toPriming => exact (Branch.enter_shows .priming h).same rfl rfl rfl
  | toAdmitted => exact (Branch.enter_shows .admitted h).same rfl rfl rfl
  | toReleasing => exact (Branch.enter_shows (x := x.zeroed) .releasing (h.same rfl rfl rfl)).same rfl rfl rfl
  | toDraining => exact (Branch.enter_shows .draining h).same rfl rfl rfl
  | toPullReady => exact (Branch.enter_shows .pullReady h).same rfl rfl rfl
  | toIsolated => exact (Branch.enter_shows .isolated h).same rfl rfl rfl
  | rest entry => exact entry.shows h
  | addCause close c => exact Branch.respond_shows close (h.same rfl rfl rfl)
  | exit c _ _ entry => exact entry.shows (h.same rfl rfl rfl)
  | _ => exact h.same rfl rfl rfl

theorem BranchTurn.shows {led : LedPattern} (a : BranchTurn p x y) (h : x.Shows led) : y.Shows led := by
  cases a with
  | act a => exact a.shows h
  | _ => exact h.same rfl rfl rfl

theorem BranchLoad.shows {led : LedPattern} (a : BranchLoad p x q y) (h : x.Shows led) : y.Shows led := by
  cases a with
  | turn a => exact a.shows h
  | reset => exact ⟨rfl, fun _ => rfl⟩
  | adopt => exact (Branch.enter_shows .adopting h).same rfl rfl rfl
  | respond _ close => exact Branch.respond_shows close h
  | _ => exact h.same rfl rfl rfl

end

/-- Settles O6, by the turns of a branch record. -/
theorem stepKeepsGrantZeroOutsideParticipation : Obligations.StepKeepsGrantZeroOutsideParticipation := by
  intro s t h stepped
  exact step_keeps_br (law := fun _ x => x.Granted) (fun _ _ _ h => h) (fun _ _ _ _ a => a.granted) h stepped

theorem step_shows {s t : State} (h : LedLaw s) (stepped : step s = .next t) (b : BranchNo) :
    (t.br b).Shows (s.br b).led := by
  obtain ⟨q, ms, u, r, rfl, loads⟩ := step_loads stepped
  change (u.br b).Shows (s.br b).led
  refine loads.keeps (law := fun u => (u.br b).Shows (s.br b).led) (fun _ _ a => (a.loads_br b).shows) ?_
  rw [elapse_br]
  exact ⟨h b, fun other => absurd rfl other⟩

theorem DockState.led_eq (d : DockState) : d.led =
    if d = .seated ∨ d = .held then .slow
    else if d = .pullReady then .steady
    else if d = .isolating ∨ d = .isolated then .fast
    else .off := by
  cases d <;> rfl

/-- Settles O18: the LED by the turns of a branch record, the blink from the clock at 0. -/
theorem ledFollowsTheDockState : Obligations.LedFollowsTheDockState := by
  intro s t
  refine ⟨fun h stepped => ?_, DockState.led_eq, fun b => rfl, fun hold speed => ?_⟩
  · exact ⟨fun b => (step_shows h stepped b).1, fun b => (step_shows h stepped b).2⟩
  · exact ⟨_, exec_powerOnReset hold speed s, fun b => by rw [ledPin, poweredOn_br]; rfl⟩

/-- Settles O9, by the turns of a branch record. -/
theorem stepKeepsIsolationStates : Obligations.StepKeepsIsolationStates :=
  fun _ _ h stepped => step_isolationLaw h stepped

end Sys2Proof.Machine
end

section
/-! PROOF. Every step keeps the limits of the branches, the budget, the commanded duties and the ranges (O7, O8). -/

namespace Sys2Proof.Machine

open Sys2Proof Sys2Proof.Safety

section

variable {p q : Params} {x y : Branch} {may shut : Prop} {keep : Bool} {s t : State}

/-! ## The limits (table 1.1, R60) -/

/-- A record whose limits, request and grant are those of a limited record, or whose grant is lower, is limited. -/
theorem Branch.Limited.lower (h : x.Limited p) (floor : y.floor = x.floor) (cap : y.cap = x.cap)
    (request : y.request = x.request) (grant : y.grant ≤ x.grant)
    (priming : y.dock = .priming → x.dock = .priming ∨ y.grant ≤ min p.primeFlow x.cap) : y.Limited p := by
  obtain ⟨hfloor, hcap, hlow, hhigh, hgrant, hprime⟩ := h
  rw [Branch.Limited, floor, cap, request]
  refine ⟨hfloor, hcap, hlow, hhigh, grant.trans hgrant, fun now => ?_⟩
  exact (priming now).elim (fun before => grant.trans (hprime before)) id

theorem ContactEntry.limited (a : ContactEntry x y) (h : x.Limited p) : y.Limited p := by
  obtain ⟨hfloor, hcap, hlow, hhigh, hgrant, -⟩ := h
  cases a <;> exact ⟨hfloor, hcap, by first | exact le_rfl | exact hlow, by first | exact hfloor | exact hhigh, hgrant, nofun⟩

theorem Branch.respond_limited (close : Option Nat) (h : x.Limited p) : (x.respond close).Limited p := by
  unfold Branch.respond
  split
  case h_10 | h_11 => exact h
  case h_1 | h_2 | h_3 => exact h.lower rfl rfl rfl (Nat.zero_le _) nofun
  all_goals exact h.lower rfl rfl rfl le_rfl nofun

theorem BranchAct.limited (a : BranchAct p may shut x y) (granted : x.Granted) (h : x.Limited p) : y.Limited p := by
  obtain ⟨hfloor, hcap, hlow, hhigh, hgrant, hprime⟩ := id h
  cases a with
  | request r within => exact ⟨hfloor, hcap, (within hfloor).1, (within hfloor).2, hgrant, hprime⟩
  | setTo v fit =>
    have request := clampNat_within v.floor v.cap x.request fit.1
    refine ⟨fit.1, fit.2, request.1, request.2, ?_, fun priming => ?_⟩
    · simp only [Branch.setTo, Branch.redrive, loweredGrant]
      split <;> omega
    · have before : x.dock = .priming := priming
      simp only [Branch.setTo, Branch.redrive, loweredGrant, if_pos before]
      omega
  | toPriming from_ =>
    refine h.lower rfl rfl rfl ?_ fun _ => .inr ?_
    · simp only [Branch.toPriming, Branch.redrive_grant]
      split <;> omega
    · simp only [Branch.toPriming, Branch.redrive_grant]
      rcases from_ with adopting | ⟨held, -⟩
      · rw [if_pos adopting]
        exact Nat.min_le_right _ _
      · rw [if_neg (by rw [held]; decide), granted (by rw [held]; rfl)]
        exact Nat.zero_le _
  | toAdmitted => exact h.lower rfl rfl rfl le_rfl nofun
  | toReleasing => exact h.lower rfl rfl rfl (Nat.zero_le _) nofun
  | toDraining => exact h.lower rfl rfl rfl le_rfl nofun
  | toPullReady => exact h.lower rfl rfl rfl le_rfl nofun
  | toIsolated => exact h.lower rfl rfl rfl le_rfl nofun
  | rest entry => exact entry.limited h
  | addCause close c => exact Branch.respond_limited (x := { x with causes := x.causes ++ [c] }) close h
  | exit c _ _ entry => exact entry.limited (x := { x with causes := x.causes.filter (· ≠ c) }) h
  | _ => exact h

theorem BranchTurn.limited (a : BranchTurn p x y) (granted : x.Granted) (h : x.Limited p) : y.Limited p := by
  obtain ⟨hfloor, hcap, hlow, hhigh, hgrant, hprime⟩ := id h
  cases a with
  | act a => exact a.limited granted h
  | give _ g _ bound => exact ⟨hfloor, hcap, hlow, hhigh, (bound h).1, (bound h).2⟩
  | giveUp _ m admitted =>
    refine ⟨hfloor, hcap, Nat.le_max_left _ _, ?_, ?_, fun priming => absurd (admitted.symm.trans priming) (by decide)⟩
    · exact Nat.max_le.2 ⟨hfloor, (Nat.sub_le _ _).trans hhigh⟩
    · exact (Nat.sub_le _ _).trans hgrant
  | takeOver _ m admitted room =>
    refine ⟨hfloor, hcap, ?_, Nat.min_le_left _ _, ?_, fun priming => absurd (admitted.symm.trans priming) (by decide)⟩
    · exact Nat.le_min.2 ⟨hfloor, hlow.trans (Nat.le_add_right _ _)⟩
    · simp only [Branch.takeOver, Branch.redrive]
      omega
  | _ => exact h

theorem BranchLoad.limited (a : BranchLoad p x q y) (granted : x.Granted) (h : x.Limited p) : y.Limited q := by
  cases a with
  | turn a => exact a.limited granted h
  | reset => exact ⟨Nat.le_of_ble_eq_true rfl, Nat.le_of_ble_eq_true rfl, le_rfl, Nat.le_of_ble_eq_true rfl, Nat.zero_le _, nofun⟩
  | powerOn _ _ v fit => exact ⟨fit.1, fit.2, le_rfl, fit.1, Nat.zero_le _, fun _ => Nat.zero_le _⟩
  | warm _ _ v fit =>
    have request := clampNat_within v.floor v.cap x.request fit.1
    refine ⟨fit.1, fit.2, request.1, request.2, ?_, fun priming => ?_⟩
    · simp only [Branch.loadWarm]
      split <;> omega
    · have before : x.dock = .priming := priming
      simp only [Branch.loadWarm, if_pos before]
      omega
  | adopt => exact h.lower rfl rfl rfl le_rfl nofun
  | respond _ close => exact Branch.respond_limited close h
  | _ => exact h

/-! ## The budget (R59) -/

theorem BranchAct.grant_le (a : BranchAct p may shut x y) : y.grant ≤ x.grant := by
  cases a with
  | setTo v =>
    simp only [Branch.setTo, Branch.redrive, loweredGrant]
    split <;> omega
  | toPriming =>
    simp only [Branch.toPriming, Branch.redrive_grant]
    split <;> omega
  | toReleasing => exact Nat.zero_le _
  | rest entry => exact entry.grant.le
  | addCause close c =>
    unfold Branch.respond
    split
    case h_1 | h_2 | h_3 => exact Nat.zero_le _
    all_goals exact le_rfl
  | exit c _ _ entry => exact entry.grant.le
  | _ => exact le_rfl

theorem respond_grant_le (close : Option Nat) (x : Branch) : (x.respond close).grant ≤ x.grant := by
  unfold Branch.respond
  split
  case h_1 | h_2 | h_3 => exact Nat.zero_le _
  all_goals exact le_rfl

theorem grantSum_le (h : ∀ b, (t.br b).grant ≤ (s.br b).grant) : grantSum t ≤ grantSum s := by
  unfold grantSum
  rw [sumBranches_eq_sum, sumBranches_eq_sum]
  exact Finset.sum_le_sum fun b _ => h b

/-- R59 where no grant rises and the Allocator keeps its target and its budget. -/
theorem budgetLaw_of_grants (h : BudgetLaw s) (grants : ∀ b, (t.br b).grant ≤ (s.br b).grant)
    (bypass : t.alloc.bypassTarget = s.alloc.bypassTarget) (budget : t.alloc.effectiveBudget = s.alloc.effectiveBudget) :
    BudgetLaw t := by
  have sums := grantSum_le grants
  rw [BudgetLaw, bypass, budget]
  omega

theorem updBranch_grants {f : Branch → Branch} {i : BranchNo} (h : (f (s.br i)).grant ≤ (s.br i).grant) (b : BranchNo) :
    ((s.updBranch i f).br b).grant ≤ (s.br b).grant := by
  by_cases same : i = b
  · subst same
    simpa using h
  · rw [State.updBranch_br_ne _ _ _ same]

/-- R65: a transfer keeps the sum of the grants. -/
theorem transfer_grantSum {i j : BranchNo} {m : Nat} (distinct : i ≠ j) (spare : m ≤ (s.br i).grant) :
    grantSum ((s.updBranch i (Branch.giveUp m)).updBranch j (Branch.takeOver m)) = grantSum s := by
  have moved : ∀ b, (((s.updBranch i (Branch.giveUp m)).updBranch j (Branch.takeOver m)).br b).grant + (if i = b then m else 0) =
      (s.br b).grant + if j = b then m else 0 := by
    intro b
    by_cases second : j = b
    · subst second
      rw [State.updBranch_br_same, State.updBranch_br_ne _ _ _ distinct, if_neg distinct, if_pos rfl]
      rfl
    · rw [State.updBranch_br_ne _ _ _ second, if_neg second]
      by_cases first : i = b
      · subst first
        rw [State.updBranch_br_same, if_pos rfl]
        exact Nat.sub_add_cancel spare
      · rw [State.updBranch_br_ne _ _ _ first, if_neg first]
  have sums := sumBranches_congr moved
  rw [sumBranches_add, sumBranches_add] at sums
  simpa [grantSum, sumBranches_eq_sum] using sums

@[simp] theorem railTakes_alloc (c : RailCause) (s : State) : (railTakes c s).alloc = s.alloc := by
  unfold railTakes
  dsimp only
  split <;> rfl

@[simp] theorem warmRestart_alloc (s : State) : (warmRestart s).alloc = s.alloc.warm := by
  unfold warmRestart
  dsimp only
  split <;> rfl

@[simp] theorem freeSlot_alloc (k : SlotNo) (s : State) : (freeSlot k s).alloc = s.alloc := by
  unfold freeSlot dropReference
  split <;> rfl

theorem Act.budgetLaw (a : Act keep s t) (grant : GrantLaw s) (h : BudgetLaw s) : BudgetLaw t := by
  cases a with
  | branch i f act => exact budgetLaw_of_grants h (updBranch_grants act.grant_le) rfl rfl
  | transfer i j m distinct source target spare room =>
    rw [BudgetLaw, transfer_grantSum distinct (spare.trans (Nat.sub_le _ _))]
    exact h
  | round => exact (roundTaken_spends grant).le
  | alloc f budget bypass => exact budgetLaw_of_grants h (fun _ => le_rfl) bypass budget
  | ringAdd g c byContact =>
    exact budgetLaw_of_grants h (fun b => ((ringAdd_same g c byContact s).grant b).le) (by simp) (by simp)
  | closeRecord g => exact budgetLaw_of_grants h (fun b => by rw [closeRecord_br]) (by simp) (by simp)
  | freeSlot k =>
    refine budgetLaw_of_grants h (fun b => ?_) (by simp) (by simp)
    simp only [Machine.freeSlot, dropReference]
    split
    · refine updBranch_grants (s := s.updSlot k fun _ => Slot.free) ?_ b
      split <;> exact le_rfl
    · exact le_rfl
    · exact le_rfl
  | trip =>
    refine budgetLaw_of_grants h (fun b => ?_) rfl rfl
    simp only [tripTaken, clearEnables, State.updValves_br, State.mapBranches_br, Branch.disable]
    split <;> exact le_rfl
  | enables => exact budgetLaw_of_grants h (fun b => by simp [setEnables]) rfl rfl
  | period =>
    refine budgetLaw_of_grants h (fun b => ?_) rfl rfl
    simp only [startPeriod, State.updValves_br, State.mapBranches_br, Branch.applyDuty]
    split <;> exact le_rfl
  | warm => exact budgetLaw_of_grants h (fun b => by rw [warmRestart_br]; exact le_rfl) (by simp [Allocator.warm]) (by simp [Allocator.warm])
  | window n w => exact budgetLaw_of_grants h (fun b => by simp [replaceWindow, State.br]) rfl rfl
  | railTakes c => exact budgetLaw_of_grants h (fun b => by rw [railTakes_br]) (by simp) (by simp)
  | railShuts => exact budgetLaw_of_grants h (fun b => by simp [Machine.railShuts]) (by simp [Machine.railShuts]) (by simp [Machine.railShuts])
  | store k half f => exact budgetLaw_of_grants h (fun b => by simp) (by simp) (by simp)
  | reset hold speed =>
    refine le_of_eq ?_
    rw [grantSum, sumBranches_eq_zero fun b => by rw [poweredOn_br]; rfl]
    rfl
  | _ => exact budgetLaw_of_grants h (fun _ => le_rfl) rfl rfl

theorem LoadAct.budgetLaw (a : LoadAct s t) (grant : GrantLaw s) (h : BudgetLaw s) : BudgetLaw t := by
  cases a with
  | act a => exact a.budgetLaw grant h
  | values blocks =>
    refine budgetLaw_of_grants h (fun b => ?_) rfl rfl
    rw [takeValues_br]
    split
    · exact Nat.zero_le _
    · simp only [Branch.loadWarm]
      split
      · exact (Nat.min_le_left _ _).trans (Nat.min_le_left _ _)
      · exact Nat.min_le_left _ _
  | adopt i => exact budgetLaw_of_grants h (updBranch_grants le_rfl) rfl rfl
  | prime i timer => exact budgetLaw_of_grants h (updBranch_grants le_rfl) rfl rfl
  | respond i => exact budgetLaw_of_grants h (updBranch_grants (respond_grant_le _ _)) rfl rfl
  | bypass => exact budgetLaw_of_grants h (fun _ => le_rfl) rfl rfl
  | duties => exact budgetLaw_of_grants h (fun b => by rw [resumeDuties_br]; exact le_rfl) rfl rfl

/-- The limits and the budget with the law they rest on. -/
theorem LoadAct.limits (a : LoadAct s t) (h : GrantLaw s ∧ LimitLaw s ∧ BudgetLaw s) :
    GrantLaw t ∧ LimitLaw t ∧ BudgetLaw t := by
  obtain ⟨grant, limit, budget⟩ := h
  exact ⟨fun b => (a.loads_br b).granted (grant b), fun b => (a.loads_br b).limited (grant b) (limit b),
    a.budgetLaw grant budget⟩

end

/-- Settles O7, by the acts of a step: a round spends the budget, a transfer keeps the sum, and nothing else raises a
grant. -/
theorem stepKeepsLimitsAndTheBudget : Obligations.StepKeepsLimitsAndTheBudget := by
  intro s t grant limit budget stepped
  refine step_keeps_of_loads (law := fun s => GrantLaw s ∧ LimitLaw s ∧ BudgetLaw s) (fun _ _ h => h) ?_
    (fun _ _ a => a.limits) ⟨grant, limit, budget⟩ stepped
  rintro s ms ⟨grant, limit, budget⟩
  have same : ∀ b, ((elapse ms s).br b).grant = (s.br b).grant := fun b => by rw [elapse_br]; rfl
  refine ⟨fun b => ?_, fun b => ?_, budgetLaw_of_grants budget (fun b => (same b).le) rfl rfl⟩
  · rw [elapse_br]
    exact grant b
  · rw [elapse_br]
    exact limit b

end Sys2Proof.Machine
end

section
/-! PROOF. Every step keeps the commanded duties as the rules give them, and the ranges (O8). -/

namespace Sys2Proof.Machine

open Sys2Proof Sys2Proof.Safety

section

variable {p q : Params} {x y : Branch} {may shut : Prop} {keep : Bool} {s t : State}

/-! ## The duty of a branch valve (R78, R80) -/

/-- R78, R80 for one branch record. -/
def Branch.Driven (x : Branch) : Prop := x.commanded = x.duty ∧ (x.grant = 0 → x.trim = 0)

theorem Branch.duty_eq (x : Branch) : x.duty =
    if x.dock.participating = true ∧ x.causes = [] ∧ x.grant ≠ 0 then
      (max 0 (min 1000 ((min 1000 (x.grant * 1000 / x.fopen) : Nat) + x.trim))).toNat
    else 0 := by
  simp only [Branch.duty, clampInt, feedForward, Bool.and_eq_true, List.isEmpty_iff, bne_iff_ne, and_assoc]

theorem dutyLaw_iff (s : State) : DutyLaw s ↔ ∀ b, (s.br b).Driven := by
  simp only [DutyLaw, Branch.Driven, Branch.duty_eq]

theorem Branch.duty_le (x : Branch) : x.duty ≤ 1000 := by
  rw [Branch.duty_eq]
  split <;> omega

theorem Branch.duty_of_out (h : x.dock.participating = false) : x.duty = 0 := by simp [Branch.duty, h]

theorem Branch.duty_of_grant (h : x.grant = 0) : x.duty = 0 := by simp [Branch.duty, h]

theorem Branch.redrive_driven (x : Branch) : x.redrive.Driven := by
  refine ⟨?_, fun none => if_pos none⟩
  by_cases none : x.grant = 0
  · rw [Branch.redrive_commanded, Branch.duty_of_grant none, Branch.duty_of_grant (x := x.redrive) none]
  · simp only [Branch.redrive, Branch.duty, if_neg none]

/-- A record outside the participating states before and after keeps its commanded duty of 0. -/
theorem Branch.Driven.out (h : x.Driven) (before : x.dock.participating = false) (after : y.dock.participating = false)
    (commanded : y.commanded = x.commanded) (grant : y.grant = x.grant) (trim : y.trim = x.trim ∨ y.trim = 0) :
    y.Driven := by
  refine ⟨?_, fun none => ?_⟩
  · rw [commanded, h.1, Branch.duty_of_out before, Branch.duty_of_out after]
  · exact trim.elim (fun same => same.trans (h.2 (grant ▸ none))) id

theorem Branch.zeroed_driven (grant : y.grant = 0) (commanded : y.commanded = 0) (trim : y.trim = 0) : y.Driven :=
  ⟨commanded.trans (Branch.duty_of_grant grant).symm, fun _ => trim⟩

/-- A participating record that keeps its duty's terms and participates still keeps its duty. -/
theorem Branch.Driven.same (h : x.Driven) (participating : y.dock.participating = x.dock.participating)
    (causes : y.causes = x.causes) (grant : y.grant = x.grant) (fopen : y.fopen = x.fopen) (trim : y.trim = x.trim)
    (commanded : y.commanded = x.commanded) : y.Driven := by
  unfold Branch.Driven Branch.duty at *
  rw [participating, causes, grant, fopen, trim, commanded]
  exact h

theorem ContactEntry.driven (a : ContactEntry x y) (out : x.dock.participating = false) (h : x.Driven) : y.Driven := by
  refine h.out out (DockState.resting_not_participating a.resting) ?_ a.grant ?_
  · cases a <;> rfl
  · cases a
    · exact .inr rfl
    · exact .inl rfl
    · exact .inl rfl

theorem Branch.respond_driven (close : Option Nat) (h : x.Driven ∨ x.dock.participating = true) :
    (x.respond close).Driven := by
  unfold Branch.respond
  have driven : x.dock.participating = false → x.Driven := fun out => h.resolve_right (by simp [out])
  split
  case h_1 | h_2 | h_3 => exact Branch.zeroed_driven rfl rfl rfl
  all_goals
    rename_i dock
    have out : x.dock.participating = false := by rw [dock]; rfl
    first
    | exact driven out
    | exact (driven out).out out rfl rfl rfl (.inl rfl)

theorem BranchAct.driven (a : BranchAct p may shut x y) (secluded : x.Secluded) (h : x.Driven) : y.Driven := by
  have out : ∀ {d}, x.dock = d → d.participating = false → x.dock.participating = false := fun e o => e ▸ o
  cases a with
  | trim => exact Branch.redrive_driven _
  | setTo => exact Branch.redrive_driven _
  | toPriming => exact Branch.redrive_driven _
  | toAdmitted from_ => exact h.same (by rcases from_ with e | e <;> rw [e] <;> rfl) rfl rfl rfl rfl rfl
  | toReleasing => exact Branch.zeroed_driven rfl rfl rfl
  | toDraining from_ => exact h.out (out from_ rfl) rfl rfl rfl (.inl rfl)
  | toPullReady from_ =>
    have before : x.dock.participating = false := by rcases from_ with e | e | e <;> rw [e] <;> rfl
    exact h.out before rfl rfl rfl (.inl rfl)
  | toIsolated from_ => exact h.out (out from_ rfl) rfl rfl rfl (.inl rfl)
  | rest entry from_ =>
    refine entry.driven ?_ h
    rcases from_ with resting | ⟨isolating, -⟩
    · exact DockState.resting_not_participating resting
    · exact out isolating rfl
  | addCause close c =>
    refine Branch.respond_driven close ?_
    by_cases inside : x.dock.participating = true
    · exact .inr inside
    · have before : x.dock.participating = false := by simpa using inside
      exact .inl (h.out before before rfl rfl (.inl rfl))
  | dropCause c =>
    by_cases inside : x.dock.participating = true
    · have free := secluded.free (DockState.participating_ne inside).1 (DockState.participating_ne inside).2
      exact h.same rfl (by simp [free]) rfl rfl rfl rfl
    · have before : x.dock.participating = false := by simpa using inside
      exact h.out before before rfl rfl (.inl rfl)
  | exit c isolated _ entry =>
    have before := out isolated rfl
    exact entry.driven before (h.out before before rfl rfl (.inl rfl))
  | _ => exact h

theorem BranchTurn.driven (a : BranchTurn p x y) (secluded : x.Secluded) (h : x.Driven) : y.Driven := by
  cases a with
  | act a => exact a.driven secluded h
  | give => exact Branch.redrive_driven _
  | giveUp => exact Branch.redrive_driven _
  | takeOver => exact Branch.redrive_driven _
  | _ => exact h

/-- The duties and the isolation law they rest on, kept by every act. -/
theorem Act.driven (a : Act keep s t) (h : IsolationLaw s ∧ ∀ b, (s.br b).Driven) :
    IsolationLaw t ∧ ∀ b, (t.br b).Driven := by
  refine ⟨fun b => (a.loads_br b).secluded (h.1 b), fun b => ?_⟩
  obtain ⟨-, turn⟩ | ⟨hold, speed, rfl⟩ := a.turns b
  · exact turn.driven (h.1 b) (h.2 b)
  · rw [poweredOn_br]
    exact Branch.zeroed_driven rfl rfl rfl

theorem Loads.isolationLaw (run : Loads s t) (h : IsolationLaw s) : IsolationLaw t :=
  run.keeps (law := IsolationLaw) (fun _ _ a h b => (a.loads_br b).secluded (h b)) h

theorem endLoading_driven (blocks : List (List Byte)) (reason : EndReason) (defaulted dripFirst : Bool)
    (h : IsolationLaw s) : IsolationLaw (endLoading blocks reason defaulted dripFirst s) ∧
      ∀ b, ((endLoading blocks reason defaulted dripFirst s).br b).Driven := by
  have before := (undriven_loads blocks reason defaulted dripFirst s).isolationLaw h
  refine (endLoading_after (keep := false) blocks reason defaulted dripFirst s).keeps
    (law := fun s => IsolationLaw s ∧ ∀ b, (s.br b).Driven) (fun _ _ a => a.driven) ⟨fun b => ?_, fun b => ?_⟩
  · rw [resumeDuties_br]
    exact before b
  · rw [resumeDuties_br]
    exact Branch.redrive_driven _

theorem step_dutyLaw (isolation : IsolationLaw s) (h : DutyLaw s) (stepped : step s = .next t) : DutyLaw t := by
  rw [dutyLaw_iff] at h ⊢
  refine (step_keeps (law := fun s => IsolationLaw s ∧ ∀ b, (s.br b).Driven) (fun _ _ h => h) ?_ (fun _ _ a => a.driven)
    (fun _ blocks reason defaulted dripFirst h => endLoading_driven blocks reason defaulted dripFirst h.1)
    ⟨isolation, h⟩ stepped).2
  rintro s ms ⟨isolation, h⟩
  refine ⟨fun b => ?_, fun b => ?_⟩
  · rw [elapse_br]
    exact isolation b
  · rw [elapse_br]
    exact h b

/-! ## The duty of the bypass valve (R81) -/

/-- What the bypass duty hangs on. -/
def bypassDrive (s : State) : Nat × Nat × Nat := (s.valves.bypassCommanded, s.alloc.bypassTarget, s.valves.bypassFopen)

theorem bypassDutyLaw_iff (s : State) :
    BypassDutyLaw s ↔ (bypassDrive s).1 = bypassDuty (bypassDrive s).2.1 (bypassDrive s).2.2 := Iff.rfl

theorem driveBypass_bypassDutyLaw (s : State) : BypassDutyLaw (driveBypass s) := (bypassDutyLaw_iff _).2 rfl

theorem bypassDutyLaw_of_bypassDrive_eq (same : bypassDrive t = bypassDrive s) (h : BypassDutyLaw s) : BypassDutyLaw t := by
  rw [bypassDutyLaw_iff] at h ⊢
  rw [same]
  exact h

theorem bypassDrive_of_eq (valves : t.valves = s.valves) (alloc : t.alloc = s.alloc) : bypassDrive t = bypassDrive s := by
  rw [bypassDrive, valves, alloc, bypassDrive]

theorem Act.bypassDutyLaw (a : Act keep s t) (h : BypassDutyLaw s) : BypassDutyLaw t := by
  cases a with
  | round => exact driveBypass_bypassDutyLaw _
  | alloc f budget bypass => exact bypassDutyLaw_of_bypassDrive_eq (by simp [bypassDrive, bypass]) h
  | ringAdd => exact bypassDutyLaw_of_bypassDrive_eq (bypassDrive_of_eq (by simp) (by simp)) h
  | closeRecord => exact bypassDutyLaw_of_bypassDrive_eq (bypassDrive_of_eq (by simp) (by simp)) h
  | freeSlot =>
    refine bypassDutyLaw_of_bypassDrive_eq (bypassDrive_of_eq ?_ (by simp)) h
    simp only [Machine.freeSlot, dropReference]
    split <;> rfl
  | trip =>
    refine bypassDutyLaw_of_bypassDrive_eq ?_ h
    simp only [bypassDrive, tripTaken, clearEnables, State.updValves_valves]
    split <;> rfl
  | warm =>
    refine bypassDutyLaw_of_bypassDrive_eq ?_ h
    simp only [bypassDrive, warmRestart]
    split <;> rfl
  | railTakes c =>
    refine bypassDutyLaw_of_bypassDrive_eq ?_ h
    simp only [bypassDrive, Machine.railTakes]
    split <;> rfl
  | railShuts => exact bypassDutyLaw_of_bypassDrive_eq (bypassDrive_of_eq (by simp [Machine.railShuts]) (by simp [Machine.railShuts])) h
  | store => exact bypassDutyLaw_of_bypassDrive_eq (bypassDrive_of_eq (by simp) (by simp)) h
  | reset => exact (bypassDutyLaw_iff _).2 (by
      simp [bypassDrive, bypassDuty, poweredOn, State.reset, ValveUnit.reset, Allocator.reset])
  | _ => exact h

theorem step_bypassDutyLaw (h : BypassDutyLaw s) (stepped : step s = .next t) : BypassDutyLaw t :=
  step_keeps (fun _ _ h => h) (fun _ _ h => h) (fun _ _ a => a.bypassDutyLaw)
    (fun _ blocks reason defaulted dripFirst _ => (endLoading_after (keep := false) blocks reason defaulted dripFirst _).keeps
      (fun _ _ a => a.bypassDutyLaw) (driveBypass_bypassDutyLaw _)) h stepped

/-! ## The ranges (table 1.1, R95, R148) -/

/-- Table 1.1 for one branch record. -/
abbrev Branch.Ranged (x : Branch) : Prop :=
  x.commanded ≤ 1000 ∧ x.applied ≤ 1000 ∧ -250 ≤ x.trim ∧ x.trim ≤ 250 ∧ x.account.integrator ≤ 65535

theorem Branch.redrive_ranged (applied : x.applied ≤ 1000) (low : -250 ≤ x.trim) (high : x.trim ≤ 250)
    (integrator : x.account.integrator ≤ 65535) : x.redrive.Ranged := by
  refine ⟨Branch.duty_le x, applied, ?_, ?_, integrator⟩
  · simp only [Branch.redrive]
    split <;> omega
  · simp only [Branch.redrive]
    split <;> omega

theorem Branch.untrimmed_ranged (commanded : x.commanded ≤ 1000) (applied : x.applied ≤ 1000) (trim : x.trim = 0)
    (integrator : x.account.integrator ≤ 65535) : x.Ranged :=
  ⟨commanded, applied, by omega, by omega, integrator⟩

theorem ContactEntry.ranged (a : ContactEntry x y) (h : x.Ranged) : y.Ranged := by
  obtain ⟨commanded, applied, low, high, integrator⟩ := h
  cases a
  · exact Branch.untrimmed_ranged commanded applied rfl (Nat.zero_le _)
  · exact ⟨commanded, applied, low, high, Nat.zero_le _⟩
  · exact ⟨commanded, applied, low, high, Nat.zero_le _⟩

theorem Branch.respond_ranged (close : Option Nat) (h : x.Ranged) : (x.respond close).Ranged := by
  obtain ⟨commanded, applied, low, high, integrator⟩ := h
  unfold Branch.respond
  split
  case h_1 | h_2 | h_3 => exact Branch.untrimmed_ranged (Nat.zero_le _) applied rfl integrator
  case h_4 | h_10 | h_11 => exact ⟨commanded, applied, low, high, integrator⟩
  all_goals exact ⟨commanded, applied, low, high, Nat.zero_le _⟩

theorem BranchAct.ranged (a : BranchAct p may shut x y) (h : x.Ranged) : y.Ranged := by
  obtain ⟨commanded, applied, low, high, integrator⟩ := id h
  cases a with
  | account a bound => exact ⟨commanded, applied, low, high, bound integrator⟩
  | trim rate =>
    refine Branch.redrive_ranged applied ?_ ?_ integrator
    · simp only [nextTrim, clampInt]
      omega
    · simp only [nextTrim, clampInt]
      omega
  | setTo => exact Branch.redrive_ranged applied low high integrator
  | toPriming => exact Branch.redrive_ranged applied (show (-250 : Int) ≤ 0 by decide) (show (0 : Int) ≤ 250 by decide) (Nat.zero_le _)
  | toReleasing => exact Branch.untrimmed_ranged (Nat.zero_le _) applied rfl integrator
  | toIsolated => exact ⟨commanded, applied, low, high, Nat.zero_le _⟩
  | rest entry => exact entry.ranged h
  | addCause close c => exact Branch.respond_ranged (x := { x with causes := x.causes ++ [c] }) close h
  | exit c _ _ entry => exact entry.ranged (x := { x with causes := x.causes.filter (· ≠ c) }) h
  | _ => exact h

theorem BranchTurn.ranged (a : BranchTurn p x y) (h : x.Ranged) : y.Ranged := by
  obtain ⟨commanded, applied, low, high, integrator⟩ := id h
  cases a with
  | act a => exact a.ranged h
  | mark _ _ _ _ _ _ bound => exact ⟨commanded, bound applied commanded, low, high, integrator⟩
  | warm => exact ⟨commanded, applied, low, high, Nat.zero_le _⟩
  | give => exact Branch.redrive_ranged applied low high integrator
  | giveUp => exact Branch.redrive_ranged applied low high integrator
  | takeOver => exact Branch.redrive_ranged applied low high integrator

theorem BranchLoad.ranged (a : BranchLoad p x q y) (h : x.Ranged) : y.Ranged := by
  obtain ⟨commanded, applied, low, high, integrator⟩ := id h
  cases a with
  | turn a => exact a.ranged h
  | reset => exact Branch.untrimmed_ranged (Nat.zero_le _) (Nat.zero_le _) rfl (Nat.zero_le _)
  | prime => exact Branch.untrimmed_ranged commanded applied rfl integrator
  | respond _ close => exact Branch.respond_ranged close h
  | redrive => exact Branch.redrive_ranged applied low high integrator
  | _ => exact h

theorem closeRecord_loss (g : Target) (s : State) (k : SlotNo) : ((closeRecord g s).slot k).loss = (s.slot k).loss := by
  unfold closeRecord
  split
  · rfl
  case h_2 j _ =>
    by_cases same : j = k
    · subst same
      simp [State.slot, State.updSlot]
    · simp [State.slot, State.updSlot, same]

theorem updSlot_loss {f : Slot → Slot} {k : SlotNo} (h : (f (s.slot k)).loss ≤ (s.slot k).loss) (j : SlotNo) :
    ((s.updSlot k f).slot j).loss ≤ (s.slot j).loss := by
  by_cases same : k = j
  · subst same
    simpa using h
  · rw [State.updSlot_slot_ne _ _ _ same]

theorem ringAdd_loss (g : Target) (c : Cause) (byContact : Bool) (s : State) (k : SlotNo) :
    ((ringAdd g c byContact s).slot k).loss ≤ (s.slot k).loss := by
  have lost : ∀ x, (loseIncident g x s).slot k = s.slot k := fun x => by cases g <;> rfl
  unfold ringAdd
  split
  · split
    · exact updSlot_loss le_rfl k
    all_goals exact (congrArg Slot.loss (lost _)).le
  · split
    · have opened := updSlot_loss (s := s) (k := s.ring.fill) (f := fun _ => openedSlot s g c byContact) (Nat.zero_le _) k
      unfold openRecord
      dsimp only
      split
      · rw [closeRecord_loss]
        cases g <;> exact opened
      · cases g <;> exact opened
    · exact (congrArg Slot.loss (lost _)).le

/-- Table 1.1, R95, R148 beside the branches. -/
abbrev RailRanged (s : State) : Prop := s.rail.account.integrator ≤ 65535 ∧ ∀ k, (s.slot k).loss ≤ 16777215

theorem railRanged_of_le (h : RailRanged s) (account : t.rail.account.integrator ≤ s.rail.account.integrator)
    (slots : ∀ k, (t.slot k).loss ≤ (s.slot k).loss) : RailRanged t :=
  ⟨account.trans h.1, fun k => (slots k).trans (h.2 k)⟩

theorem railTakes_account (c : RailCause) (s : State) : (railTakes c s).rail.account = s.rail.account := by
  unfold railTakes
  dsimp only
  split <;> rfl

theorem railTakes_slot (c : RailCause) (s : State) (k : SlotNo) : (railTakes c s).slot k = s.slot k := by
  unfold railTakes
  dsimp only
  split <;> rfl

theorem warmRestart_slot (s : State) (k : SlotNo) : (warmRestart s).slot k = s.slot k := by
  unfold warmRestart
  dsimp only
  split <;> rfl

theorem warmRestart_rail (s : State) : (warmRestart s).rail = s.rail.warm := by
  unfold warmRestart
  dsimp only
  split <;> rfl

theorem freeSlot_account (k : SlotNo) (s : State) : (freeSlot k s).rail.account = s.rail.account := by
  unfold freeSlot dropReference
  split
  · rfl
  · simp only [State.updRail_rail]
    split <;> rfl
  · rfl

theorem dropReference_slot (k : SlotNo) (g : Option Target) (s : State) (j : SlotNo) :
    (dropReference k g s).slot j = s.slot j := by
  unfold dropReference
  split <;> rfl

theorem Act.railRanged (a : Act keep s t) (h : RailRanged s) : RailRanged t := by
  cases a with
  | railRecord timer a bound => exact ⟨bound h.1, h.2⟩
  | railTakes c =>
    exact railRanged_of_le h (by rw [railTakes_account]) fun k => by rw [railTakes_slot]
  | railShuts =>
    refine railRanged_of_le h ?_ fun k => (closeRecord_loss .rail _ k).le
    rw [Machine.railShuts, closeRecord_rail]
    exact Nat.zero_le _
  | ringAdd g c byContact =>
    refine railRanged_of_le h ?_ (ringAdd_loss g c byContact s)
    rw [(ringAdd_same g c byContact s).rail]
  | closeRecord g => exact railRanged_of_le h (by rw [closeRecord_rail]) fun k => (closeRecord_loss g s k).le
  | slot k hotPull loss bound =>
    refine ⟨h.1, fun j => ?_⟩
    by_cases same : k = j
    · subst same
      simpa using bound (h.2 k)
    · rw [State.updSlot_slot_ne _ _ _ same]
      exact h.2 j
  | freeSlot k =>
    refine railRanged_of_le h (by rw [freeSlot_account]) fun j => ?_
    rw [Machine.freeSlot, dropReference_slot]
    exact updSlot_loss (Nat.zero_le _) j
  | warm =>
    refine railRanged_of_le h ?_ fun k => by rw [warmRestart_slot]
    rw [warmRestart_rail]
    exact Nat.zero_le _
  | reset hold speed => exact ⟨Nat.zero_le _, fun k => by rw [poweredOn_slot]; exact Nat.zero_le _⟩
  | store k half f => exact railRanged_of_le h (by simp) fun j => by simp
  | _ => exact h

theorem LoadAct.railRanged (a : LoadAct s t) (h : RailRanged s) : RailRanged t := by
  cases a with
  | act a => exact a.railRanged h
  | _ => exact h

theorem step_rangeLaw (h : RangeLaw s) (stepped : step s = .next t) : RangeLaw t := by
  refine step_keeps_of_loads (law := fun s => (∀ b, (s.br b).Ranged) ∧ RailRanged s) (fun _ _ h => h) ?_ ?_ h stepped
  · rintro s ms ⟨branches, rail⟩
    refine ⟨fun b => ?_, rail⟩
    rw [elapse_br]
    exact branches b
  · rintro s t a ⟨branches, rail⟩
    exact ⟨fun b => (a.loads_br b).ranged (branches b), a.railRanged rail⟩

end

/-- Settles O8, by the turns of a branch record, and for the bypass and the ranges by the acts of a step. -/
theorem stepKeepsCommandedDuty : Obligations.StepKeepsCommandedDuty :=
  fun _ _ => ⟨step_dutyLaw, step_bypassDutyLaw, step_rangeLaw⟩

end Sys2Proof.Machine
end

section
/-! PROOF. Every step keeps the drive enables and the branch windows (O13, O14). -/

namespace Sys2Proof.Machine

open Sys2Proof Sys2Proof.Safety

section

variable {p q : Params} {x y : Branch} {may shut : Prop} {keep : Bool} {s t : State}

/-! ## What no dock transition touches -/

/-- The drive, the owner line and the incident reference of a branch. -/
def Branch.marks (x : Branch) : Bool × Nat × Option BranchNo × Option SlotNo × Bool :=
  (x.enable, x.applied, x.owner, x.incident, x.lost)

theorem ContactEntry.marks (a : ContactEntry x y) : y.marks = x.marks := by cases a <;> rfl

theorem Branch.respond_marks (close : Option Nat) (x : Branch) : (x.respond close).marks = x.marks := by
  unfold Branch.respond
  split <;> rfl

theorem BranchAct.marks (a : BranchAct p may shut x y) : y.marks = x.marks := by
  cases a with
  | rest entry => exact entry.marks
  | addCause close c => exact Branch.respond_marks close _
  | exit c _ _ entry => exact entry.marks
  | _ => rfl

theorem updBranch_marks {f : Branch → Branch} {i : BranchNo} (h : (f (s.br i)).marks = (s.br i).marks) (b : BranchNo) :
    ((s.updBranch i f).br b).marks = (s.br b).marks := by
  by_cases same : i = b
  · subst same
    simpa using h
  · rw [State.updBranch_br_ne _ _ _ same]

theorem marks_enable (h : y.marks = x.marks) : y.enable = x.enable := congrArg (·.1) h

theorem marks_applied (h : y.marks = x.marks) : y.applied = x.applied := congrArg (·.2.1) h

theorem marks_owner (h : y.marks = x.marks) : y.owner = x.owner := congrArg (·.2.2.1) h

theorem marks_incident (h : y.marks = x.marks) : y.incident = x.incident := congrArg (·.2.2.2.1) h

theorem dropReference_br (k : SlotNo) (g : Option Target) (s : State) (b : BranchNo) :
    ((dropReference k g s).br b) = { s.br b with incident := ((dropReference k g s).br b).incident } := by
  unfold dropReference
  split
  case h_1 i =>
    by_cases same : i = b
    · subst same
      rw [State.updBranch_br_same]
      split <;> rfl
    · rw [State.updBranch_br_ne _ _ _ same]
  all_goals rfl

/-! ## The drive enables (4.6) -/

/-- What the drive laws hang on, but for the trip level. -/
def drives (s : State) : (BranchNo → Bool × Nat) × Bool × Nat × Bool × Nat :=
  (fun b => ((s.br b).enable, (s.br b).applied), s.valves.railEnable, s.valves.railApplied, s.valves.bypassEnable,
    s.valves.bypassApplied)

/-- R84, R85 of the enables, the applied duties and the trip level. -/
def DrivesFit (d : (BranchNo → Bool × Nat) × Bool × Nat × Bool × Nat) (trip : Bool) : Prop :=
  ((∀ b, (d.1 b).1 = d.2.1) ∧ (trip = true → d.2.1 = false)) ∧
    (∀ b, (d.1 b).1 = false → (d.1 b).2 = 0) ∧ (d.2.1 = false → d.2.2.1 = 0) ∧ (d.2.2.2.1 = false → d.2.2.2.2 = 1000)

theorem drivesFit_iff (s : State) : DrivesFit (drives s) s.iso.tripAsserted ↔ EnableLaw s ∧ InactiveLaw s := Iff.rfl

/-- The enables and applied duties stand, and the trip level does not rise. -/
theorem drivesFit_of_drives_eq (h : EnableLaw s ∧ InactiveLaw s) (same : drives t = drives s)
    (trip : t.iso.tripAsserted = true → s.iso.tripAsserted = true) : EnableLaw t ∧ InactiveLaw t := by
  rw [← drivesFit_iff] at h ⊢
  rw [same]
  exact ⟨⟨h.1.1, fun asserted => h.1.2 (trip asserted)⟩, h.2⟩

theorem drives_of_eq (br : ∀ b, (t.br b).enable = (s.br b).enable ∧ (t.br b).applied = (s.br b).applied)
    (valves : t.valves = s.valves) : drives t = drives s := by
  simp only [drives, valves, br]

theorem drives_of_marks (marks : ∀ b, (t.br b).marks = (s.br b).marks) (valves : t.valves = s.valves) : drives t = drives s :=
  drives_of_eq (fun b => ⟨marks_enable (marks b), marks_applied (marks b)⟩) valves

theorem SameButIncidents.drives (h : SameButIncidents s t) (valves : t.valves = s.valves) :
    Machine.drives t = Machine.drives s :=
  drives_of_eq (fun b => by rw [h.br b]; exact ⟨rfl, rfl⟩) valves

theorem clearEnables_fit (h : EnableLaw s ∧ InactiveLaw s) (trip : State) (valves : trip.valves = s.valves)
    (br : ∀ b, trip.br b = s.br b) : EnableLaw (clearEnables trip) ∧ InactiveLaw (clearEnables trip) := by
  obtain ⟨⟨agree, -⟩, branches, rail, bypass⟩ := h
  have off : (clearEnables trip).valves.railEnable = false ∧ (clearEnables trip).valves.railApplied = 0 := by
    simp only [clearEnables, State.updValves_valves, State.mapBranches_valves, valves]
    by_cases on : s.valves.railEnable = true
    · simp [on]
    · simp [on, rail]
  have each : ∀ b, ((clearEnables trip).br b).enable = false ∧ ((clearEnables trip).br b).applied = 0 := fun b => by
    simp only [clearEnables, State.updValves_br, State.mapBranches_br, br, Branch.disable]
    by_cases on : (s.br b).enable = true
    · simp [on]
    · simp [on, branches]
  refine ⟨⟨fun b => (each b).1.trans off.1.symm, fun _ => off.1⟩, fun b _ => (each b).2, fun _ => off.2, ?_⟩
  simp only [clearEnables, State.updValves_valves, State.mapBranches_valves, valves]
  split <;> exact bypass

theorem setEnables_fit (h : EnableLaw s ∧ InactiveLaw s) (negated : s.iso.tripAsserted = false) :
    EnableLaw (setEnables s) ∧ InactiveLaw (setEnables s) := by
  have on : ∀ b, ((setEnables s).br b).enable = true := fun b => by simp [setEnables]
  refine ⟨⟨on, fun asserted => ?_⟩, fun b off => ?_, nofun, h.2.2.2⟩
  · exact absurd (negated.symm.trans asserted) (by decide)
  · exact absurd ((on b).symm.trans off) (by decide)

theorem startPeriod_fit (h : EnableLaw s ∧ InactiveLaw s) : EnableLaw (startPeriod s) ∧ InactiveLaw (startPeriod s) := by
  obtain ⟨⟨agree, trip⟩, branches, rail, bypass⟩ := h
  have enable : ∀ b, ((startPeriod s).br b).enable = (s.br b).enable := fun b => by
    simp only [startPeriod, State.updValves_br, State.mapBranches_br, Branch.applyDuty]
    split <;> rfl
  refine ⟨⟨fun b => (enable b).trans (agree b), trip⟩, fun b off => ?_, fun off => ?_, fun off => ?_⟩
  · rw [enable] at off
    simpa [startPeriod, Branch.applyDuty, off] using branches b off
  · have before : s.valves.railEnable = false := off
    simpa [startPeriod, ValveUnit.applyDuties, before] using rail before
  · have before : s.valves.bypassEnable = false := off
    simpa [startPeriod, ValveUnit.applyDuties, before] using bypass before

theorem publishGrants_marks (given : Vector Nat 12) (s : State) (b : BranchNo) :
    ((publishGrants given s).br b).marks = (s.br b).marks := by
  rw [publishGrants_br]
  split <;> rfl

theorem transfer_marks (i j : BranchNo) (m : Nat) (s : State) (b : BranchNo) :
    (((s.updBranch i (Branch.giveUp m)).updBranch j (Branch.takeOver m)).br b).marks = (s.br b).marks :=
  (updBranch_marks (f := Branch.takeOver m) rfl b).trans (updBranch_marks (f := Branch.giveUp m) rfl b)

theorem drives_setRailCommanded (s : State) (n : Nat) :
    drives (s.updValves fun v => { v with railCommanded := n }) = drives s := rfl

@[simp] theorem drives_railTakes (c : RailCause) (s : State) : drives (railTakes c s) = drives s := by
  unfold railTakes
  dsimp only
  split <;> rfl

@[simp] theorem railTakes_iso (c : RailCause) (s : State) : (railTakes c s).iso = s.iso := by
  unfold railTakes
  dsimp only
  split <;> rfl

@[simp] theorem warmRestart_valves (s : State) : (warmRestart s).valves = s.valves := by
  unfold warmRestart
  dsimp only
  split <;> rfl

@[simp] theorem warmRestart_iso (s : State) : (warmRestart s).iso = s.iso := by
  unfold warmRestart
  dsimp only
  split <;> rfl

theorem dropReference_frame (k : SlotNo) (g : Option Target) (s : State) :
    (dropReference k g s).valves = s.valves ∧ (dropReference k g s).iso = s.iso ∧
      (dropReference k g s).windows = s.windows ∧ (dropReference k g s).attn = s.attn := by
  unfold dropReference
  split <;> exact ⟨rfl, rfl, rfl, rfl⟩

theorem Act.drives (a : Act keep s t) (h : EnableLaw s ∧ InactiveLaw s) : EnableLaw t ∧ InactiveLaw t := by
  cases a with
  | branch i f act => exact drivesFit_of_drives_eq h (drives_of_marks (updBranch_marks act.marks) rfl) id
  | transfer i j m => exact drivesFit_of_drives_eq h (drives_of_marks (transfer_marks i j m s) rfl) id
  | round =>
    exact drivesFit_of_drives_eq h (congrArg (fun f => (f, _))
      (funext fun b => Prod.ext (marks_enable (publishGrants_marks _ s b)) (marks_applied (publishGrants_marks _ s b)))) id
  | railTakes c => exact drivesFit_of_drives_eq h (by simp) (by simp)
  | railShuts =>
    refine drivesFit_of_drives_eq h ((closeRecord_same .rail _).drives ?_) ?_
    · simp
    · rw [Machine.railShuts, closeRecord_iso]
      exact id
  | ringAdd g c byContact =>
    exact drivesFit_of_drives_eq h ((ringAdd_same g c byContact s).drives (by simp)) (by simp)
  | closeRecord g => exact drivesFit_of_drives_eq h ((closeRecord_same g s).drives (by simp)) (by simp)
  | freeSlot k =>
    obtain ⟨valves, iso, -⟩ := dropReference_frame k (s.slot k).target (s.updSlot k fun _ => Slot.free)
    refine drivesFit_of_drives_eq h (drives_of_eq (fun b => ?_) valves) (fun asserted => iso ▸ asserted)
    rw [Machine.freeSlot, dropReference_br]
    exact ⟨rfl, rfl⟩
  | iso f falls => exact drivesFit_of_drives_eq h rfl falls
  | trip => exact clearEnables_fit h _ rfl fun _ => rfl
  | enables negated => exact setEnables_fit h negated
  | period => exact startPeriod_fit h
  | warm =>
    refine drivesFit_of_drives_eq h (drives_of_eq (fun b => ?_) (by simp)) (by simp)
    rw [warmRestart_br]
    exact ⟨rfl, rfl⟩
  | window n w => exact drivesFit_of_drives_eq h (drives_of_eq (fun b => by simp [replaceWindow, State.br]) rfl) id
  | store => exact drivesFit_of_drives_eq h (drives_of_eq (fun b => by simp) (by simp)) (by simp)
  | reset hold speed =>
    refine ⟨⟨fun b => ?_, nofun⟩, fun b _ => ?_, fun _ => rfl, fun _ => rfl⟩
    · rw [poweredOn_br]
      rfl
    · rw [poweredOn_br]
      rfl
  | _ => exact drivesFit_of_drives_eq h rfl id

theorem LoadAct.drives (a : LoadAct s t) (h : EnableLaw s ∧ InactiveLaw s) : EnableLaw t ∧ InactiveLaw t := by
  cases a with
  | act a => exact a.drives h
  | values blocks =>
    refine drivesFit_of_drives_eq h (congrArg (fun f => (f, _)) (funext fun b => ?_)) id
    rw [takeValues_br]
    split <;> rfl
  | adopt i => exact drivesFit_of_drives_eq h (drives_of_marks (updBranch_marks rfl) rfl) id
  | prime i => exact drivesFit_of_drives_eq h (drives_of_marks (updBranch_marks rfl) rfl) id
  | respond i => exact drivesFit_of_drives_eq h (drives_of_marks (updBranch_marks (Branch.respond_marks _ _)) rfl) id
  | bypass =>
    obtain ⟨enables, branches, rail, -⟩ := h
    exact ⟨enables, branches, rail, nofun⟩
  | duties => exact drivesFit_of_drives_eq h (congrArg (fun f => (f, _)) (funext fun b => by rw [resumeDuties_br]; rfl)) id

/-! ## The branch windows (R165 to R167) -/

theorem windowLaw_of_eq (h : WindowLaw s) (windows : t.windows = s.windows) (owner : ∀ b, (t.br b).owner = (s.br b).owner) :
    WindowLaw t := by
  simp only [WindowLaw, State.window, windows, owner]
  exact h

theorem windowLaw_of_marks (h : WindowLaw s) (windows : t.windows = s.windows)
    (marks : ∀ b, (t.br b).marks = (s.br b).marks) : WindowLaw t :=
  windowLaw_of_eq h windows fun b => marks_owner (marks b)

/-- R166: what an accepted window is. -/
theorem windowStatus_ok {n : BranchNo} {w : Window} (ok : windowStatus s n w = .ok) :
    w.inRange = true ∧ ∀ m, m ≠ n → ∀ b, w.includes b = true → (s.window m).includes b = false := by
  unfold windowStatus at ok
  split at ok
  · cases ok
  · split at ok
    · cases ok
    case isFalse.isFalse inRange apart =>
      refine ⟨by simpa using inRange, fun m other b inside => ?_⟩
      by_contra both
      refine apart (List.any_eq_true.2 ⟨m, mem_allBranches m, ?_⟩)
      simp only [Bool.and_eq_true, bne_iff_ne, List.any_eq_true]
      exact ⟨other, b, mem_allBranches b, inside, by simpa using both⟩

theorem replaceWindow_windowLaw {n : BranchNo} {w : Window} (ok : windowStatus s n w = .ok) (h : WindowLaw s) :
    WindowLaw (replaceWindow n w s) := by
  obtain ⟨fits, apart⟩ := windowStatus_ok ok
  obtain ⟨inRange, owners⟩ := h
  have window : ∀ m, (replaceWindow n w s).window m = if n = m then w else (s.window m) := fun m => by
    simp [replaceWindow, State.setWindow, State.window, Vec.pick_put]
  have owner : ∀ b, ((replaceWindow n w s).br b).owner = ownerAfter n w b (s.br b).owner := fun b => by
    simp [replaceWindow, State.br]
  refine ⟨fun m => ?_, fun b m => ?_⟩
  · rw [window]
    split
    · exact fits
    · exact inRange m
  · rw [window, owner, ownerAfter]
    by_cases inside : w.includes b = true
    · rw [if_pos inside, Option.some.injEq]
      by_cases same : n = m
      · simp [same, inside]
      · simp [same, apart m (Ne.symm same) b inside]
    · rw [if_neg inside]
      by_cases same : n = m
      · subst same
        rw [if_pos rfl]
        split
        · simpa using inside
        · simp_all
      · rw [if_neg same]
        by_cases old : (s.br b).owner = some n
        · rw [if_pos old]
          have outside : ¬(s.window m).includes b = true := fun within =>
            same (Option.some.inj (old.symm.trans ((owners b m).2 within)))
          simpa using outside
        · rw [if_neg old]
          exact owners b m

theorem poweredOn_windowLaw (hold speed : Bool) (s : State) : WindowLaw (poweredOn hold speed s) := by
  refine ⟨fun n => ?_, fun b n => ?_⟩
  · rw [poweredOn_window]
    simp only [Window.inRange, Bool.and_eq_true, decide_eq_true_eq]
    omega
  · rw [poweredOn_window, poweredOn_br]
    simp only [Window.includes, Bool.and_eq_true, decide_eq_true_eq, Branch.reset, Option.some.injEq, Fin.ext_iff]
    omega

theorem Act.windowLaw (a : Act keep s t) (h : WindowLaw s) : WindowLaw t := by
  cases a with
  | branch i f act => exact windowLaw_of_marks h rfl (updBranch_marks act.marks)
  | transfer i j m => exact windowLaw_of_marks h rfl (transfer_marks i j m s)
  | round => exact windowLaw_of_marks h rfl (publishGrants_marks _ s)
  | railTakes c =>
    refine windowLaw_of_eq h ?_ fun b => by rw [railTakes_br]
    unfold Machine.railTakes
    dsimp only
    split <;> rfl
  | railShuts => exact windowLaw_of_eq h (closeRecord_windows .rail _) fun b => by rw [Machine.railShuts, closeRecord_br]; rfl
  | ringAdd g c byContact => exact windowLaw_of_eq h (by simp) (ringAdd_same g c byContact s).owner
  | closeRecord g => exact windowLaw_of_eq h (by simp) fun b => by rw [closeRecord_br]
  | freeSlot k =>
    obtain ⟨-, -, windows, -⟩ := dropReference_frame k (s.slot k).target (s.updSlot k fun _ => Slot.free)
    refine windowLaw_of_eq h windows fun b => ?_
    rw [Machine.freeSlot, dropReference_br]
    rfl
  | trip =>
    refine windowLaw_of_eq h rfl fun b => ?_
    simp only [tripTaken, clearEnables, State.updValves_br, State.mapBranches_br, Branch.disable]
    split <;> rfl
  | enables => exact windowLaw_of_eq h rfl fun b => by simp [setEnables]
  | period =>
    refine windowLaw_of_eq h rfl fun b => ?_
    simp only [startPeriod, State.updValves_br, State.mapBranches_br, Branch.applyDuty]
    split <;> rfl
  | warm =>
    refine windowLaw_of_eq h ?_ fun b => by rw [warmRestart_br]; rfl
    unfold warmRestart
    dsimp only
    split <;> rfl
  | window n w ok => exact replaceWindow_windowLaw ok h
  | store => exact windowLaw_of_eq h (by simp) fun b => by simp
  | reset hold speed => exact poweredOn_windowLaw hold speed s
  | _ => exact windowLaw_of_eq h rfl fun _ => rfl

theorem LoadAct.windowLaw (a : LoadAct s t) (h : WindowLaw s) : WindowLaw t := by
  cases a with
  | act a => exact a.windowLaw h
  | values blocks =>
    refine windowLaw_of_eq h rfl fun b => ?_
    rw [takeValues_br]
    split <;> rfl
  | adopt i => exact windowLaw_of_marks h rfl (updBranch_marks rfl)
  | prime i => exact windowLaw_of_marks h rfl (updBranch_marks rfl)
  | respond i => exact windowLaw_of_marks h rfl (updBranch_marks (Branch.respond_marks _ _))
  | bypass => exact windowLaw_of_eq h rfl fun _ => rfl
  | duties => exact windowLaw_of_eq h rfl fun b => by rw [resumeDuties_br]; rfl

theorem elapse_marks (ms : Nat) (s : State) (b : BranchNo) : ((elapse ms s).br b).marks = (s.br b).marks := by
  rw [elapse_br]
  rfl

theorem elapse_drives (ms : Nat) (s : State) : drives (elapse ms s) = drives s := by
  have br : ∀ b, (elapse ms s).br b = (s.br b).elapse ms := elapse_br ms s
  simp only [drives, br]
  rfl

end

/-- Settles O13, by the acts of a step. -/
theorem stepKeepsDriveEnables : Obligations.StepKeepsDriveEnables := by
  intro s t enable inactive stepped
  exact step_keeps_of_loads (law := fun s => EnableLaw s ∧ InactiveLaw s) (fun _ _ h => h)
    (fun s ms h => drivesFit_of_drives_eq h (elapse_drives ms s) id) (fun _ _ a => a.drives)
    ⟨enable, inactive⟩ stepped

/-- Settles O14, by the acts of a step: only an accepted SET_WINDOW and a power-on reset write windows and owner lines. -/
theorem stepKeepsBranchWindows : Obligations.StepKeepsBranchWindows :=
  fun _ _ h stepped => step_keeps_of_loads (law := WindowLaw) (fun _ _ h => h)
    (fun s ms h => windowLaw_of_marks h rfl (elapse_marks ms s)) (fun _ _ a => a.windowLaw) h stepped

end Sys2Proof.Machine
end

section
/-! PROOF. Every step keeps the derived causes, the form of the attention lists, of the lines, of the isolation sets and of
the settings memory (O15, O17). -/

namespace Sys2Proof.Machine

open Sys2Proof Sys2Proof.Safety

section

variable {p q : Params} {x y : Branch} {may shut : Prop} {keep : Bool} {s t : State}

/-! ## What an act does to the attention lines -/

theorem closeRecord_attn (g : Target) (s : State) :
    (closeRecord g s).attn = s.attn ∨ ∃ k : SlotNo, (closeRecord g s).attn = (raiseSup .incidentClosed k.val s).attn := by
  unfold closeRecord
  split
  · exact .inl rfl
  · exact .inr ⟨_, rfl⟩

theorem loseIncident_attn (g : Target) (x : Bool) (s : State) :
    (loseIncident g x s).attn = (raiseSup .logBusy g.code s).attn := by cases g <;> rfl

/-- R145, R146: the ring tells at most one of its two causes. -/
theorem ringAdd_attn (g : Target) (c : Cause) (byContact : Bool) (s : State) : (ringAdd g c byContact s).attn = s.attn ∨
    ∃ d key, (d = SupCause.incidentClosed ∨ d = SupCause.logBusy) ∧
      (ringAdd g c byContact s).attn = (raiseSup d key s).attn := by
  unfold ringAdd
  split
  · split
    · exact .inl rfl
    all_goals exact .inr ⟨_, _, .inr rfl, loseIncident_attn g _ s⟩
  · split
    · unfold openRecord
      dsimp only
      split
      · obtain same | ⟨k, told⟩ := closeRecord_attn g (setIncident g (some s.ring.fill) false
          ((s.updSlot s.ring.fill fun _ => openedSlot s g c byContact).updRing fun r => { r with fill := r.fill + 1 }))
        · exact .inl (same.trans (setIncident_attn ..))
        · refine .inr ⟨_, k.val, .inl rfl, told.trans ?_⟩
          cases g <;> rfl
      · exact .inl (setIncident_attn ..)
    · exact .inr ⟨_, _, .inr rfl, loseIncident_attn g _ s⟩

@[simp] theorem railTakes_attn (c : RailCause) (s : State) : (railTakes c s).attn = s.attn := by
  unfold railTakes
  dsimp only
  split <;> rfl

/-- A law of the attention lines that survives a cause raised of its line's class, entries removed, a mask set within the
class, and every list emptied, survives every act. -/
theorem Act.keeps_attn {law : Vector AttnLine 14 → Prop}
    (raised : ∀ u l (e : AttnEntry), e.cause ∈ (lineClass l).causes → law u.attn → law (Machine.raise l e u).attn)
    (filtered : ∀ (u : State) l f, law u.attn → law (u.updAttn l fun a => { a with entries := a.entries.filter f }).attn)
    (masked : ∀ (u : State) l set, law u.attn → law (u.updAttn l fun a => { a with mask := maskOf l set }).attn)
    (emptied : ∀ u : State, law u.attn → law (Vec.map (fun a => { a with entries := [] }) u.attn))
    (fresh : law attnReset) (a : Act keep s t) (h : law s.attn) : law t.attn := by
  have told : ∀ (u : State) c key, law u.attn → law (raiseSup c key u).attn := fun u c key => raised u supLine _ c.mem_class
  have shut : ∀ g (u : State), law u.attn → law (Machine.closeRecord g u).attn := fun g u hu => by
    obtain same | ⟨k, told'⟩ := closeRecord_attn g u
    · rwa [same]
    · rw [told']
      exact told u _ _ hu
  cases a with
  | railTakes c => rwa [railTakes_attn]
  | railShuts => exact shut .rail _ h
  | ringAdd g c byContact =>
    obtain same | ⟨d, key, -, told'⟩ := ringAdd_attn g c byContact s
    · rwa [same]
    · rw [told']
      exact told s _ _ h
  | closeRecord g => exact shut g s h
  | freeSlot k =>
    obtain ⟨-, -, -, attn⟩ := dropReference_frame k (s.slot k).target (s.updSlot k fun _ => Slot.free)
    rw [Machine.freeSlot, attn]
    exact h
  | trip => exact told ((s.updPins fun p => { p with trip := true }).updIso fun i =>
      { i with tripAsserted := true, tripCandidate := 0 }) _ _ h
  | takeStrip n level => exact told (s.updStrip n _) _ _ h
  | emptyDelta => exact filtered (s.updDrip _) supLine _ h
  | raise l e cls => exact raised s l e cls h
  | dropCause l c => exact filtered s l _ h
  | clearCauses l set => exact filtered s l _ h
  | mask l set => exact masked s l set h
  | warm =>
    unfold warmRestart
    dsimp only
    split
    · exact told { s with attn := Vec.map (fun a => { a with entries := [] }) s.attn } .tripLine 0 (emptied s h)
    · exact emptied s h
  | store => simpa using h
  | reset => exact fresh
  | _ => exact h

theorem LoadAct.keeps_attn {law : Vector AttnLine 14 → Prop} (act : ∀ {s t}, Act false s t → law s.attn → law t.attn)
    (a : LoadAct s t) (h : law s.attn) : law t.attn := by
  cases a with
  | act a => exact act a h
  | _ => exact h

/-! ## The form of the attention lists (R169, R172) -/

/-- R169, R172 for one line. -/
abbrev AttnLine.Formed (l : LineNo) (a : AttnLine) : Prop :=
  a.entries.Pairwise (fun x y => ¬(x.cause = y.cause ∧ x.key = y.key)) ∧ a.mask &&& (lineClass l).allCauses = a.mask

theorem updAttn_formed {f : AttnLine → AttnLine} {l : LineNo} (kept : (s.attnOf l).Formed l → (f (s.attnOf l)).Formed l)
    (h : AttnLaw s) : AttnLaw (s.updAttn l f) := by
  intro m
  by_cases same : l = m
  · subst same
    rw [State.updAttn_attnOf_same]
    exact kept (h l)
  · rw [State.updAttn_attnOf_ne _ _ _ same]
    exact h m

theorem maskOf_within (l : LineNo) (set : BitVec 16) : maskOf l set &&& (lineClass l).allCauses = maskOf l set := by
  rw [maskOf, BitVec.and_assoc, BitVec.and_self]

theorem attnReset_formed (l : LineNo) : (Vec.pick attnReset l).Formed l := by decide +revert

theorem Act.attnLaw (a : Act keep s t) (h : AttnLaw s) : AttnLaw t :=
  a.keeps_attn (law := fun v => ∀ l, (Vec.pick v l).Formed l)
    (fun u l e _ hu => updAttn_formed (s := u) (fun formed => ⟨addEntry_pairwise _ e formed.1, formed.2⟩) hu)
    (fun u l f hu => updAttn_formed (s := u) (fun formed => ⟨formed.1.filter f, formed.2⟩) hu)
    (fun u l set hu => updAttn_formed (s := u) (fun formed => ⟨formed.1, maskOf_within l set⟩) hu)
    (fun u hu l => by
      rw [Vec.pick_map]
      exact ⟨List.Pairwise.nil, (hu l).2⟩)
    attnReset_formed h

theorem filter_classLaw {l : LineNo} {f : AttnEntry → Bool} (h : ClassLaw s) :
    ClassLaw (s.updAttn l fun a => { a with entries := a.entries.filter f }) := by
  intro m e found
  by_cases same : l = m
  · subst same
    rw [State.updAttn_attnOf_same] at found
    exact h l e (List.mem_filter.1 found).1
  · rw [State.updAttn_attnOf_ne _ _ _ same] at found
    exact h m e found

theorem mask_classLaw {l : LineNo} {set : BitVec 16} (h : ClassLaw s) :
    ClassLaw (s.updAttn l fun a => { a with mask := maskOf l set }) := by
  intro m e found
  by_cases same : l = m
  · subst same
    rw [State.updAttn_attnOf_same] at found
    exact h l e found
  · rw [State.updAttn_attnOf_ne _ _ _ same] at found
    exact h m e found

theorem attnReset_entries (l : LineNo) : (Vec.pick attnReset l).entries = [] := by decide +revert

theorem Act.classLaw (a : Act keep s t) (h : ClassLaw s) : ClassLaw t :=
  a.keeps_attn (law := fun v => ∀ l, ∀ e ∈ (Vec.pick v l).entries, e.cause ∈ (lineClass l).causes)
    (fun u _ _ cls hu => raise_classLaw (s := u) hu cls)
    (fun u _ _ hu => filter_classLaw (s := u) hu)
    (fun u _ _ hu => mask_classLaw (s := u) hu)
    (fun u _ l e found => by
      rw [Vec.pick_map] at found
      cases found)
    (fun l e found => by
      rw [attnReset_entries] at found
      cases found)
    h

/-! ## The lines (R159, R160) -/

theorem Act.lineLaw (a : Act keep s t) (h : LineLaw s) : LineLaw t := by
  have broken : ∀ ln : Line, ln.break.Fits := fun _ => ⟨Nat.zero_le _, fun no => absurd rfl no, Nat.zero_le _⟩
  cases a with
  | railTakes c =>
    unfold Machine.railTakes
    dsimp only
    split <;> exact h
  | railShuts =>
    unfold Machine.railShuts
    simpa [LineLaw, State.line] using h
  | ringAdd => simpa [LineLaw, State.line] using h
  | closeRecord => simpa [LineLaw, State.line] using h
  | freeSlot =>
    unfold Machine.freeSlot dropReference
    split <;> exact h
  | line l f fits =>
    intro m
    by_cases same : l = m
    · subst same
      rw [State.updLine_line_same]
      exact fits (h l)
    · rw [State.updLine_line_ne _ _ _ same]
      exact h m
  | clearCounts =>
    intro m
    simp only [State.line, Vec.pick_map]
    exact ⟨(h m).1, (h m).2.1, Nat.zero_le _⟩
  | warm =>
    have restarted : ∀ m, (warmRestart s).line m = (s.line m).break := fun m => by
      unfold warmRestart
      dsimp only
      split <;> simp [State.line]
    intro m
    rw [restarted]
    exact broken _
  | store => simpa [LineLaw] using h
  | reset =>
    intro m
    rw [poweredOn_line]
    exact ⟨Nat.zero_le _, fun no => absurd rfl no, Nat.zero_le _⟩
  | _ => exact h

/-! ## The isolation sets (R124) -/

theorem ContactEntry.nodup (a : ContactEntry x y) (h : x.causes.Nodup) : y.causes.Nodup := by rwa [a.causes]

theorem BranchAct.nodup (a : BranchAct p may shut x y) (h : x.causes.Nodup) : y.causes.Nodup := by
  cases a with
  | rest entry => exact entry.nodup h
  | addCause close c fresh =>
    rw [Branch.respond_causes]
    exact List.nodup_append'.2 ⟨h, List.nodup_singleton c, by simpa using fresh⟩
  | dropCause c => exact h.filter _
  | exit c _ _ entry => exact entry.nodup (h.filter _)
  | _ => exact h

theorem BranchLoad.nodup (a : BranchLoad p x q y) (h : x.causes.Nodup) : y.causes.Nodup := by
  cases a with
  | turn a =>
    cases a with
    | act a => exact a.nodup h
    | _ => exact h
  | reset => exact List.nodup_nil
  | respond _ close => rwa [Branch.respond_causes]
  | _ => exact h

theorem Act.rail_nodup (a : Act keep s t) (h : s.rail.causes.Nodup) : t.rail.causes.Nodup := by
  cases a with
  | railTakes c fresh =>
    have taken : (Machine.railTakes c s).rail.causes = s.rail.causes ++ [c] := by
      unfold Machine.railTakes
      dsimp only
      split <;> rfl
    rw [taken]
    exact List.nodup_append'.2 ⟨h, List.nodup_singleton c, by simpa using fresh⟩
  | railDrops c => exact h.filter _
  | railShuts =>
    rw [Machine.railShuts, closeRecord_rail]
    exact h
  | ringAdd g c byContact => rwa [(ringAdd_same g c byContact s).rail]
  | closeRecord => rwa [closeRecord_rail]
  | freeSlot =>
    unfold Machine.freeSlot dropReference
    split
    · exact h
    · simp only [State.updRail_rail]
      split <;> exact h
    · exact h
  | warm =>
    rw [warmRestart_rail]
    exact h
  | store => simpa using h
  | reset => exact List.nodup_nil
  | _ => exact h

/-! ## The settings memory (11.1, R178) -/

theorem abandonWrite_storeLaw (h : StoreLaw s) : StoreLaw (abandonWrite s) := by
  cases busy : s.loader.store with
  | none => rwa [StoreLaw, abandonWrite_eeprom_of_idle busy]
  | some w =>
    rw [StoreLaw, abandonWrite_eeprom_of_busy busy]
    exact State.storeHalf_wf _ _ _ _ h

theorem Act.storeLaw (a : Act keep s t) (h : StoreLaw s) : StoreLaw t := by
  have same : t.eeprom = s.eeprom → StoreLaw t := fun e => by rwa [StoreLaw, e]
  cases a with
  | railTakes c =>
    refine same ?_
    unfold Machine.railTakes
    dsimp only
    split <;> rfl
  | railShuts => exact same (closeRecord_eeprom ..)
  | ringAdd => exact same (by simp)
  | closeRecord => exact same (by simp)
  | freeSlot =>
    refine same ?_
    unfold Machine.freeSlot dropReference
    split <;> rfl
  | warm =>
    refine same ?_
    unfold warmRestart
    dsimp only
    split <;> rfl
  | store k half f => exact State.storeHalf_wf s k half f h
  | reset => exact abandonWrite_storeLaw h
  | _ => exact same rfl

/-- R124, R159, R169, R172, R178 and 10.1 together. -/
abbrev Formed (s : State) : Prop := LineLaw s ∧ AttnLaw s ∧ ClassLaw s ∧ SetLaw s ∧ StoreLaw s

theorem LoadAct.formed (a : LoadAct s t) (h : Formed s) : Formed t := by
  obtain ⟨lines, attn, cls, ⟨branches, rail⟩, store⟩ := h
  have sets : ∀ b, (t.br b).causes.Nodup := fun b => (a.loads_br b).nodup (branches b)
  cases a with
  | act a => exact ⟨a.lineLaw lines, a.attnLaw attn, a.classLaw cls, ⟨sets, a.rail_nodup rail⟩, a.storeLaw store⟩
  | _ => exact ⟨lines, attn, cls, ⟨sets, rail⟩, store⟩

/-! ## The derived causes (R173) -/

/-- The derived causes stand where STRIP_CHANGE and the delta set are as before, and TRIP_LINE stays where it stood. -/
theorem derived_of_same (h : StripChangeLaw s ∧ TripPendingLaw s)
    (strip : isPending (t.attnOf supLine) (.sup .stripChange) = isPending (s.attnOf supLine) (.sup .stripChange))
    (changed : ∀ n, (t.strip n).changed = (s.strip n).changed)
    (line : isPending (s.attnOf supLine) (.sup .tripLine) = true → isPending (t.attnOf supLine) (.sup .tripLine) = true)
    (trip : t.iso.tripAsserted = true → s.iso.tripAsserted = true) : StripChangeLaw t ∧ TripPendingLaw t := by
  refine ⟨?_, fun asserted => line (h.2 (trip asserted))⟩
  simp only [StripChangeLaw, strip, changed]
  exact h.1

theorem derived_of_attn (h : StripChangeLaw s ∧ TripPendingLaw s) (attn : t.attn = s.attn) (drip : t.drip = s.drip)
    (iso : t.iso = s.iso) : StripChangeLaw t ∧ TripPendingLaw t := by
  refine derived_of_same h ?_ (fun n => ?_) (fun before => ?_) (by rw [iso]; exact id)
  · simp only [State.attnOf, attn]
  · simp only [State.strip, drip]
  · simpa only [State.attnOf, attn] using before

theorem derived_of_raise (h : StripChangeLaw s ∧ TripPendingLaw s) {l : LineNo} {e : AttnEntry}
    (other : e.cause ≠ .sup .stripChange) (attn : t.attn = (raise l e s).attn) (drip : t.drip = s.drip) (iso : t.iso = s.iso) :
    StripChangeLaw t ∧ TripPendingLaw t := by
  have same : ∀ k, t.attnOf k = (raise l e s).attnOf k := fun k => by simp only [State.attnOf, attn]
  refine derived_of_same h ?_ (fun n => ?_) (fun before => ?_) (by rw [iso]; exact id)
  · rw [same, isPending_raise]
    simp [other]
  · simp only [State.strip, drip]
  · rw [same]
    exact isPending_raise_of l supLine e _ s before

theorem isPending_filter (a : AttnLine) (f : AttnEntry → Bool) (c : AttnCause) (kept : ∀ e, e.cause = c → f e = true) :
    isPending { a with entries := a.entries.filter f } c = isPending a c := by
  simp only [isPending, List.any_filter]
  congr 1
  funext e
  by_cases same : e.cause = c
  · simp [same, kept e same]
  · simp [same]

theorem isPending_updAttn_filter (s : State) (l k : LineNo) (f : AttnEntry → Bool) (c : AttnCause)
    (kept : ∀ e, e.cause = c → f e = true) :
    isPending ((s.updAttn l fun a => { a with entries := a.entries.filter f }).attnOf k) c = isPending (s.attnOf k) c := by
  by_cases same : l = k
  · subst same
    rw [State.updAttn_attnOf_same]
    exact isPending_filter _ f c kept
  · rw [State.updAttn_attnOf_ne _ _ _ same]

theorem isPending_emptied (s : State) (l : LineNo) (c : AttnCause) :
    isPending (Vec.pick (Vec.map (fun a => { a with entries := [] }) s.attn) l) c = false := by
  rw [Vec.pick_map]
  rfl

theorem warmRestart_derived (s : State) : StripChangeLaw (warmRestart s) ∧ TripPendingLaw (warmRestart s) := by
  have dry : ∀ n, ¬((warmRestart s).strip n).changed = true := fun n => by
    have reset : (warmRestart s).drip = DripUnit.reset := by
      unfold warmRestart
      dsimp only
      split <;> rfl
    rw [State.strip, reset]
    decide +revert
  refine ⟨⟨fun pending => ?_, fun ⟨n, changed⟩ => absurd changed (dry n)⟩, fun asserted => ?_⟩
  · unfold warmRestart at pending
    dsimp only at pending
    split at pending
    · rw [raiseSup, isPending_raise] at pending
      simp [State.attnOf, isPending, AttnEntry.of] at pending
    · simp [State.attnOf, isPending] at pending
  · have before : s.iso.tripAsserted = true := by simpa using asserted
    unfold warmRestart
    dsimp only
    rw [if_pos before]
    exact isPending_raise_self supLine (.of (.sup .tripLine) 0) _

theorem emptyDelta_derived (h : StripChangeLaw s ∧ TripPendingLaw s) :
    StripChangeLaw (emptyDelta s) ∧ TripPendingLaw (emptyDelta s) := by
  have pending := emptyDelta_not_pending s
  refine ⟨⟨fun now => ?_, fun ⟨n, changed⟩ => ?_⟩, fun asserted => ?_⟩
  · rw [pending] at now
    cases now
  · simp [emptyDelta, dropCause, State.strip] at changed
  · rw [emptyDelta, dropCause, isPending_updAttn_filter _ _ _ _ _ fun e same => by simp [same]]
    exact h.2 asserted

theorem takeStrip_derived (n : StripNo) (level : StripState) (h : StripChangeLaw s ∧ TripPendingLaw s) :
    StripChangeLaw (takeStrip n level s) ∧ TripPendingLaw (takeStrip n level s) := by
  refine ⟨⟨fun _ => ⟨n, ?_⟩, fun _ => ?_⟩, fun asserted => ?_⟩
  · simp [takeStrip, State.strip, State.updStrip, raiseSup, raise]
  · exact isPending_raise_self supLine (.of (.sup .stripChange) 0) _
  · exact isPending_raise_of supLine supLine _ _ _ (h.2 asserted)

theorem tripTaken_derived (h : StripChangeLaw s ∧ TripPendingLaw s) :
    StripChangeLaw (tripTaken s) ∧ TripPendingLaw (tripTaken s) := by
  refine ⟨?_, fun _ => isPending_raise_self supLine (.of (.sup .tripLine) 0) _⟩
  have strip : isPending ((tripTaken s).attnOf supLine) (.sup .stripChange) =
      isPending (s.attnOf supLine) (.sup .stripChange) := by
    change isPending ((raise supLine (.of (.sup .tripLine) 0) s).attnOf supLine) _ = _
    rw [isPending_raise]
    simp [AttnEntry.of]
  rw [StripChangeLaw, strip]
  exact h.1

theorem poweredOn_derived (hold speed : Bool) (s : State) :
    StripChangeLaw (poweredOn hold speed s) ∧ TripPendingLaw (poweredOn hold speed s) := by
  refine ⟨⟨fun pending => ?_, fun ⟨n, changed⟩ => ?_⟩, nofun⟩
  · rw [poweredOn_attnOf] at pending
    cases pending
  · rw [poweredOn_strip] at changed
    cases changed

theorem Act.derived (a : Act keep s t) (h : StripChangeLaw s ∧ TripPendingLaw s) : StripChangeLaw t ∧ TripPendingLaw t := by
  cases a with
  | railTakes c =>
    refine derived_of_attn h (by simp) ?_ (by simp)
    unfold Machine.railTakes
    dsimp only
    split <;> rfl
  | railShuts =>
    obtain same | ⟨k, told⟩ := closeRecord_attn .rail
      (s.updRail fun r => { r with state := .closed, timer := none, account := Account.zero })
    · exact derived_of_attn h same (closeRecord_drip ..) (closeRecord_iso ..)
    · exact derived_of_raise h (by simp [AttnEntry.of]) told (closeRecord_drip ..) (closeRecord_iso ..)
  | ringAdd g c byContact =>
    obtain same | ⟨d, key, cause, told⟩ := ringAdd_attn g c byContact s
    · exact derived_of_attn h same (by simp) (by simp)
    · exact derived_of_raise h (by rcases cause with rfl | rfl <;> simp [AttnEntry.of]) told (by simp) (by simp)
  | closeRecord g =>
    obtain same | ⟨k, told⟩ := closeRecord_attn g s
    · exact derived_of_attn h same (by simp) (by simp)
    · exact derived_of_raise h (by simp [AttnEntry.of]) told (by simp) (by simp)
  | freeSlot k =>
    obtain ⟨-, iso, -, attn⟩ := dropReference_frame k (s.slot k).target (s.updSlot k fun _ => Slot.free)
    refine derived_of_attn h attn ?_ iso
    unfold Machine.freeSlot dropReference
    split <;> rfl
  | iso f falls => exact derived_of_same h rfl (fun _ => rfl) id falls
  | trip => exact tripTaken_derived h
  | drip f same => exact derived_of_same h rfl same id id
  | takeStrip n level => exact takeStrip_derived n level h
  | emptyDelta => exact emptyDelta_derived h
  | raise l e cls other => exact derived_of_raise h other rfl rfl rfl
  | dropCause l c leaves =>
    have kept : ∀ d : SupCause, ∀ e : AttnEntry, e.cause = .sup d → decide (e.cause ≠ c) = true := by
      rintro d e same
      rw [same, decide_eq_true_eq]
      rintro rfl
      simp [AttnCause.leavesOnRead] at leaves
    exact derived_of_same h (isPending_updAttn_filter _ _ _ _ _ (kept _)) (fun _ => rfl)
      (fun before => (isPending_updAttn_filter _ _ _ _ _ (kept _)).trans before) id
  | clearCauses l set =>
    refine ⟨?_, fun asserted => ?_⟩
    · have strip : isPending ((Machine.clearCauses l set s).attnOf supLine) (.sup .stripChange) =
          isPending (s.attnOf supLine) (.sup .stripChange) :=
        isPending_updAttn_filter _ _ _ _ _ fun e same => by simp [same, clearable]
      rw [StripChangeLaw, strip]
      exact h.1
    · have before : s.iso.tripAsserted = true := asserted
      rw [Machine.clearCauses, isPending_updAttn_filter _ _ _ _ _ fun e same => by simp [same, clearable, before]]
      exact h.2 before
  | mask l set =>
    have same : ∀ c, isPending ((s.updAttn l fun a => { a with mask := maskOf l set }).attnOf supLine) c =
        isPending (s.attnOf supLine) c := fun c => by
      by_cases here : l = supLine
      · subst here
        rw [State.updAttn_attnOf_same]
        rfl
      · rw [State.updAttn_attnOf_ne _ _ _ here]
    exact derived_of_same h (same _) (fun _ => rfl) (fun before => (same _).trans before) id
  | warm => exact warmRestart_derived s
  | store => exact derived_of_attn h (by simp) (by simp) (by simp)
  | reset hold speed => exact poweredOn_derived hold speed s
  | _ => exact h

theorem LoadAct.derived (a : LoadAct s t) (h : StripChangeLaw s ∧ TripPendingLaw s) :
    StripChangeLaw t ∧ TripPendingLaw t := by
  cases a with
  | act a => exact a.derived h
  | _ => exact h

end

/-- Settles O15, by the acts of a step. -/
theorem stepKeepsDerivedCauses : Obligations.StepKeepsDerivedCauses :=
  fun _ _ strip trip stepped => step_keeps_of_loads (law := fun s => StripChangeLaw s ∧ TripPendingLaw s) (fun _ _ h => h)
    (fun _ _ h => h) (fun _ _ a => a.derived) ⟨strip, trip⟩ stepped

/-- Settles O17, by the acts of a step. -/
theorem stepKeepsTheFormOfListsAndPlaces : Obligations.StepKeepsTheFormOfListsAndPlaces := by
  intro s t line attn cls set store stepped
  refine step_keeps_of_loads (law := Formed) (fun _ _ h => h) ?_ (fun _ _ a => a.formed) ⟨line, attn, cls, set, store⟩ stepped
  rintro s ms ⟨line, attn, cls, ⟨branches, rail⟩, store⟩
  refine ⟨line, attn, cls, ⟨fun b => ?_, rail⟩, store⟩
  rw [elapse_br]
  exact branches b

end Sys2Proof.Machine
end

section
/-! PROOF. Every step keeps RAIL on the occupied bays, the rail set empty in OPEN and OPENING, and the Incident Ring (O10,
O16). -/

namespace Sys2Proof.Machine

open Sys2Proof Sys2Proof.Safety

section

variable {p : Params} {x y : Branch} {may shut : Prop} {keep : Bool} {s t : State} {b : BranchNo}

/-! ## RAIL on the occupied bays (R126) -/

/-- R126 for one branch record. -/
abbrev Branch.HoldsRail (x : Branch) : Prop := x.dock ≠ .vacant → BranchCause.rail ∈ x.causes

theorem ContactEntry.holdsRail (a : ContactEntry x y) (h : BranchCause.rail ∈ x.causes) : y.HoldsRail := fun _ => by
  rw [a.causes]
  exact h

theorem BranchAct.holdsRail (a : BranchAct p may shut x y) (closed : ¬may) (h : x.HoldsRail) : y.HoldsRail := by
  have held : ∀ {d}, x.dock = d → d ≠ .vacant → BranchCause.rail ∈ x.causes := fun e ne => h (e ▸ ne)
  have left : ∀ c, BranchCause.rail ∈ x.causes → c ≠ .rail → BranchCause.rail ∈ x.causes.filter (· ≠ c) := fun c rail other =>
    List.mem_filter.2 ⟨rail, by simpa using Ne.symm other⟩
  cases a with
  | toPriming from_ => exact fun _ => from_.elim (held · (by decide)) fun e => held e.1 (by decide)
  | toAdmitted from_ => exact fun _ => from_.elim (held · (by decide)) (held · (by decide))
  | toReleasing from_ =>
    refine fun _ => h ?_
    rintro e
    rw [e] at from_
    cases from_
  | toDraining from_ => exact fun _ => held from_ (by decide)
  | toPullReady from_ => exact fun _ => by rcases from_ with e | e | e <;> exact held e (by decide)
  | toIsolated from_ => exact fun _ => held from_ (by decide)
  | rest entry _ arrives =>
    intro occupied
    by_cases vacant : x.dock = .vacant
    · exact absurd (arrives vacant occupied) closed
    · exact entry.holdsRail (h vacant) occupied
  | addCause close c _ arrives =>
    intro _
    rw [Branch.respond_causes]
    by_cases vacant : x.dock = .vacant
    · by_cases rail : c = .rail
      · simp [rail]
      · exact absurd (arrives vacant rail) closed
    · exact List.mem_append_left _ (h vacant)
  | dropCause c _ loses => exact fun occupied => left c (h occupied) fun e => closed (loses e)
  | exit c isolated last _ loses =>
    have rail := left c (held isolated (by decide)) fun e => closed (loses e)
    rw [last] at rail
    cases rail
  | _ => exact h

theorem BranchTurn.holdsRail_of_not_act (a : BranchTurn p x y) (h : x.HoldsRail)
    (act : ∀ {may shut : Prop}, BranchAct p may shut x y → y.HoldsRail) : y.HoldsRail := by
  cases a with
  | act a => exact act a
  | _ => exact h

/-- R126 where the rail state, the dock states and the sets are as before. -/
theorem railHeldLaw_of_same (h : RailHeldLaw s) (rail : t.rail.state = s.rail.state)
    (br : ∀ b, (t.br b).dock = (s.br b).dock ∧ (t.br b).causes = (s.br b).causes) : RailHeldLaw t := by
  intro shut b occupied
  rw [(br b).2]
  exact h (rail ▸ shut) b ((br b).1 ▸ occupied)

theorem SameButIncidents.railHeldLaw (same : SameButIncidents s t) (h : RailHeldLaw s) : RailHeldLaw t :=
  railHeldLaw_of_same h (by rw [same.rail]) fun b => ⟨same.dock b, same.causes b⟩

theorem railTakes_closed (c : RailCause) (s : State) : (railTakes c s).rail.state ≠ .opened := by
  rcases railTakes_state c s with e | e <;> rw [e] <;> decide

theorem Act.railHeldLaw (a : Act true s t) (h : RailHeldLaw s) : RailHeldLaw t := by
  cases a with
  | branch i f act =>
    intro shut b occupied
    by_cases same : i = b
    · subst same
      rw [State.updBranch_br_same] at occupied ⊢
      exact act.holdsRail (fun may => shut (may rfl)) (h shut i) occupied
    · rw [State.updBranch_br_ne _ _ _ same] at occupied ⊢
      exact h shut b occupied
  | transfer i j m distinct =>
    refine railHeldLaw_of_same h rfl fun b => ?_
    by_cases second : j = b
    · subst second
      rw [State.updBranch_br_same, State.updBranch_br_ne _ _ _ distinct]
      exact ⟨rfl, rfl⟩
    · rw [State.updBranch_br_ne _ _ _ second]
      by_cases first : i = b
      · subst first
        rw [State.updBranch_br_same]
        exact ⟨rfl, rfl⟩
      · rw [State.updBranch_br_ne _ _ _ first]
        exact ⟨rfl, rfl⟩
  | round =>
    refine railHeldLaw_of_same h rfl fun b => ?_
    change ((publishGrants (roundPlan s).given s).br b).dock = _ ∧ ((publishGrants (roundPlan s).given s).br b).causes = _
    rw [publishGrants_br]
    split <;> exact ⟨rfl, rfl⟩
  | railTakes c fresh closed =>
    intro _ b occupied
    rw [railTakes_br] at occupied ⊢
    exact h (closed rfl) b occupied
  | railShuts closing =>
    refine (closeRecord_same .rail _).railHeldLaw fun _ b occupied => h ?_ b occupied
    rw [closing]
    decide
  | railOpening closed =>
    intro _ b occupied
    exact h (by rw [closed]; decide) b occupied
  | railOpened => exact fun shut => absurd rfl shut
  | ringAdd g c byContact => exact (ringAdd_same g c byContact s).railHeldLaw h
  | closeRecord g => exact (closeRecord_same g s).railHeldLaw h
  | freeSlot k =>
    refine railHeldLaw_of_same h ?_ fun b => ?_
    · unfold Machine.freeSlot dropReference
      split
      · rfl
      · simp only [State.updRail_rail]
        split <;> rfl
      · rfl
    · rw [Machine.freeSlot, dropReference_br]
      exact ⟨rfl, rfl⟩
  | trip =>
    refine railHeldLaw_of_same h rfl fun b => ?_
    simp only [tripTaken, clearEnables, State.updValves_br, State.mapBranches_br, Branch.disable]
    split <;> exact ⟨rfl, rfl⟩
  | enables => exact railHeldLaw_of_same h rfl fun b => by simp [setEnables]
  | period =>
    refine railHeldLaw_of_same h rfl fun b => ?_
    simp only [startPeriod, State.updValves_br, State.mapBranches_br, Branch.applyDuty]
    split <;> exact ⟨rfl, rfl⟩
  | warm =>
    refine railHeldLaw_of_same h (by rw [warmRestart_rail]; rfl) fun b => ?_
    rw [warmRestart_br]
    exact ⟨rfl, rfl⟩
  | window n w => exact railHeldLaw_of_same h rfl fun b => by simp [replaceWindow, State.br]
  | store => exact railHeldLaw_of_same h (by simp) fun b => by simp
  | reset hold speed =>
    intro _ b occupied
    rw [poweredOn_br] at occupied
    exact absurd rfl occupied
  | _ => exact h

theorem Runs.railHeldLaw (run : Runs true s t) (h : RailHeldLaw s) : RailHeldLaw t :=
  run.keeps (fun _ _ a => a.railHeldLaw) h

/-! ## Inside the operations that may add a cause to a VACANT bay -/

/-- A cause added: the branch holds what it held, and the new cause. -/
theorem mem_causes_of_addCauseCore {c d : BranchCause} {byContact : Bool} (h : d ∈ (s.br b).causes) :
    d ∈ ((addCauseCore b c byContact s).br b).causes := by
  by_cases old : c ∈ (s.br b).causes
  · rwa [addCauseCore_of_mem b c byContact s old]
  · rw [addCauseCore_br_same b c byContact s old]
    simp only [Branch.respond_causes]
    exact List.mem_append_left _ h

theorem addCauseCore_br_ne (b : BranchNo) (c : BranchCause) (byContact : Bool) (s : State) {d : BranchNo} (h : b ≠ d) :
    (addCauseCore b c byContact s).br d = s.br d := (addCauseCore_kept b c byContact s).2 d h

theorem gateAll_railHeldLaw (h : RailHeldLaw s) : RailHeldLaw (gateAll s) := (gateAll_runs s).railHeldLaw h

/-- R25, R126: a bay that has left VACANT gets RAIL when the rail is not OPEN. -/
theorem leftVacant_railHeldLaw (others : s.rail.state ≠ .opened → ∀ d, b ≠ d → (s.br d).HoldsRail) :
    RailHeldLaw (leftVacant b s) := by
  unfold leftVacant
  dsimp only
  refine gateAll_railHeldLaw ?_
  split
  case isTrue opened => exact fun shut => absurd opened shut
  case isFalse closed =>
    intro _ d occupied
    by_cases same : b = d
    · subst same
      exact mem_causes_addCauseCore b .rail false s
    · rw [addCauseCore_br_ne _ _ _ _ same] at occupied ⊢
      exact others closed d same occupied

theorem addBranchCause_railHeldLaw (b : BranchNo) (c : BranchCause) (byContact : Bool) (h : RailHeldLaw s) :
    RailHeldLaw (addBranchCause b c byContact s) := by
  have others : ∀ d, b ≠ d → s.rail.state ≠ .opened → ((addCauseCore b c byContact s).br d).HoldsRail := fun d ne shut => by
    rw [addCauseCore_br_ne _ _ _ _ ne]
    exact h shut d
  unfold addBranchCause
  dsimp only
  split
  case isTrue =>
    refine leftVacant_railHeldLaw fun shut d ne => others d ne ?_
    rwa [addCauseCore_rail] at shut
  case isFalse stays =>
    intro shut d occupied
    rw [addCauseCore_rail] at shut
    by_cases same : b = d
    · subst same
      by_cases vacant : (s.br b).dock = .vacant
      · simp [vacant, occupied] at stays
      · exact mem_causes_of_addCauseCore (h shut b vacant)
    · exact others d same shut occupied

/-- What each turn of a loop brings for its own branch, and no other turn takes away, stands for every branch after it. -/
theorem forBranches_each {Q : BranchNo → State → Prop} {f : BranchNo → State → State} (turn : ∀ b s, Q b (f b s))
    (kept : ∀ b c s, b ≠ c → Q c s → Q c (f b s)) (s : State) (b : BranchNo) : Q b (forBranches f s) := by
  have loop : ∀ (bs : List BranchNo) (s : State), b ∈ bs ∨ Q b s → Q b (bs.foldl (fun s b => f b s) s) := by
    intro bs
    induction bs with
    | nil => exact fun s h => h.elim nofun id
    | cons c bs ih =>
      intro s h
      refine ih _ ?_
      by_cases same : c = b
      · subst same
        exact .inr (turn c s)
      · rcases h with member | before
        · exact .inl ((List.mem_cons.1 member).resolve_left (Ne.symm same))
        · exact .inr (kept c b s same before)
  exact loop allBranches s (.inl (mem_allBranches b))

theorem addRailToOccupied_holdsRail (s : State) (b : BranchNo) : ((addRailToOccupied s).br b).HoldsRail := by
  refine forBranches_each (Q := fun b s => (s.br b).HoldsRail) (fun b s => ?_) (fun b c s ne held => ?_) s b
  · split
    case isTrue vacant => exact fun occupied => absurd vacant occupied
    case isFalse => exact fun _ => mem_causes_addCauseCore b .rail false s
  · split
    · exact held
    · rw [addCauseCore_br_ne _ _ _ _ ne]
      exact held

theorem addRailCause_railHeldLaw (c : RailCause) (h : RailHeldLaw s) : RailHeldLaw (addRailCause c s) := by
  unfold addRailCause
  split
  · exact h
  · dsimp only
    rw [railRespond_eq]
    have responded : RailHeldLaw (if s.rail.state = .opened then addRailToOccupied (railTakes c s) else railTakes c s) := by
      split
      case isTrue => exact fun _ b => addRailToOccupied_holdsRail _ b
      case isFalse closed =>
        intro _ b occupied
        rw [railTakes_br] at occupied ⊢
        exact h closed b occupied
    have driven : RailHeldLaw (driveTripOut
        (if s.rail.state = .opened then addRailToOccupied (railTakes c s) else railTakes c s)) := responded
    split
    · exact (ringAdd_same _ _ _ _).railHeldLaw driven
    · exact driven

theorem sledArrives_railHeldLaw (b : BranchNo) (h : RailHeldLaw s) : RailHeldLaw (sledArrives b s) := by
  have entered : ∀ f, (s.updBranch b f).rail = s.rail ∧ ∀ d, b ≠ d → (s.updBranch b f).br d = s.br d := fun f =>
    ⟨rfl, fun d ne => State.updBranch_br_ne _ _ _ ne⟩
  have arrived : ∀ u : State, u.rail = s.rail → (∀ d, b ≠ d → u.br d = s.br d) → RailHeldLaw (leftVacant b u) :=
    fun u rail others => leftVacant_railHeldLaw fun shut d ne => by
      rw [others d ne]
      exact h (rail ▸ shut) d
  unfold sledArrives
  split
  · unfold enterHeld
    dsimp only
    split
    · refine arrived _ ?_ fun d ne => ?_
      · obtain stays | ⟨-, primes⟩ := gate_eq b (s.updBranch b (Branch.toHeld s.params.seatSettle false))
        · rw [stays]
          rfl
        · rw [primes]
          rfl
      · rw [gate_br_ne b _ ne]
        exact (entered _).2 d ne
    · exact arrived _ (entered _).1 (entered _).2
  · exact arrived _ (entered _).1 (entered _).2

theorem Move.railHeldLaw (m : Move s t) (h : RailHeldLaw s) : RailHeldLaw t := by
  cases m with
  | act a => exact a.railHeldLaw h
  | addCause b c byContact => exact addBranchCause_railHeldLaw b c byContact h
  | addRail c => exact addRailCause_railHeldLaw c h
  | arrive b => exact sledArrives_railHeldLaw b h

theorem Moves.railHeldLaw (run : Moves s t) (h : RailHeldLaw s) : RailHeldLaw t := by
  induction run with
  | refl => exact h
  | tail _ last ih => exact last.railHeldLaw ih

theorem alignRail_railHeldLaw (s : State) : RailHeldLaw (alignRail s) := by
  unfold alignRail
  split
  case isTrue opened => exact fun shut => absurd opened shut
  case isFalse => exact fun _ b => addRailToOccupied_holdsRail s b

theorem resumeEnables_railHeldLaw (h : RailHeldLaw s) : RailHeldLaw (resumeEnables s) := by
  unfold resumeEnables
  split
  · dsimp only
    split
    · exact h
    · exact railHeldLaw_of_same h rfl fun b => by simp [setEnables]
  · exact h

theorem resumeDuties_railHeldLaw (h : RailHeldLaw s) : RailHeldLaw (resumeDuties s) :=
  railHeldLaw_of_same h rfl fun b => by
    rw [resumeDuties_br]
    exact ⟨rfl, rfl⟩

theorem endLoading_railHeldLaw (blocks : List (List Byte)) (reason : EndReason) (defaulted dripFirst : Bool) (s : State) :
    RailHeldLaw (endLoading blocks reason defaulted dripFirst s) :=
  (endLoading_after blocks reason defaulted dripFirst s).railHeldLaw (resumeDuties_railHeldLaw (resumeEnables_railHeldLaw
    ((resumeIsolationAndStrips_moves dripFirst _).railHeldLaw (alignRail_railHeldLaw _))))

theorem elapse_railHeldLaw (ms : Nat) (h : RailHeldLaw s) : RailHeldLaw (elapse ms s) :=
  railHeldLaw_of_same h rfl fun b => by
    rw [elapse_br]
    exact ⟨rfl, rfl⟩

theorem step_railHeldLaw (h : RailHeldLaw s) (stepped : step s = .next t) : RailHeldLaw t := by
  obtain ⟨q, u, r, rfl, reached⟩ := step_reaches stepped
  have held : RailHeldLaw u := by
    rcases reached with ⟨ms, moves⟩ | ⟨blocks, reason, defaulted, dripFirst, ended⟩
    · exact moves.railHeldLaw (elapse_railHeldLaw ms h)
    · rw [ended]
      exact endLoading_railHeldLaw blocks reason defaulted dripFirst _
  exact railHeldLaw_of_same held rfl fun _ => ⟨rfl, rfl⟩

/-! ## The rail set (R130, R133) -/

theorem Act.railSetLaw (a : Act keep s t) (h : RailSetLaw s) : RailSetLaw t := by
  cases a with
  | railTakes c =>
    intro moved
    rcases railTakes_state c s with e | e <;> rw [e] at moved <;> rcases moved with moved | moved <;> cases moved
  | railDrops c =>
    intro moved
    change s.rail.causes.filter _ = []
    rw [h moved]
    rfl
  | railShuts =>
    rw [RailSetLaw, Machine.railShuts, closeRecord_rail]
    exact fun moved => moved.elim nofun nofun
  | railOpening _ empty => exact fun _ => empty
  | railOpened opening => exact fun _ => h (.inr opening)
  | ringAdd g c byContact =>
    rw [RailSetLaw, (ringAdd_same g c byContact s).rail]
    exact h
  | closeRecord g => rwa [RailSetLaw, closeRecord_rail]
  | freeSlot =>
    unfold Machine.freeSlot dropReference
    split
    · exact h
    · rw [RailSetLaw, State.updRail_rail]
      split <;> exact h
    · exact h
  | warm =>
    rw [RailSetLaw, warmRestart_rail]
    exact h
  | store => rwa [RailSetLaw, State.storeHalf_rail]
  | reset => exact fun _ => rfl
  | _ => exact h

theorem LoadAct.railSetLaw (a : LoadAct s t) (h : RailSetLaw s) : RailSetLaw t := by
  cases a with
  | act a => exact a.railSetLaw h
  | _ => exact h

end

/-- Settles O10: RAIL by the moves of a step, the rail set by its acts. -/
theorem stepKeepsTheRailAndItsBays : Obligations.StepKeepsTheRailAndItsBays :=
  fun _ _ held set stepped => ⟨step_railHeldLaw held stepped,
    step_keeps_of_loads (law := RailSetLaw) (fun _ _ h => h) (fun _ _ h => h) (fun _ _ a => a.railSetLaw) set stepped⟩

end Sys2Proof.Machine
end

section
/-! PROOF. Every step keeps the Incident Ring: references and slots agree, and a record is OPEN only while its target is
closing (O16). -/

namespace Sys2Proof.Machine

open Sys2Proof Sys2Proof.Safety

section

variable {p : Params} {x y : Branch} {may shut : Prop} {keep : Bool} {s t : State}

/-! ## What the law hangs on -/

/-- References and slots are as before, and a target that closed is still closing where its record is OPEN. -/
theorem ringLaw_of_same (h : RingLaw s) (slots : ∀ k, (t.slot k).state = (s.slot k).state ∧ (t.slot k).target = (s.slot k).target)
    (refs : ∀ g, incidentOf t g = incidentOf s g)
    (closing : ∀ k g, HasOpenRecord s g k → stillClosing s g → stillClosing t g) : RingLaw t := by
  obtain ⟨named, refers, opened⟩ := h
  refine ⟨fun k used => ?_, fun g k ref => ?_, fun k g state target => ?_⟩
  · obtain ⟨g, target, ref⟩ := named k ((slots k).1 ▸ used)
    exact ⟨g, (slots k).2.trans target, (refs g).trans ref⟩
  · rw [(slots k).1, (slots k).2]
    exact refers g k ((refs g).symm.trans ref)
  · rw [(slots k).1] at state
    rw [(slots k).2] at target
    obtain ⟨g', target', ref⟩ := named k (by rw [state]; decide)
    cases Option.some.inj (target'.symm.trans target)
    exact closing k g ⟨ref, state⟩ (opened k g state target)

theorem incidentOf_of_same (br : ∀ b, (t.br b).incident = (s.br b).incident) (rail : t.rail.incident = s.rail.incident)
    (g : Target) : incidentOf t g = incidentOf s g := by
  cases g with
  | branch b => exact br b
  | rail => exact rail

theorem stillClosing_of_same (br : ∀ b, (t.br b).dock = (s.br b).dock) (rail : t.rail.state = s.rail.state) {g : Target}
    (h : stillClosing s g) : stillClosing t g := by
  cases g with
  | branch b => exact (br b).trans h
  | rail => exact rail.trans h

/-- Nothing that the ring hangs on has changed. -/
theorem ringLaw_of_frame (h : RingLaw s) (ring : t.ring = s.ring)
    (br : ∀ b, (t.br b).incident = (s.br b).incident ∧ (t.br b).dock = (s.br b).dock)
    (rail : t.rail.incident = s.rail.incident ∧ t.rail.state = s.rail.state) : RingLaw t :=
  ringLaw_of_same h (fun k => by simp [State.slot, ring]) (incidentOf_of_same (fun b => (br b).1) rail.1)
    fun _ _ _ => stillClosing_of_same (fun b => (br b).2) rail.2

/-! ## The branches -/

theorem BranchAct.leaves_isolating (a : BranchAct p may shut x y) (h : x.dock = .isolating) : y.dock = .isolating ∨ shut := by
  have other : ∀ {d}, x.dock = d → d ≠ .isolating → False := fun e ne => ne (e.symm.trans h)
  cases a with
  | toPriming from_ => exact (from_.elim (other · (by decide)) fun e => other e.1 (by decide)).elim
  | toAdmitted from_ => exact (from_.elim (other · (by decide)) (other · (by decide))).elim
  | toReleasing from_ => rw [h] at from_; cases from_
  | toDraining from_ => exact (other from_ (by decide)).elim
  | toPullReady from_ => rcases from_ with e | e | e <;> exact (other e (by decide)).elim
  | toIsolated _ _ closed => exact .inr closed
  | rest _ from_ =>
    rcases from_ with resting | ⟨-, -, closed⟩
    · rw [h] at resting
      cases resting
    · exact .inr closed
  | addCause close c =>
    rw [Branch.respond_dock]
    exact .inl (by simp [h])
  | exit c isolated => exact (other isolated (by decide)).elim
  | _ => exact .inl h

/-- A branch record turned: its reference stands, and it leaves ISOLATING only with no record OPEN. -/
theorem updBranch_ringLaw {i : BranchNo} {f : Branch → Branch} (incident : (f (s.br i)).incident = (s.br i).incident)
    (leaves : (s.br i).dock = .isolating → (f (s.br i)).dock = .isolating ∨ openSlot s (.branch i) = none) (h : RingLaw s) :
    RingLaw (s.updBranch i f) := by
  refine ringLaw_of_same h (fun _ => ⟨rfl, rfl⟩) (incidentOf_of_same (fun b => ?_) rfl) fun k g has closing => ?_
  · by_cases same : i = b
    · subst same
      rwa [State.updBranch_br_same]
    · rw [State.updBranch_br_ne _ _ _ same]
  · cases g with
    | rail => exact closing
    | branch b =>
      by_cases same : i = b
      · subst same
        refine (congrArg Branch.dock (State.updBranch_br_same s i f)).trans ((leaves closing).resolve_right fun none => ?_)
        exact absurd (none.symm.trans (openSlot_eq_some.2 has)) nofun
      · exact (congrArg Branch.dock (State.updBranch_br_ne s i f same)).trans closing

/-! ## The ring's own operations -/

theorem updSlot_slot_state {k j : SlotNo} {f : Slot → Slot} (state : (f (s.slot k)).state = (s.slot k).state)
    (target : (f (s.slot k)).target = (s.slot k).target) :
    ((s.updSlot k f).slot j).state = (s.slot j).state ∧ ((s.updSlot k f).slot j).target = (s.slot j).target := by
  by_cases same : k = j
  · subst same
    rw [State.updSlot_slot_same]
    exact ⟨state, target⟩
  · rw [State.updSlot_slot_ne _ _ _ same]
    exact ⟨rfl, rfl⟩

theorem updSlot_ringLaw {k : SlotNo} {f : Slot → Slot} (state : (f (s.slot k)).state = (s.slot k).state)
    (target : (f (s.slot k)).target = (s.slot k).target) (h : RingLaw s) : RingLaw (s.updSlot k f) :=
  ringLaw_of_same h (fun _ => updSlot_slot_state state target) (fun g => by cases g <;> rfl)
    fun _ g _ closing => by cases g <;> exact closing

theorem loseIncident_slots (g : Target) (x : Bool) (s : State) (k : SlotNo) :
    (loseIncident g x s).slot k = s.slot k := by cases g <;> rfl

theorem setIncident_incidentOf (g : Target) (r : Option SlotNo) (x : Bool) (s : State) (d : Target) :
    incidentOf (setIncident g r x s) d = if g = d then r else incidentOf s d := by
  cases g with
  | rail => cases d <;> simp [setIncident, incidentOf]
  | branch b =>
    cases d with
    | rail => simp [setIncident, incidentOf]
    | branch c =>
      by_cases same : b = c
      · subst same
        simp [setIncident, incidentOf]
      · simp [setIncident, incidentOf, same]

theorem loseIncident_ringLaw (g : Target) (x : Bool) (h : RingLaw s) : RingLaw (loseIncident g x s) := by
  have same := loseIncident_same g x s
  refine ringLaw_of_same h (fun k => by rw [loseIncident_slots]; exact ⟨rfl, rfl⟩) (fun d => ?_) fun _ _ _ => ?_
  · have refs := setIncident_incidentOf g (incidentOf s g) true s d
    have kept : incidentOf (loseIncident g x s) d = incidentOf (setIncident g (incidentOf s g) true s) d := by
      cases d <;> rfl
    rw [kept, refs]
    split
    case isTrue e => rw [e]
    case isFalse => rfl
  · exact stillClosing_of_same same.dock (by rw [same.rail])

/-- R149, R150: closing records keeps the ring, and the target that closed one may then stand anywhere. -/
theorem closeRecord_ringLaw (g : Target) (named : ∀ k, (s.slot k).state ≠ .free → ∃ d, (s.slot k).target = some d ∧ incidentOf s d = some k)
    (refers : ∀ d k, incidentOf s d = some k → (s.slot k).state ≠ .free ∧ (s.slot k).target = some d)
    (closing : ∀ k d, (s.slot k).state = .opened → (s.slot k).target = some d → d ≠ g → stillClosing s d) :
    RingLaw (closeRecord g s) := by
  have refs : ∀ d, incidentOf (closeRecord g s) d = incidentOf s d :=
    incidentOf_of_same (fun b => by rw [closeRecord_br]) (by rw [closeRecord_rail])
  have still : ∀ {d}, stillClosing s d → stillClosing (closeRecord g s) d :=
    stillClosing_of_same (fun b => by rw [closeRecord_br]) (by rw [closeRecord_rail])
  cases found : openSlot s g with
  | none =>
    rw [closeRecord_of_none found]
    refine ⟨named, refers, fun k d state target => closing k d state target ?_⟩
    rintro rfl
    obtain ⟨d', target', ref⟩ := named k (by rw [state]; decide)
    cases Option.some.inj (target'.symm.trans target)
    exact absurd (found.symm.trans (openSlot_eq_some.2 ⟨ref, state⟩)) nofun
  | some k =>
    obtain ⟨ref, state⟩ := openSlot_eq_some.1 found
    have slots : ∀ j, ((closeRecord g s).slot j).target = (s.slot j).target ∧
        ((closeRecord g s).slot j).state = if k = j then .closed else (s.slot j).state := fun j => by
      by_cases same : k = j
      · subst same
        simp [closeRecord, found, State.slot, State.updSlot]
      · simp [closeRecord, found, State.slot, State.updSlot, same]
    have used : ∀ j, ((closeRecord g s).slot j).state ≠ .free ↔ (s.slot j).state ≠ .free := fun j => by
      rw [(slots j).2]
      split
      case isTrue same => simp [← same, state]
      case isFalse => rfl
    refine ⟨fun j busy => ?_, fun d j named' => ?_, fun j d open_ target => ?_⟩
    · obtain ⟨d, target, ref⟩ := named j ((used j).1 busy)
      exact ⟨d, (slots j).1.trans target, (refs d).trans ref⟩
    · obtain ⟨busy, target⟩ := refers d j ((refs d).symm.trans named')
      exact ⟨(used j).2 busy, (slots j).1.trans target⟩
    · rw [(slots j).2] at open_
      split at open_
      · cases open_
      case isFalse other =>
        rw [(slots j).1] at target
        refine still (closing j d open_ target ?_)
        rintro rfl
        obtain ⟨d', target', ref'⟩ := named j (by rw [open_]; decide)
        cases Option.some.inj (target'.symm.trans target)
        exact other (Option.some.inj (ref.symm.trans ref'))

/-- R145: the record written at an opening, its target not yet looked at. -/
def recordPlaced (g : Target) (c : Cause) (byContact : Bool) (s : State) : State :=
  setIncident g (some s.ring.fill) false
    ((s.updSlot s.ring.fill fun _ => openedSlot s g c byContact).updRing fun r => { r with fill := r.fill + 1 })

theorem recordPlaced_same (g : Target) (c : Cause) (byContact : Bool) (s : State) :
    SameButIncidents s (recordPlaced g c byContact s) := by
  refine .trans ?_ (setIncident_same g _ false _)
  exact .of_eq rfl rfl

theorem recordPlaced_slot (g : Target) (c : Cause) (byContact : Bool) (s : State) (k : SlotNo) :
    (recordPlaced g c byContact s).slot k = if s.ring.fill = k then openedSlot s g c byContact else s.slot k := by
  rw [recordPlaced, State.slot, setIncident_ring]
  simp only [State.updRing_ring, State.updSlot, State.slot, Vec.pick_put]

theorem recordPlaced_incidentOf (g : Target) (c : Cause) (byContact : Bool) (s : State) (d : Target) :
    incidentOf (recordPlaced g c byContact s) d = if g = d then some s.ring.fill else incidentOf s d := by
  rw [recordPlaced, setIncident_incidentOf]
  cases d <;> rfl

theorem SameButIncidents.standsClosed (same : SameButIncidents s t) (g : Target) :
    Machine.standsClosed t g = Machine.standsClosed s g := by
  cases g with
  | branch b => simp only [Machine.standsClosed, same.dock]
  | rail =>
    have state : t.rail.state = s.rail.state := by rw [same.rail]
    simp only [Machine.standsClosed, state]

theorem SameButIncidents.stillClosing (same : SameButIncidents s t) {g : Target} (h : Safety.stillClosing s g) :
    Safety.stillClosing t g := stillClosing_of_same same.dock (by rw [same.rail]) h

theorem openRecord_eq (g : Target) (c : Cause) (byContact : Bool) (s : State) : openRecord g c byContact s =
    if standsClosed s g = true then closeRecord g (recordPlaced g c byContact s) else recordPlaced g c byContact s := by
  rw [← (recordPlaced_same g c byContact s).standsClosed]
  rfl

/-- R145: a record opened in a FREE slot for a target without reference that closes or stands closed. -/
theorem openRecord_ringLaw (g : Target) (c : Cause) (byContact : Bool) (h : RingLaw s) (none : incidentOf s g = none)
    (free : (s.slot s.ring.fill).state = .free) (stands : stillClosing s g ∨ standsClosed s g = true) :
    RingLaw (openRecord g c byContact s) := by
  obtain ⟨named, refers, opened⟩ := h
  rw [openRecord_eq]
  have slots := recordPlaced_slot g c byContact s
  have refs := recordPlaced_incidentOf g c byContact s
  have still : ∀ {d}, stillClosing s d → stillClosing (recordPlaced g c byContact s) d :=
    (recordPlaced_same g c byContact s).stillClosing
  generalize recordPlaced g c byContact s = u at slots refs still ⊢
  have busy : ∀ d j, incidentOf s d = some j → s.ring.fill ≠ j := by
    rintro d j ref rfl
    exact (refers d _ ref).1 free
  have named' : ∀ j, (u.slot j).state ≠ .free → ∃ d, (u.slot j).target = some d ∧ incidentOf u d = some j := fun j used => by
    rw [slots] at used ⊢
    by_cases here : s.ring.fill = j
    · rw [if_pos here]
      exact ⟨g, rfl, by rw [refs, if_pos rfl, here]⟩
    · rw [if_neg here] at used ⊢
      obtain ⟨d, target, ref⟩ := named j used
      refine ⟨d, target, ?_⟩
      rw [refs, if_neg, ref]
      rintro rfl
      exact absurd (none.symm.trans ref) nofun
  have refers' : ∀ d j, incidentOf u d = some j → (u.slot j).state ≠ .free ∧ (u.slot j).target = some d := fun d j ref => by
    rw [refs] at ref
    rw [slots]
    by_cases own : g = d
    · rw [if_pos own] at ref
      rw [if_pos (Option.some.inj ref), ← own]
      exact ⟨nofun, rfl⟩
    · rw [if_neg own] at ref
      rw [if_neg (busy d j ref)]
      exact refers d j ref
  have closing : ∀ j d, (u.slot j).state = .opened → (u.slot j).target = some d → d ≠ g → stillClosing u d :=
    fun j d state target other => by
      rw [slots] at state target
      by_cases here : s.ring.fill = j
      · rw [if_pos here] at target
        exact absurd (Option.some.inj target).symm other
      · rw [if_neg here] at state target
        exact still (opened j d state target)
  split
  case isTrue => exact closeRecord_ringLaw g named' refers' closing
  case isFalse open_ =>
    refine ⟨named', refers', fun j d state target => ?_⟩
    by_cases own : d = g
    · rw [own]
      exact still (stands.resolve_right open_)
    · exact closing j d state target own

theorem ringAdd_ringLaw (g : Target) (c : Cause) (byContact : Bool) (h : RingLaw s)
    (stands : stillClosing s g ∨ standsClosed s g = true) : RingLaw (ringAdd g c byContact s) := by
  unfold ringAdd
  split
  · split
    · exact updSlot_ringLaw rfl rfl h
    all_goals exact loseIncident_ringLaw g _ h
  case h_2 none =>
    split
    case isTrue free =>
      simp only [Bool.and_eq_true, decide_eq_true_eq] at free
      exact openRecord_ringLaw g c byContact h none free.2 stands
    case isFalse => exact loseIncident_ringLaw g _ h

theorem dropReference_incidentOf {k : SlotNo} {g : Target} (ref : incidentOf s g = some k) (d : Target) :
    incidentOf (dropReference k (some g) s) d = if g = d then none else incidentOf s d := by
  cases g with
  | rail =>
    have own : s.rail.incident = some k := ref
    cases d <;> simp [dropReference, incidentOf, own]
  | branch b =>
    have own : (s.br b).incident = some k := ref
    cases d with
    | rail => simp [dropReference, incidentOf]
    | branch e =>
      by_cases same : b = e
      · subst same
        simp [dropReference, incidentOf, own]
      · simp [dropReference, incidentOf, same]

theorem freeSlot_ringLaw {k : SlotNo} (closed : (s.slot k).state = .closed) (h : RingLaw s) : RingLaw (freeSlot k s) := by
  obtain ⟨named, refers, opened⟩ := h
  obtain ⟨g, target, ref⟩ := named k (by rw [closed]; decide)
  have slots : ∀ j, (freeSlot k s).slot j = if k = j then Slot.free else s.slot j := fun j => by
    rw [freeSlot, dropReference_slot]
    simp [State.slot, State.updSlot, Vec.pick_put]
  have refs : ∀ d, incidentOf (freeSlot k s) d = if g = d then none else incidentOf s d := fun d => by
    have freed : incidentOf (s.updSlot k fun _ => Slot.free) g = some k := by cases g <;> exact ref
    rw [freeSlot, target, dropReference_incidentOf freed]
    cases d <;> rfl
  have still : ∀ {d}, stillClosing s d → stillClosing (freeSlot k s) d := by
    refine stillClosing_of_same (fun b => ?_) ?_
    · rw [freeSlot, dropReference_br]
      rfl
    · unfold freeSlot dropReference
      split
      · rfl
      · simp only [State.updRail_rail]
        split <;> rfl
      · rfl
  refine ⟨fun j used => ?_, fun d j named' => ?_, fun j d state target' => ?_⟩
  · rw [slots] at used ⊢
    by_cases here : k = j
    · rw [if_pos here] at used
      exact absurd rfl used
    · rw [if_neg here] at used ⊢
      obtain ⟨d, target', ref'⟩ := named j used
      refine ⟨d, target', ?_⟩
      rw [refs, if_neg, ref']
      rintro rfl
      exact here (Option.some.inj (ref.symm.trans ref'))
  · rw [refs] at named'
    split at named'
    · cases named'
    case isFalse other =>
      obtain ⟨used, target'⟩ := refers d j named'
      have elsewhere : k ≠ j := by
        rintro rfl
        exact other (Option.some.inj (target.symm.trans target'))
      rw [slots, if_neg elsewhere]
      exact ⟨used, target'⟩
  · rw [slots] at state target'
    split at state
    · cases state
    case isFalse elsewhere =>
      rw [if_neg elsewhere] at target'
      exact still (opened j d state target')

/-! ## Every act -/

theorem Act.ringLaw (a : Act keep s t) (h : RingLaw s) : RingLaw t := by
  cases a with
  | branch i f act => exact updBranch_ringLaw (marks_incident act.marks) act.leaves_isolating h
  | transfer i j m distinct source target =>
    have moved : RingLaw (s.updBranch i (Branch.giveUp m)) := updBranch_ringLaw rfl .inl h
    exact updBranch_ringLaw (f := Branch.takeOver m) rfl .inl moved
  | round =>
    refine ringLaw_of_frame h rfl (fun b => ?_) ⟨rfl, rfl⟩
    change ((publishGrants (roundPlan s).given s).br b).incident = _ ∧ ((publishGrants (roundPlan s).given s).br b).dock = _
    rw [publishGrants_br]
    split <;> exact ⟨rfl, rfl⟩
  | railTakes c =>
    refine ringLaw_of_same h (fun k => by rw [railTakes_slot]; exact ⟨rfl, rfl⟩)
      (incidentOf_of_same (fun b => by rw [railTakes_br]) ?_) fun _ g _ closing => ?_
    · unfold Machine.railTakes
      dsimp only
      split <;> rfl
    · cases g with
      | branch b => exact (congrArg Branch.dock (railTakes_br c s b)).trans closing
      | rail =>
        have before : s.rail.state = .closing := closing
        simp [stillClosing, Machine.railTakes, before]
  | railShuts closing =>
    obtain ⟨named, refers, opened⟩ := h
    refine closeRecord_ringLaw .rail named refers fun k d state target other => ?_
    cases d with
    | rail => exact absurd rfl other
    | branch b => exact opened k (.branch b) state target
  | railOpening closed =>
    refine ringLaw_of_same h (fun _ => ⟨rfl, rfl⟩) (fun g => by cases g <;> rfl) fun _ g _ closing => ?_
    cases g with
    | branch b => exact closing
    | rail => exact absurd (closed.symm.trans closing) (by decide)
  | railOpened opening =>
    refine ringLaw_of_same h (fun _ => ⟨rfl, rfl⟩) (fun g => by cases g <;> rfl) fun _ g _ closing => ?_
    cases g with
    | branch b => exact closing
    | rail => exact absurd (opening.symm.trans closing) (by decide)
  | ringAdd g c byContact stands => exact ringAdd_ringLaw g c byContact h stands
  | closeRecord g =>
    obtain ⟨named, refers, opened⟩ := h
    exact closeRecord_ringLaw g named refers fun k d state target _ => opened k d state target
  | slot k => exact updSlot_ringLaw rfl rfl h
  | freeSlot k closed => exact freeSlot_ringLaw closed h
  | suspend =>
    refine ringLaw_of_same h (fun _ => ⟨rfl, rfl⟩) (fun g => by cases g <;> rfl) fun _ g _ closing => ?_
    cases g <;> exact closing
  | trip =>
    refine ringLaw_of_frame h rfl (fun b => ?_) ⟨rfl, rfl⟩
    simp only [tripTaken, clearEnables, State.updValves_br, State.mapBranches_br, Branch.disable]
    split <;> exact ⟨rfl, rfl⟩
  | enables => exact ringLaw_of_frame h rfl (fun b => by simp [setEnables]) ⟨rfl, rfl⟩
  | period =>
    refine ringLaw_of_frame h rfl (fun b => ?_) ⟨rfl, rfl⟩
    simp only [startPeriod, State.updValves_br, State.mapBranches_br, Branch.applyDuty]
    split <;> exact ⟨rfl, rfl⟩
  | warm =>
    refine ringLaw_of_frame h ?_ (fun b => ?_) ?_
    · unfold warmRestart
      dsimp only
      split <;> rfl
    · rw [warmRestart_br]
      exact ⟨rfl, rfl⟩
    · rw [warmRestart_rail]
      exact ⟨rfl, rfl⟩
  | window n w => exact ringLaw_of_frame h rfl (fun b => by simp [replaceWindow, State.br]) ⟨rfl, rfl⟩
  | store => exact ringLaw_of_frame h (by simp) (fun b => by simp) (by simp)
  | reset hold speed =>
    refine ⟨fun k used => ?_, fun g k ref => ?_, fun k g state => ?_⟩
    · rw [poweredOn_slot] at used
      exact absurd rfl used
    · cases g with
      | branch b =>
        rw [incidentOf, poweredOn_br] at ref
        cases ref
      | rail => cases ref
    · rw [poweredOn_slot] at state
      cases state
  | _ => exact ringLaw_of_frame h rfl (fun _ => ⟨rfl, rfl⟩) ⟨rfl, rfl⟩

theorem LoadAct.ringLaw (a : LoadAct s t) (h : RingLaw s) : RingLaw t := by
  cases a with
  | act a => exact a.ringLaw h
  | values blocks =>
    refine ringLaw_of_frame h rfl (fun b => ?_) ⟨rfl, rfl⟩
    rw [takeValues_br]
    split <;> exact ⟨rfl, rfl⟩
  | adopt i from_ =>
    refine updBranch_ringLaw rfl (fun isolating => ?_) h
    rw [isolating] at from_
    exact absurd from_ (by decide)
  | prime i => exact updBranch_ringLaw rfl .inl h
  | respond i =>
    refine updBranch_ringLaw (marks_incident (Branch.respond_marks _ _)) (fun isolating => .inl ?_) h
    rw [Branch.respond_dock, isolating]
  | bypass => exact ringLaw_of_frame h rfl (fun _ => ⟨rfl, rfl⟩) ⟨rfl, rfl⟩
  | duties => exact ringLaw_of_frame h rfl (fun b => by rw [resumeDuties_br]; exact ⟨rfl, rfl⟩) ⟨rfl, rfl⟩

end

/-- Settles O16, by the acts of a step. -/
theorem stepKeepsIncidentRing : Obligations.StepKeepsIncidentRing := by
  intro s t h stepped
  refine step_keeps_of_loads (law := RingLaw) (fun _ _ h => ?_) (fun s ms h => ?_) (fun _ _ a => a.ringLaw) h stepped
  · exact ringLaw_of_frame h rfl (fun _ => ⟨rfl, rfl⟩) ⟨rfl, rfl⟩
  · exact ringLaw_of_frame h rfl (fun b => by rw [elapse_br]; exact ⟨rfl, rfl⟩) ⟨rfl, rfl⟩

end Sys2Proof.Machine
end

section
/-! PROOF. Every command ends in a next state with its queue, a step runs the front command, and the state after reset meets
every law (O1, O3, O5). -/

namespace Sys2Proof.Machine

open Sys2Proof Sys2Proof.Safety

section

variable {keep : Bool} {s t : State}

/-! ## The queue (log 1) -/

theorem Act.pending (a : Act keep s t) : t.pending = s.pending := by
  cases a with
  | railTakes c =>
    unfold Machine.railTakes
    dsimp only
    split <;> rfl
  | railShuts => exact closeRecord_pending ..
  | ringAdd => simp
  | closeRecord => simp
  | freeSlot =>
    unfold Machine.freeSlot dropReference
    split <;> rfl
  | warm =>
    unfold warmRestart
    dsimp only
    split <;> rfl
  | store => simp
  | _ => rfl

theorem LoadAct.pending (a : LoadAct s t) : t.pending = s.pending := by
  cases a with
  | act a => exact a.pending
  | _ => rfl

theorem Loads.pending (run : Loads s t) : t.pending = s.pending :=
  run.keeps (law := fun u => u.pending = s.pending) (fun _ _ a h => a.pending.trans h) rfl

theorem Outcome.pending (h : Outcome s t) : t.pending = s.pending := by
  obtain ⟨ms, moves⟩ | ⟨blocks, reason, defaulted, dripFirst, ended⟩ := h
  · exact (Moves.loads moves).pending
  · rw [ended]
    exact (endLoading_loads blocks reason defaulted dripFirst s).pending

end

/-- Settles O3, from the outcome of every command. -/
theorem everyCommandAnswersANextState : Obligations.EveryCommandAnswersANextState := by
  intro c s
  obtain ⟨t, answer, outcome⟩ := exec_outcome c s
  exact ⟨t, answer, Outcome.pending outcome⟩

/-- Settles O1, by the two cases of the queue. -/
theorem stepRunsTheFrontCommand : Obligations.StepRunsTheFrontCommand := by
  refine fun c s => ⟨rfl, fun rest front => ?_⟩
  rw [step, front]

/-! ## The state after reset -/

@[simp] theorem reset_br (b : BranchNo) : State.reset.br b = Branch.reset b false := pick_branchesReset false b

@[simp] theorem reset_slot (k : SlotNo) : State.reset.slot k = Slot.free := pick_replicate _ k

@[simp] theorem reset_attnOf (l : LineNo) : State.reset.attnOf l = ⟨[], (lineClass l).allCauses⟩ := pick_attnReset l

@[simp] theorem reset_line (l : LineNo) : State.reset.line l = Line.reset := pick_replicate _ l

@[simp] theorem reset_strip (n : StripNo) : State.reset.strip n = Strip.reset := pick_replicate _ n

theorem reset_eq_poweredOn : State.reset = poweredOn false false State.reset := rfl

theorem reset_dutyLaw : DutyLaw State.reset := (dutyLaw_iff _).2 fun b => by
  rw [reset_br]
  exact Branch.zeroed_driven rfl rfl rfl

theorem reset_limitLaw : LimitLaw State.reset := fun b => by
  rw [reset_br]
  simp [Branch.reset]

theorem reset_rangeLaw : RangeLaw State.reset := by
  refine ⟨fun b => ?_, Nat.zero_le _, fun k => ?_⟩
  · rw [reset_br]
    exact Branch.untrimmed_ranged (Nat.zero_le _) (Nat.zero_le _) rfl (Nat.zero_le _)
  · rw [reset_slot]
    exact Nat.zero_le _

theorem reset_ringLaw : RingLaw State.reset := by
  refine ⟨fun k used => ?_, fun g k ref => ?_, fun k g state => ?_⟩
  · rw [reset_slot] at used
    exact absurd rfl used
  · cases g with
    | branch b =>
      rw [incidentOf, reset_br] at ref
      cases ref
    | rail => cases ref
  · rw [reset_slot] at state
    cases state

theorem reset_lineLaw : LineLaw State.reset := fun l => by
  rw [reset_line]
  exact ⟨Nat.zero_le _, fun no => absurd rfl no, Nat.zero_le _⟩

theorem reset_attnLaw : AttnLaw State.reset := fun l => by
  rw [reset_attnOf]
  exact ⟨List.Pairwise.nil, BitVec.and_self⟩

theorem reset_budgetLaw : BudgetLaw State.reset := by
  rw [BudgetLaw, grantSum, sumBranches_eq_zero fun b => by rw [reset_br]; rfl]
  exact Nat.le_refl 0

theorem reset_bypassDutyLaw : BypassDutyLaw State.reset := by
  simp [BypassDutyLaw, State.reset, ValveUnit.reset, Allocator.reset]

theorem reset_each {P : Branch → Prop} (h : ∀ b, P (Branch.reset b false)) (b : BranchNo) : P (State.reset.br b) := by
  rw [reset_br]
  exact h b

theorem reset_grantLaw : GrantLaw State.reset := reset_each (P := Branch.Granted) fun _ _ => rfl

theorem reset_isolationLaw : IsolationLaw State.reset :=
  reset_each (P := Branch.Secluded) fun _ => Branch.secluded_of_free rfl nofun

theorem reset_railHeldLaw : RailHeldLaw State.reset :=
  fun _ => reset_each (P := Branch.HoldsRail) fun _ occupied => absurd rfl occupied

theorem reset_enableLaw : EnableLaw State.reset := ⟨reset_each (P := fun x => x.enable = false) fun _ => rfl, nofun⟩

theorem reset_inactiveLaw : InactiveLaw State.reset :=
  ⟨reset_each (P := fun x => x.enable = false → x.applied = 0) fun _ _ => rfl, fun _ => rfl, fun _ => rfl⟩

theorem reset_setLaw : SetLaw State.reset :=
  ⟨reset_each (P := fun x => x.causes.Nodup) fun _ => List.nodup_nil, List.nodup_nil⟩

theorem reset_ledLaw : LedLaw State.reset := reset_each (P := fun x => x.led = x.dock.led) fun _ => rfl

theorem reset_classLaw : ClassLaw State.reset := fun l e found => by
  rw [reset_attnOf] at found
  cases found

/-- Settles O5: each law read off the tables of the reset. -/
theorem resetStateMeetsEveryLaw : Obligations.ResetStateMeetsEveryLaw := by
  obtain ⟨strips, trip⟩ := reset_eq_poweredOn ▸ poweredOn_derived false false State.reset
  exact ⟨reset_grantLaw, reset_limitLaw, reset_dutyLaw, reset_isolationLaw, reset_railHeldLaw, fun _ => rfl,
    ⟨nofun, fun held => held.elim nofun nofun⟩, rfl, reset_enableLaw, reset_inactiveLaw,
    reset_eq_poweredOn ▸ poweredOn_windowLaw false false State.reset, strips, trip, reset_budgetLaw, reset_ringLaw,
    reset_lineLaw, rfl, reset_attnLaw, reset_setLaw, reset_ledLaw, reset_rangeLaw, reset_bypassDutyLaw, reset_classLaw⟩

end Sys2Proof.Machine
end

section
/-! PROOF. The requests on branches: FLOW_REQUEST, TRANSFER, SET_BRANCH, RELEASE and ADMIT (O21, O22, O23, O26, O27). -/

namespace Sys2Proof.Machine

open Sys2Proof Sys2Proof.Safety

section

variable {s t u : State} {l : LineNo} {tag : Byte} {b : BranchNo}

/-! ## Replies -/

/-- A reply started after changes that leave the lines as they were is a reply in the words of the statements. -/
theorem startReply_replies (lines : t.lines = s.lines) (l : LineNo) (k tag : Byte) (st : Status) (body : List Byte) :
    Replies s (startReply l k tag st body t) l (replyKind k) tag (st.code :: body) := by
  rw [startReply_eq_replied, Replies, replied, replied, lines]

@[simp] theorem startReply_br (l : LineNo) (k tag : Byte) (st : Status) (body : List Byte) (s : State) (b : BranchNo) :
    (startReply l k tag st body s).br b = s.br b := rfl

@[simp] theorem startReply_attnOf (l : LineNo) (k tag : Byte) (st : Status) (body : List Byte) (s : State) (m : LineNo) :
    (startReply l k tag st body s).attnOf m = s.attnOf m := rfl

theorem clampedFlag_ne (x y : Nat) : clampedFlag (x != y) = if x = y then 0 else 1 := by
  by_cases same : x = y <;> simp [clampedFlag, flagBit, same, octet]

theorem updBranch_eq (s : State) (b : BranchNo) (f : Branch → Branch) :
    s.updBranch b f = { s with branches := Vec.put s.branches b (f (s.br b)) } := rfl

/-! ## Changes of branch records and attention lists alone -/

/-- The branch records and the attention lists change alone. -/
def BaysOnly (s t : State) : Prop := ∃ branches attn, t = { s with branches := branches, attn := attn }

theorem BaysOnly.refl (s : State) : BaysOnly s s := ⟨s.branches, s.attn, rfl⟩

theorem BaysOnly.trans (h : BaysOnly s t) (k : BaysOnly t u) : BaysOnly s u := by
  obtain ⟨_, _, rfl⟩ := h
  obtain ⟨branches, attn, rfl⟩ := k
  exact ⟨branches, attn, rfl⟩

theorem updBranch_baysOnly (b : BranchNo) (f : Branch → Branch) (s : State) : BaysOnly s (s.updBranch b f) :=
  ⟨_, s.attn, rfl⟩

theorem raiseOwner_baysOnly (b : BranchNo) (c : SledCause) (xs : List BranchCause) (s : State) :
    BaysOnly s (raiseOwner b c xs s) := by
  unfold raiseOwner
  split
  · exact .refl s
  · exact ⟨s.branches, _, rfl⟩

theorem gate_baysOnly (b : BranchNo) (s : State) : BaysOnly s (gate b s) := by
  obtain stays | ⟨-, primes⟩ := gate_eq b s
  · rw [stays]
    exact .refl s
  · rw [primes]
    exact updBranch_baysOnly b _ s

theorem BaysOnly.lines (h : BaysOnly s t) : t.lines = s.lines := by
  obtain ⟨_, _, rfl⟩ := h
  rfl

/-- The frame of a request that changes branch records and attention lists and starts its reply. -/
theorem BaysOnly.replied (h : BaysOnly s t) (l : LineNo) (k tag : Byte) (st : Status) (body : List Byte) :
    startReply l k tag st body t = { s with
      branches := (startReply l k tag st body t).branches
      attn := (startReply l k tag st body t).attn
      lines := (startReply l k tag st body t).lines } := by
  obtain ⟨_, _, rfl⟩ := h
  rfl

/-- The frame of a request that changes branch records alone and starts its reply. -/
theorem BaysOnly.replied_of_attn (h : BaysOnly s t) (attn : t.attn = s.attn) (l : LineNo) (k tag : Byte) (st : Status)
    (body : List Byte) :
    startReply l k tag st body t = { s with
      branches := (startReply l k tag st body t).branches
      lines := (startReply l k tag st body t).lines } := by
  obtain ⟨_, _, rfl⟩ := h
  have same := attn
  subst same
  rfl

/-! ## FLOW_REQUEST (R63) -/

theorem exec_flowRequest_of_handed {flow : Nat} (h : Handed s l tag (.flowRequest b flow)) :
    exec (.flowRequest l) s = .next (serveFlowRequest l tag b flow s) := by
  simp only [exec, execFlowRequest, h]

theorem storesRequest_iff (d : DockState) :
    storesRequest d = true ↔ d ∈ [DockState.seated, .held, .priming, .admitted, .adopting] := by
  cases d <;> decide

/-! ## TRANSFER (R66, R67) -/

theorem exec_transfer_of_handed {i j : BranchNo} {x : Nat} (h : Handed s l tag (.transfer i j x)) :
    exec (.transfer l) s = .next (serveTransfer l tag i j x s) := by
  simp only [exec, execTransfer, h]

theorem serveTransfer_of_not_admitted {i j : BranchNo} {x : Nat} (h : (s.br i).dock ≠ .admitted ∨ (s.br j).dock ≠ .admitted) :
    serveTransfer l tag i j x s = startReply l Kind.transfer.code tag .notServed [0, 0] s := by
  rw [serveTransfer, if_neg]
  simpa [imp_iff_not_or] using h

theorem serveTransfer_of_admitted {i j : BranchNo} {x : Nat} (hi : (s.br i).dock = .admitted) (hj : (s.br j).dock = .admitted) :
    serveTransfer l tag i j x s = startReply l Kind.transfer.code tag .ok (toOctets 2 (transferAmount s i j x))
      (applyTransfer i j (transferAmount s i j x) s) := by
  rw [serveTransfer, if_pos]
  simp [hi, hj]

/-- What a transfer of `m` leaves of every branch. -/
structure Transferred (s t : State) (i j : BranchNo) (m : Nat) : Prop where
  source : t.br i = if m = 0 then s.br i else (s.br i).giveUp m
  target : t.br j = if m = 0 then s.br j else (s.br j).takeOver m
  others : ∀ c, c ≠ i → c ≠ j → t.br c = s.br c
  sum : grantSum t = grantSum s
  told : 0 < m → s.params.quantum ≤ m → ToldOwner s t i .grantChanged ∧ ToldOwner s t j .grantChanged
  quiet : m < s.params.quantum → t.attn = s.attn
  frame : BaysOnly s t

theorem toldOwner_raiseOwner {c : SledCause} {xs : List BranchCause} (owner : (u.br b).owner = (s.br b).owner) :
    ToldOwner s (raiseOwner b c xs u) b c := fun o own =>
  isPending_raiseOwner b c xs u o (owner.trans own)

theorem grantSum_congr (h : ∀ b, (t.br b).grant = (s.br b).grant) : grantSum t = grantSum s := sumBranches_congr h

theorem applyTransfer_transferred {i j : BranchNo} {m : Nat} (distinct : i ≠ j) (spare : m ≤ (s.br i).grant) :
    Transferred s (applyTransfer i j m s) i j m := by
  unfold applyTransfer
  split
  case isTrue none =>
    exact ⟨by rw [if_pos none], by rw [if_pos none], fun _ _ _ => rfl, rfl, fun some => by omega, fun _ => rfl, .refl s⟩
  case isFalse some =>
    dsimp only
    generalize moved : (s.updBranch i (Branch.giveUp m)).updBranch j (Branch.takeOver m) = u
    have source : u.br i = (s.br i).giveUp m := by
      rw [← moved, State.updBranch_br_ne _ _ _ (Ne.symm distinct), State.updBranch_br_same]
    have target : u.br j = (s.br j).takeOver m := by
      rw [← moved, State.updBranch_br_same, State.updBranch_br_ne _ _ _ distinct]
    have others : ∀ c, c ≠ i → c ≠ j → u.br c = s.br c := fun c notI notJ => by
      rw [← moved, State.updBranch_br_ne _ _ _ (Ne.symm notJ), State.updBranch_br_ne _ _ _ (Ne.symm notI)]
    have sum : grantSum u = grantSum s := by
      rw [← moved]
      exact transfer_grantSum distinct spare
    have bays : BaysOnly s u := by
      rw [← moved]
      exact (updBranch_baysOnly i _ s).trans (updBranch_baysOnly j _ _)
    have attn : u.attn = s.attn := by rw [← moved]; rfl
    split
    case isTrue told =>
      refine ⟨?_, ?_, fun c notI notJ => ?_, ?_, fun _ _ => ⟨fun o own => ?_, ?_⟩, fun few => absurd told (by omega),
        (bays.trans (raiseOwner_baysOnly i _ _ u)).trans (raiseOwner_baysOnly j _ _ _)⟩
      · rw [if_neg some, raiseOwner_br, raiseOwner_br, source]
      · rw [if_neg some, raiseOwner_br, raiseOwner_br, target]
      · rw [raiseOwner_br, raiseOwner_br, others c notI notJ]
      · rw [← sum]
        exact grantSum_congr fun b => by rw [raiseOwner_br, raiseOwner_br]
      · refine isPending_raiseOwner_of _ _ _ _ _ _ (isPending_raiseOwner i _ _ u o ?_)
        rw [source]
        exact own
      · refine toldOwner_raiseOwner ?_
        rw [raiseOwner_br, target]
        rfl
    case isFalse few =>
      exact ⟨by rw [if_neg some, source], by rw [if_neg some, target], others, sum, fun _ many => absurd many few,
        fun _ => attn, bays⟩

/-! ## SET_BRANCH (R12, R64, R65) -/

theorem exec_setBranch_of_handed {tier floor cap fopen : Nat} {hold : Bool}
    (h : Handed s supLine tag (.setBranch b tier floor cap fopen hold)) :
    exec .setBranch s = .next (startReply supLine Kind.setBranch.code tag .ok
      (setBranchReply (setLimits tier floor cap fopen) (limitsClamped (setLimits tier floor cap fopen) floor cap fopen) hold)
      (applySetBranch b (setLimits tier floor cap fopen) hold s)) := by
  simp only [exec, execSetBranch, h]

@[simp] theorem raiseGrantChanged_br (b c : BranchNo) (old : Nat) (s : State) :
    (raiseGrantChanged b old s).br c = s.br c := by
  unfold raiseGrantChanged
  split
  · exact raiseOwner_br ..
  · rfl

theorem raiseGrantChanged_baysOnly (b : BranchNo) (old : Nat) (s : State) : BaysOnly s (raiseGrantChanged b old s) := by
  unfold raiseGrantChanged
  split
  · exact raiseOwner_baysOnly ..
  · exact .refl s

theorem BaysOnly.params (h : BaysOnly s t) : t.params = s.params := by
  obtain ⟨_, _, rfl⟩ := h
  rfl

theorem startsSettle_iff (br : Branch) (hold : Bool) : startsSettle br hold = true ↔
    br.dock = .held ∧ br.hold = true ∧ hold = false ∧ br.clearance = false ∧ br.dockTimer = none := by
  simp [startsSettle, and_assoc]

theorem setHold_attn (b : BranchNo) (hold : Bool) (s : State) : (setHold b hold s).attn = s.attn := by
  unfold setHold
  dsimp only
  split
  · split
    · exact gate_attn ..
    · rfl
  · rfl

theorem setHold_baysOnly (b : BranchNo) (hold : Bool) (s : State) : BaysOnly s (setHold b hold s) := by
  have set := updBranch_baysOnly b (fun br => { br with hold := hold }) s
  unfold setHold
  dsimp only
  split
  · split
    · exact (set.trans (updBranch_baysOnly b _ _)).trans (gate_baysOnly b _)
    · exact set.trans (updBranch_baysOnly b _ _)
  · exact set

theorem setHold_others (b : BranchNo) (hold : Bool) (s : State) : OthersKept s (setHold b hold s) b := by
  intro c other
  unfold setHold
  dsimp only
  split
  · split
    · rw [gate_br_ne b _ (Ne.symm other), State.updBranch_br_ne _ _ _ (Ne.symm other),
        State.updBranch_br_ne _ _ _ (Ne.symm other)]
    · rw [State.updBranch_br_ne _ _ _ (Ne.symm other), State.updBranch_br_ne _ _ _ (Ne.symm other)]
  · rw [State.updBranch_br_ne _ _ _ (Ne.symm other)]

theorem setHold_br_of_stays {hold : Bool} (h : ¬startsSettle (s.br b) hold = true) :
    (setHold b hold s).br b = { s.br b with hold := hold } := by
  simp [setHold, h]

theorem setHold_br_of_settles {hold : Bool} (h : startsSettle (s.br b) hold = true) (settle : s.params.seatSettle ≠ 0) :
    (setHold b hold s).br b =
      { s.br b with hold := hold, dockTimer := some (s.params.seatSettle * 1000) } := by
  simp [setHold, h, settle]

/-- R12: at a Seat Settle of 0 the clearance is set at once, and the bay may prime. -/
theorem setHold_br_of_gate {hold : Bool} (h : startsSettle (s.br b) hold = true) (settle : s.params.seatSettle = 0) :
    (setHold b hold s).br b = { s.br b with hold := hold, clearance := true } ∨
      (setHold b hold s).br b = Branch.toPriming s.params { s.br b with hold := hold, clearance := true } := by
  unfold setHold
  dsimp only
  rw [if_pos h, if_pos settle]
  obtain stays | ⟨-, primes⟩ := gate_eq b
    ((s.updBranch b fun br => { br with hold := hold }).updBranch b fun br => { br with clearance := true })
  · rw [stays]
    exact .inl (by simp)
  · rw [primes]
    exact .inr (by simp)

/-- R12, R64, R65: the limits, the hold, the request and the grant that a SET_BRANCH leaves. -/
structure SetWith (v : Limits) (hold : Bool) (request grant : Nat) (y : Branch) : Prop where
  tier : y.tier = v.tier
  floor : y.floor = v.floor
  cap : y.cap = v.cap
  fopen : y.fopen = v.fopen
  hold : y.hold = hold
  request : y.request = request
  restricted : y.restricted = none
  takeUp : y.takeUp = 0
  grant : y.grant = grant

/-- The branch as `setTo` leaves it, with the hold. -/
theorem setWith_setTo (p : Nat) (v : Limits) (hold : Bool) (x : Branch) :
    SetWith v hold (clampNat v.floor v.cap x.request) (loweredGrant p v.cap x) { x.setTo p v with hold := hold } :=
  ⟨rfl, rfl, rfl, rfl, rfl, rfl, rfl, rfl, rfl⟩

theorem SetWith.toPriming {v : Limits} {hold : Bool} {request grant : Nat} {y : Branch} (p : Params)
    (h : SetWith v hold request grant y) (held : y.dock = .held) : SetWith v hold request grant (y.toPriming p) := by
  obtain ⟨tier, floor, cap, fopen, hold, request, restricted, takeUp, grant⟩ := h
  refine ⟨tier, floor, cap, fopen, hold, request, restricted, takeUp, ?_⟩
  simp only [Branch.toPriming, Branch.redrive_grant]
  rw [if_neg (by rw [held]; decide)]
  exact grant

/-- The state that a SET_BRANCH has set its limits in. -/
def limitsSet (b : BranchNo) (v : Limits) (s : State) : State :=
  raiseGrantChanged b (s.br b).grant (s.updBranch b (Branch.setTo s.params.primeFlow v))

theorem applySetBranch_eq (b : BranchNo) (v : Limits) (hold : Bool) (s : State) :
    applySetBranch b v hold s = setHold b hold (limitsSet b v s) := rfl

theorem limitsSet_br (b : BranchNo) (v : Limits) (s : State) :
    (limitsSet b v s).br b = (s.br b).setTo s.params.primeFlow v := by simp [limitsSet]

theorem limitsSet_baysOnly (b : BranchNo) (v : Limits) (s : State) : BaysOnly s (limitsSet b v s) :=
  (updBranch_baysOnly b _ s).trans (raiseGrantChanged_baysOnly b _ _)

theorem startsSettle_limitsSet (b : BranchNo) (v : Limits) (hold : Bool) (s : State) :
    startsSettle ((limitsSet b v s).br b) hold = startsSettle (s.br b) hold := by
  rw [limitsSet_br]
  rfl

theorem applySetBranch_setWith (b : BranchNo) (v : Limits) (hold : Bool) (s : State) :
    SetWith v hold (clampNat v.floor v.cap (s.br b).request) (loweredGrant s.params.primeFlow v.cap (s.br b))
      ((applySetBranch b v hold s).br b) := by
  have set := setWith_setTo s.params.primeFlow v hold (s.br b)
  rw [applySetBranch_eq]
  by_cases settles : startsSettle ((limitsSet b v s).br b) hold = true
  · by_cases settle : (limitsSet b v s).params.seatSettle = 0
    · rcases setHold_br_of_gate settles settle with stays | primes
      · rw [stays, limitsSet_br]
        obtain ⟨tier, floor, cap, fopen, hold, request, restricted, takeUp, grant⟩ := set
        exact ⟨tier, floor, cap, fopen, hold, request, restricted, takeUp, grant⟩
      · rw [primes, limitsSet_br]
        refine SetWith.toPriming _ ?_ ?_
        · obtain ⟨tier, floor, cap, fopen, hold, request, restricted, takeUp, grant⟩ := set
          exact ⟨tier, floor, cap, fopen, hold, request, restricted, takeUp, grant⟩
        · rw [startsSettle_limitsSet, startsSettle_iff] at settles
          exact settles.1
    · rw [setHold_br_of_settles settles settle, limitsSet_br]
      obtain ⟨tier, floor, cap, fopen, hold, request, restricted, takeUp, grant⟩ := set
      exact ⟨tier, floor, cap, fopen, hold, request, restricted, takeUp, grant⟩
  · rw [setHold_br_of_stays settles, limitsSet_br]
    exact set

theorem limitsSet_others (b : BranchNo) (v : Limits) (s : State) : OthersKept s (limitsSet b v s) b := fun c other => by
  rw [limitsSet, raiseGrantChanged_br, State.updBranch_br_ne _ _ _ (Ne.symm other)]

theorem loweredGrant_le (p cap : Nat) (x : Branch) : loweredGrant p cap x ≤ x.grant := by
  unfold loweredGrant
  split <;> omega

/-- R65: GRANT_CHANGED for a grant lowered by q or more. -/
theorem limitsSet_attn (b : BranchNo) (v : Limits) (s : State) : let fall := (s.br b).grant - loweredGrant s.params.primeFlow v.cap (s.br b)
    (fall < s.params.quantum → (limitsSet b v s).attn = s.attn) ∧
      (s.params.quantum ≤ fall → ToldOwner s (limitsSet b v s) b .grantChanged) := by
  have le := loweredGrant_le s.params.primeFlow v.cap (s.br b)
  have moved : movedBy s.params.quantum (s.br b).grant (loweredGrant s.params.primeFlow v.cap (s.br b)) =
      decide (s.params.quantum ≤ (s.br b).grant - loweredGrant s.params.primeFlow v.cap (s.br b)) := by
    rw [movedBy, Nat.sub_eq_zero_of_le le, Nat.zero_add]
  have set : limitsSet b v s = if s.params.quantum ≤ (s.br b).grant - loweredGrant s.params.primeFlow v.cap (s.br b) then
      raiseOwner b .grantChanged [] (s.updBranch b (Branch.setTo s.params.primeFlow v))
      else s.updBranch b (Branch.setTo s.params.primeFlow v) := by
    unfold limitsSet raiseGrantChanged
    rw [State.updBranch_br_same]
    change (if movedBy s.params.quantum (s.br b).grant (loweredGrant s.params.primeFlow v.cap (s.br b)) = true then _ else _) = _
    rw [moved]
    simp only [decide_eq_true_eq]
  refine ⟨fun few => ?_, fun many => ?_⟩
  · rw [set, if_neg (by omega)]
    rfl
  · rw [set, if_pos many]
    exact toldOwner_raiseOwner (by rw [State.updBranch_br_same]; rfl)

/-! ## RELEASE and ADMIT (1.6) -/

theorem exec_release_of_handed (h : Handed s l tag (.release b)) :
    exec (.release l) s = .next (replyDock l .release tag (releaseStatus (s.br b).dock) b (releaseBay b s)) := by
  simp only [exec, execRelease, h]

theorem exec_admitBay_of_handed (h : Handed s supLine tag (.admitBay b)) :
    exec .admitBay s = .next (replyDock supLine .admitBay tag (admitStatus (s.br b).dock) b (admitEffect b s)) := by
  simp only [exec, execAdmitBay, h]

theorem releaseBay_of_shut (h : (s.br b).dock.participating = true) :
    releaseBay b s = s.updBranch b (Branch.toReleasing s.params) := by
  unfold releaseBay
  cases dock : (s.br b).dock <;> simp_all [DockState.participating]

theorem setLimits_eq (tier floor cap fopen : Nat) : setLimits tier floor cap fopen =
    ⟨if tier = 0 then 0 else 1, min (max 100 (min 4000 cap)) (min 1000 floor), max 100 (min 4000 cap),
      max 100 (min 4000 fopen)⟩ := by
  simp [setLimits, clampNat]

/-- R64: the reply of SET_BRANCH, spelled out. -/
theorem setBranchReply_eq (v : Limits) (floor cap fopen : Nat) (hold : Bool) :
    setBranchReply v (limitsClamped v floor cap fopen) hold =
      (if v.floor = floor ∧ v.cap = cap ∧ v.fopen = fopen then 0 else 1) :: octet v.tier :: (toOctets 2 v.floor ++
        toOctets 2 v.cap ++ toOctets 2 v.fopen ++ [if hold = true then 1 else 0]) := by
  have flag : clampedFlag (limitsClamped v floor cap fopen) =
      if v.floor = floor ∧ v.cap = cap ∧ v.fopen = fopen then 0 else 1 := by
    by_cases same : v.floor = floor ∧ v.cap = cap ∧ v.fopen = fopen
    · obtain ⟨rfl, rfl, rfl⟩ := id same
      simp [limitsClamped, clampedFlag, flagBit, octet]
    · have clamped : limitsClamped v floor cap fopen = true := by
        simp only [limitsClamped, Bool.or_eq_true, bne_iff_ne]
        tauto
      rw [if_neg same, clamped]
      rfl
  rw [setBranchReply, flag]
  cases hold <;> rfl

/-! ## The admission gate (R13) -/

theorem gateOpen_iff_mayPrime (held : (s.br b).dock = .held) (clear : (s.br b).clearance = true) :
    gateOpen s b = true ↔ MayPrime s b := by
  have thaw : frozen s = false ↔ ¬AdmissionsFrozen s := by rw [← frozen_iff, Bool.not_eq_true]
  simp only [gateOpen, MayPrime, ← thaw, held, clear, Bool.and_eq_true, decide_eq_true_eq, List.isEmpty_iff, Bool.not_eq_true',
    and_assoc, true_and]

theorem gate_of_mayPrime (held : (s.br b).dock = .held) (clear : (s.br b).clearance = true) (may : MayPrime s b) :
    gate b s = s.updBranch b (Branch.toPriming s.params) := by
  rw [gate, if_pos ((gateOpen_iff_mayPrime held clear).2 may), enterPriming]

theorem gate_of_not_mayPrime (held : (s.br b).dock = .held) (clear : (s.br b).clearance = true) (mayNot : ¬MayPrime s b) :
    gate b s = s := by
  rw [gate, if_neg fun opens => mayNot ((gateOpen_iff_mayPrime held clear).1 opens)]

/-- R118: the freeze hangs on which bays are VACANT and on the strips. -/
theorem admissionsFrozen_congr (docks : ∀ c, (t.br c).dock = .vacant ↔ (s.br c).dock = .vacant)
    (strips : ∀ n, (t.strip n).state = (s.strip n).state) : AdmissionsFrozen t ↔ AdmissionsFrozen s := by
  simp only [AdmissionsFrozen, CommonRole, docks, strips]

/-- R13: a bay brought to HELD, with the terms of the gate as before, may prime exactly when it might before. -/
theorem mayPrime_updBranch {f : Branch → Branch} (vacant : (f (s.br b)).dock = .vacant ↔ (s.br b).dock = .vacant)
    (causes : (f (s.br b)).causes = (s.br b).causes) : MayPrime (s.updBranch b f) b ↔ MayPrime s b := by
  have same : AdmissionsFrozen (s.updBranch b f) ↔ AdmissionsFrozen s := by
    refine admissionsFrozen_congr (fun c => ?_) fun _ => rfl
    by_cases here : b = c
    · subst here
      rwa [State.updBranch_br_same]
    · rw [State.updBranch_br_ne _ _ _ here]
  simp only [MayPrime, same, State.updBranch_br_same, causes]
  rfl

theorem Branch.toPriming_of_held (p : Params) {x : Branch} (held : x.dock = .held) :
    (x.toPriming p).dock = .priming ∧ (x.toPriming p).dockTimer = some (p.primeTimeout * 1000) ∧
      (x.toPriming p).primeGood = 0 ∧ (x.toPriming p).clearance = false ∧ (x.toPriming p).trim = 0 ∧
      (x.toPriming p).account = Account.zero ∧ (x.toPriming p).grant = x.grant := by
  refine ⟨rfl, rfl, rfl, rfl, ?_, rfl, ?_⟩
  · simp only [Branch.toPriming, Branch.redrive]
    exact ite_self 0
  · simp only [Branch.toPriming, Branch.redrive_grant]
    rw [if_neg (by rw [held]; decide)]

/-- R12, R13, R24: a bay brought to HELD with its clearance set, and tested at the gate. -/
theorem gate_admitted {f : Branch → Branch} (vacant : (s.br b).dock ≠ .vacant) (held : (f (s.br b)).dock = .held)
    (clear : (f (s.br b)).clearance = true) (timer : (f (s.br b)).dockTimer = none)
    (causes : (f (s.br b)).causes = (s.br b).causes) (grant : (f (s.br b)).grant = (s.br b).grant) :
    (MayPrime s b → EntersPriming s (gate b (s.updBranch b f)) b) ∧
      (¬MayPrime s b → ((gate b (s.updBranch b f)).br b).dock = .held ∧
        ((gate b (s.updBranch b f)).br b).clearance = true ∧ ((gate b (s.updBranch b f)).br b).dockTimer = none ∧
        ((gate b (s.updBranch b f)).br b).grant = (s.br b).grant) := by
  have held' : ((s.updBranch b f).br b).dock = .held := by rwa [State.updBranch_br_same]
  have clear' : ((s.updBranch b f).br b).clearance = true := by rwa [State.updBranch_br_same]
  have same : MayPrime (s.updBranch b f) b ↔ MayPrime s b :=
    mayPrime_updBranch ⟨fun e => absurd (held.symm.trans e) (by decide), fun e => absurd e vacant⟩ causes
  refine ⟨fun may => ?_, fun mayNot => ?_⟩
  · rw [gate_of_mayPrime held' clear' (same.2 may), EntersPriming, State.updBranch_br_same, State.updBranch_br_same, ← grant]
    exact Branch.toPriming_of_held s.params held
  · rw [gate_of_not_mayPrime held' clear' fun may => mayNot (same.1 may), State.updBranch_br_same]
    exact ⟨held, clear, timer, grant⟩

theorem gate_kept (b c : BranchNo) (s : State) : ((gate b s).br c).causes = (s.br c).causes ∧
    ((gate b s).br c).hold = (s.br c).hold ∧ ((gate b s).br c).request = (s.br c).request := by
  obtain stays | ⟨-, primes⟩ := gate_eq b s
  · rw [stays]
    exact ⟨rfl, rfl, rfl⟩
  · rw [primes]
    by_cases same : b = c
    · subst same
      rw [State.updBranch_br_same]
      exact ⟨rfl, rfl, rfl⟩
    · rw [State.updBranch_br_ne _ _ _ same]
      exact ⟨rfl, rfl, rfl⟩

theorem admitEffect_of_pullReady (h : (s.br b).dock = .pullReady) :
    admitEffect b s = gate b (s.updBranch b (Branch.toHeld s.params.seatSettle true)) := by
  simp [admitEffect, h, enterHeld, Branch.toHeld]

theorem admitEffect_of_held (h : (s.br b).dock = .held) (hold : (s.br b).hold = true) (clear : (s.br b).clearance = false) :
    admitEffect b s = gate b (s.updBranch b fun br => { br with clearance := true, dockTimer := none }) := by
  simp [admitEffect, h, hold, clear]

end

/-- Settles O21, by the two answers of R63. -/
theorem flowRequestStoresTheClampedValue : Obligations.FlowRequestStoresTheClampedValue := by
  intro s l tag b flow handed
  rw [exec_flowRequest_of_handed handed]
  refine ⟨fun stored => ?_, fun refused => ?_⟩
  · rw [serveFlowRequest, if_pos ((storesRequest_iff _).2 stored), startReply_eq_replied, clampedFlag_ne]
    rfl
  · rw [serveFlowRequest, if_neg fun stores => refused ((storesRequest_iff _).1 stores), startReply_eq_replied]
    rfl

/-- Settles O22, from what a transfer of `m` leaves. -/
theorem transferMovesGrantAndRequest : Obligations.TransferMovesGrantAndRequest := by
  intro s l tag i j x handed
  rw [exec_transfer_of_handed handed]
  refine ⟨fun refused => ?_, fun same admitted => ?_, fun distinct hi hj => ?_⟩
  · rw [serveTransfer_of_not_admitted refused, startReply_eq_replied]
    rfl
  · subst same
    rw [serveTransfer_of_admitted admitted admitted, transferAmount, if_pos rfl, startReply_eq_replied]
    rfl
  · rw [serveTransfer_of_admitted hi hj, transferAmount, if_neg distinct]
    dsimp only
    generalize hm : min x (min ((s.br i).grant - (s.br i).floor) ((s.br j).cap - (s.br j).grant)) = m
    have moved := applyTransfer_transferred (s := s) (i := i) (j := j) (m := m) distinct (by omega)
    obtain ⟨source, target, others, sum, told, quiet, frame⟩ := moved
    refine ⟨_, rfl, startReply_replies frame.lines l _ tag .ok _, ?_, ?_, sum, ?_, ?_, fun some => ?_, fun c => ?_, others,
      told, quiet, frame.replied ..⟩
    all_goals simp only [startReply_br]
    · rw [source]
      split
      · omega
      · rfl
    · rw [target]
      split
      · omega
      · rfl
    · rw [source]
      split <;> rfl
    · rw [target]
      split <;> rfl
    · rw [source, target, if_neg some.ne', if_neg some.ne']
      exact ⟨(Branch.redrive_driven _).1, (Branch.redrive_driven _).1⟩
    · by_cases isI : c = i
      · subst isI
        rw [source]
        split <;> rfl
      · by_cases isJ : c = j
        · subst isJ
          rw [target]
          split <;> rfl
        · rw [others c isI isJ]

/-- Settles O23, from the limits set and the hold. -/
theorem setBranchSetsTheLiveLimits : Obligations.SetBranchSetsTheLiveLimits := by
  intro s tag b tier floor cap fopen hold handed
  rw [exec_setBranch_of_handed handed, setBranchReply_eq]
  obtain ⟨v, hv⟩ : ∃ v, setLimits tier floor cap fopen = v := ⟨_, rfl⟩
  have values := (setLimits_eq tier floor cap fopen).symm.trans hv
  have hfloor : min (max 100 (min 4000 cap)) (min 1000 floor) = v.floor := congrArg Limits.floor values
  have hcap : max 100 (min 4000 cap) = v.cap := congrArg Limits.cap values
  have hfopen : max 100 (min 4000 fopen) = v.fopen := congrArg Limits.fopen values
  have htier : (if tier = 0 then 0 else 1) = v.tier := congrArg Limits.tier values
  dsimp only
  rw [hv, hfloor, hcap, hfopen, htier]
  have set := applySetBranch_setWith b v hold s
  have attn := limitsSet_attn b v s
  have settles := startsSettle_iff (s.br b) hold
  rw [← startsSettle_limitsSet b v hold s] at settles
  have params := (limitsSet_baysOnly b v s).params
  have frame : BaysOnly s (applySetBranch b v hold s) := (limitsSet_baysOnly b v s).trans (setHold_baysOnly b hold _)
  have same : (applySetBranch b v hold s).attn = (limitsSet b v s).attn := setHold_attn ..
  refine ⟨_, rfl, startReply_replies frame.lines supLine _ tag .ok _, ?_, fun dock => ?_, fun start settle => ?_,
    fun stays => ?_, fun few => ?_, fun _ many => ?_, fun c other => ?_, frame.replied ..⟩
  · obtain ⟨tier, floor, cap, fopen, hold, request, restricted, takeUp, grant⟩ := set
    simp only [startReply_br]
    have named : ∀ (y : Branch) {tier floor cap fopen hold request restricted takeUp grant}, y.tier = tier → y.floor = floor →
        y.cap = cap → y.fopen = fopen → y.hold = hold → y.request = request → y.restricted = restricted →
        y.takeUp = takeUp → y.grant = grant → y = { y with
          tier := tier, floor := floor, cap := cap, fopen := fopen, hold := hold, request := request
          restricted := restricted, takeUp := takeUp, grant := grant } := by
      rintro y _ _ _ _ _ _ _ _ _ rfl rfl rfl rfl rfl rfl rfl rfl rfl
      rfl
    exact named _ tier floor cap fopen hold request restricted takeUp grant
  · simp only [startReply_br]
    rw [applySetBranch_eq, setHold_br_of_stays fun start => dock (settles.1 start).1, limitsSet_br]
    exact ⟨rfl, (Branch.redrive_driven _).1⟩
  · simp only [startReply_br]
    rw [applySetBranch_eq, setHold_br_of_settles (settles.2 start) (by rwa [params]), limitsSet_br, params]
    exact ⟨start.1, rfl, start.2.2.2.1⟩
  · simp only [startReply_br]
    rw [applySetBranch_eq, setHold_br_of_stays fun start => stays (settles.1 start), limitsSet_br]
    exact ⟨rfl, rfl, rfl⟩
  · rw [startReply_attn, same]
    exact attn.1 few
  · intro o own
    rw [startReply_attnOf, State.attnOf, same]
    exact attn.2 many o own
  · rw [startReply_br, applySetBranch_eq, setHold_others b hold _ c other, limitsSet_others b _ s c other]

/-- Settles O26, by the table of 1.6. -/
theorem releaseFollowsTheDockStateTable : Obligations.ReleaseFollowsTheDockStateTable := by
  intro s l tag b handed
  rw [exec_release_of_handed handed]
  refine ⟨fun dock => ?_, fun dock => ?_, fun dock => ?_, fun dock => ?_⟩
  · have refused : releaseBay b s = s ∧ releaseStatus (s.br b).dock = .notServed := by
      simp only [List.mem_cons, List.not_mem_nil, or_false] at dock
      rcases dock with e | e | e <;> exact ⟨by simp [releaseBay, e], by rw [e]; rfl⟩
    rw [refused.1, refused.2, replyDock, startReply_eq_replied]
    rfl
  · have idle : releaseBay b s = s ∧ releaseStatus (s.br b).dock = .ok := by
      simp only [List.mem_cons, List.not_mem_nil, or_false] at dock
      rcases dock with e | e | e <;> exact ⟨by simp [releaseBay, e], by rw [e]; rfl⟩
    rw [idle.1, idle.2, replyDock, startReply_eq_replied]
    rfl
  · have shut : releaseBay b s = s.updBranch b (Branch.toReleasing s.params) ∧ releaseStatus (s.br b).dock = .ok := by
      simp only [List.mem_cons, List.not_mem_nil, or_false] at dock
      rcases dock with e | e | e <;> exact ⟨by simp [releaseBay, e], by rw [e]; rfl⟩
    rw [shut.1, shut.2, replyDock]
    have code : (s.updBranch b (Branch.toReleasing s.params)).br b = (s.br b).toReleasing s.params :=
      State.updBranch_br_same ..
    rw [code]
    refine ⟨_, rfl, startReply_replies rfl l _ tag .ok _, ?_, fun c other => ?_,
      (updBranch_baysOnly b _ s).replied_of_attn rfl ..⟩
    · rw [startReply_br, code]
      rfl
    · rw [startReply_br, State.updBranch_br_ne _ _ _ (Ne.symm other)]
  · have ready : releaseBay b s = enterPullReady b s ∧ releaseStatus (s.br b).dock = .ok := by
      simp only [List.mem_cons, List.not_mem_nil, or_false] at dock
      rcases dock with e | e <;> exact ⟨by simp [releaseBay, e], by rw [e]; rfl⟩
    have entered : (enterPullReady b s).br b = (s.br b).toPullReady := by
      rw [enterPullReady, raiseOwner_br, State.updBranch_br_same]
    have frame : BaysOnly s (enterPullReady b s) := (updBranch_baysOnly b _ s).trans (raiseOwner_baysOnly ..)
    rw [ready.1, ready.2, replyDock, entered]
    refine ⟨_, rfl, startReply_replies frame.lines l _ tag .ok _, ?_, ?_, fun c other => ?_, frame.replied ..⟩
    · rw [startReply_br, entered]
      rfl
    · exact toldOwner_raiseOwner (u := s.updBranch b Branch.toPullReady) (by rw [State.updBranch_br_same]; rfl)
    · rw [startReply_br, enterPullReady, raiseOwner_br, State.updBranch_br_ne _ _ _ (Ne.symm other)]

/-- Settles O27: both admissions are a bay brought to HELD and tested at the gate. -/
theorem admitClearsAHeldBay : Obligations.AdmitClearsAHeldBay := by
  intro s tag b handed
  rw [exec_admitBay_of_handed handed]
  refine ⟨fun admits => ?_, fun held idle => ?_, fun notHeld notReady => ?_⟩
  · have status : admitStatus (s.br b).dock = .ok := by
      rcases admits with e | ⟨e, -⟩ <;> rw [e] <;> rfl
    obtain ⟨f, effect, dock, clear, timer, causes, grant, hold, request⟩ : ∃ f : Branch → Branch,
        admitEffect b s = gate b (s.updBranch b f) ∧ (f (s.br b)).dock = .held ∧ (f (s.br b)).clearance = true ∧
          (f (s.br b)).dockTimer = none ∧ (f (s.br b)).causes = (s.br b).causes ∧ (f (s.br b)).grant = (s.br b).grant ∧
          (f (s.br b)).hold = (s.br b).hold ∧ (f (s.br b)).request = (s.br b).request := by
      rcases admits with ready | ⟨held, hold, clear⟩
      · exact ⟨_, admitEffect_of_pullReady ready, rfl, rfl, rfl, rfl, rfl, rfl, rfl⟩
      · exact ⟨_, admitEffect_of_held held hold clear, held, rfl, rfl, rfl, rfl, rfl, rfl⟩
    have vacant : (s.br b).dock ≠ .vacant := by
      rcases admits with e | ⟨e, -⟩ <;> rw [e] <;> decide
    have admitted := gate_admitted vacant dock clear timer causes grant
    have kept := gate_kept b b (s.updBranch b f)
    rw [State.updBranch_br_same] at kept
    have frame : BaysOnly s (gate b (s.updBranch b f)) := (updBranch_baysOnly b f s).trans (gate_baysOnly b _)
    rw [status, effect, replyDock]
    refine ⟨_, rfl, startReply_replies frame.lines supLine _ tag .ok _, admitted.1, admitted.2, kept.1.trans causes,
      kept.2.1.trans hold, kept.2.2.trans request, fun c other => ?_, frame.replied_of_attn (gate_attn ..) ..⟩
    rw [startReply_br, gate_br_ne b _ (Ne.symm other), State.updBranch_br_ne _ _ _ (Ne.symm other)]
  · have effect : admitEffect b s = s := by
      rcases idle with e | e <;> simp [admitEffect, held, e]
    rw [effect, replyDock, held, startReply_eq_replied]
    rfl
  · have effect : admitEffect b s = s ∧ admitStatus (s.br b).dock = .notServed := by
      unfold admitEffect
      cases e : (s.br b).dock <;> simp_all [admitStatus]
    rw [effect.1, effect.2, replyDock, startReply_eq_replied]
    rfl

end Sys2Proof.Machine
end

section
/-! PROOF. The fields of a reply by their offsets, and the replies that report the Allocator, the meters and the Incident
Ring (O25, O37, O38). -/

namespace Sys2Proof.Machine

open Sys2Proof Sys2Proof.Safety

/-! ## A field of a reply by its offset -/

/-- A number that begins past a run of octets is read from what follows the run. -/
theorem numberAt_append_past {xs : List Byte} {i : Nat} (past : xs.length ≤ i) (ys : List Byte) (k : Nat) :
    numberAt (xs ++ ys) i k = numberAt ys (i - xs.length) k := by
  rw [← numberAt_append_right xs ys, Nat.add_sub_cancel' past]

/-- A number written last reads back too. -/
theorem numberAt_toOctets_last (k n : Nat) : numberAt (toOctets k n) 0 k = n % 256 ^ k := by
  simpa using numberAt_toOctets k n []

/-- A field of one octet. -/
theorem numberAt_octet (n : Nat) (ys : List Byte) : numberAt (octet n :: ys) 0 1 = n % 256 := by
  rw [numberAt_one, octetAt_cons_zero, octet_toNat]

theorem flagBit_mod (b : Bool) {n : Nat} (low : n < 8) : flagBit b n % 256 = flagBit b n := by
  refine Nat.mod_eq_of_lt ?_
  have : 2 ^ n < 2 ^ 8 := Nat.pow_lt_pow_right (by decide) low
  unfold flagBit
  split <;> omega

theorem railStateCode_mod (r : RailState) : r.code % 256 = r.code := by cases r <;> rfl

theorem ageStateCode_mod (a : AgeState) : a.code % 256 = a.code := by cases a <;> rfl

theorem branchNo_mod (b : BranchNo) : b.val % 256 = b.val := Nat.mod_eq_of_lt (by omega)

theorem wordToNat_mod (x : BitVec 16) : x.toNat % 65536 = x.toNat := Nat.mod_eq_of_lt x.isLt

/-! ## READ_ROUND and READ_DEMAND (R61, R71) -/

section
variable {s : State} {l : LineNo} {tag : Byte}

theorem exec_readRound_of_handed (h : Handed s l tag .readRound) :
    exec (.readRound l) s = .next (startReply l Kind.readRound.code tag .ok (roundReply s.alloc.round) s) := by
  simp only [exec, execReadRound, h]

theorem exec_readDemand_of_handed (h : Handed s l tag .readDemand) :
    exec (.readDemand l) s = .next (startReply l Kind.readDemand.code tag .ok (demandReply s) (noteDemand l s)) := by
  simp only [exec, execReadDemand, h]

theorem noteDemand_eq (l : LineNo) (s : State) : noteDemand l s = { s with alloc := { s.alloc with
    reportedDemand := if l = plantLine then requestSum s else s.alloc.reportedDemand } } := by
  unfold noteDemand
  split <;> rfl

/-- Settles O25: each field is read past those before it. -/
theorem roundAndDemandReadsReportTheAllocator : Obligations.RoundAndDemandReadsReportTheAllocator := by
  unfold Obligations.RoundAndDemandReadsReportTheAllocator
  refine fun s l tag => ⟨fun handed => ⟨roundReply s.alloc.round, exec_readRound_of_handed handed, ?_⟩,
    fun handed => ⟨demandReply s, ?_, ?_⟩⟩
  · simp [roundReply, numberAt_append_past, numberAt_toOctets, numberAt_cons_succ, numberAt_octet, flagBit_mod,
      branchNo_mod, wordToNat_mod]
    simp [flagBit]
  · rw [exec_readDemand_of_handed handed, noteDemand_eq]
    rfl
  · simp [demandReply, numberAt_append_past, numberAt_toOctets, numberAt_cons_succ, numberAt_octet, numberAt_toOctetsInt,
      railStateCode_mod, ageStateCode_mod, rateSum, reportedShortfall]

end

/-! ## TAKE_INCIDENT (R151) -/

section
variable {s : State} {tag : Byte} {n : Nat}

theorem exec_takeIncident_of_handed (h : Handed s supLine tag (.takeIncident n)) :
    exec .takeIncident s = .next (serveTakeIncident tag n s) := by
  simp only [exec, execTakeIncident, h]

theorem slotOf_val (k : SlotNo) : slotOf k.val = some k := by simp [slotOf, k.isLt]

theorem slotOf_beyond (h : 15 < n) : slotOf n = none := dif_neg (by omega)

theorem causeOctets_length (cs : List Cause) : (causeOctets cs).length = 9 := by simp [causeOctets]

theorem causeCode_mod (c : Cause) : c.code % 256 = c.code := by
  obtain c | c := c <;> cases c <;> rfl

theorem slotStateCode_mod (x : SlotState) : x.code % 256 = x.code := by cases x <;> rfl

theorem slotNo_mod (k : SlotNo) : k.val % 256 = k.val := Nat.mod_eq_of_lt (by omega)

/-- A cause octet is the code of the cause added at that place, and 0xFF where there is none. -/
theorem numberAt_causeOctets (cs : List Cause) (ys : List Byte) {i : Nat} (within : i < 9) :
    numberAt (causeOctets cs ++ ys) i 1 = match cs[i]? with | none => 0xFF | some c => c.code := by
  have inside : i < (causeOctets cs).length := by rwa [causeOctets_length]
  rw [numberAt_one, octetAt, List.getD_eq_getElem?_getD, List.getElem?_append_left inside, causeOctets,
    List.getElem?_take_of_lt within]
  by_cases there : i < cs.length
  · simp [List.getElem?_append_left, there, causeCode_mod]
  · have blank : (List.replicate 9 (0xFF : Byte))[i - cs.length]? = some 0xFF :=
      List.getElem?_replicate_of_lt (by omega)
    rw [List.getElem?_append_right (by simpa using there), List.length_map, blank, List.getElem?_eq_none (by omega)]
    rfl

theorem slotFlags_mod (r : Slot) : r.flags % 256 = r.flags := by
  refine Nat.mod_eq_of_lt ?_
  simp only [Slot.flags, flagBit]
  split <;> split <;> split <;> split <;> split <;> decide

theorem targetOctet (t : Option Target) : orCode (t.map Target.code) 0xFE % 256 =
    match t with | none => 0xFE | some .rail => 0xFF | some (.branch b) => b.val := by
  obtain _ | b | _ := t
  · rfl
  · exact branchNo_mod b
  · rfl

theorem openingOctet (c : Option Cause) : orCode (c.map Cause.code) 0xFF % 256 =
    match c with | none => 0xFF | some c => c.code := by
  obtain _ | c := c
  · rfl
  · exact causeCode_mod c

theorem closingNumber (q : Option (BitVec 16)) : orCode (q.map (·.toNat)) 0 % 65536 =
    match q with | none => 0 | some q => q.toNat := by
  obtain _ | q := q
  · rfl
  · exact wordToNat_mod q

/-- Settles O38: each field of the record is read past those before it. -/
theorem takeIncidentReportsTheSlot : Obligations.TakeIncidentReportsTheSlot := by
  unfold Obligations.TakeIncidentReportsTheSlot
  refine fun s tag n handed => ⟨fun beyond => ?beyond, fun k named => ⟨incidentReply s k, ?answer, ?fields⟩⟩
  case beyond =>
    rw [exec_takeIncident_of_handed handed, serveTakeIncident, slotOf_beyond beyond]
    rfl
  case answer =>
    subst named
    rw [exec_takeIncident_of_handed handed, serveTakeIncident, slotOf_val]
    rfl
  case fields =>
    subst named
    refine ⟨?_, ?_, ?_, ?_, ?_, .trans ?_ (targetOctet _), .trans ?_ (openingOctet _), ?_, fun i within => ?_, ?_,
      .trans ?_ (closingNumber _), ?_, ?_, (?_ : _ = (s.slot k).flags)⟩
    case refine_9 =>
      simp only [incidentReply, Nat.add_comm 7 i, List.cons_append, List.nil_append, List.append_assoc,
        numberAt_cons_succ]
      exact numberAt_causeOctets _ _ within
    all_goals simp [incidentReply, logStateCode, numberAt_append_past, numberAt_toOctets, numberAt_cons_succ,
      numberAt_octet, causeOctets_length, slotNo_mod, slotStateCode_mod, wordToNat_mod, slotFlags_mod, flagBit_mod]
    simp [flagBit]

end

/-! ## READ_METERS (R42) -/

section
variable {s : State} {tag : Byte} {first count : Nat}

/-- Blocks of one length in a row: what is read at an offset within block `j` is read from that block on. -/
theorem numberAt_flatMap {α : Type} {f : α → List Byte} {width : Nat} (even : ∀ a, (f a).length = width) {xs : List α}
    {j : Nat} {a : α} (there : xs[j]? = some a) :
    ∃ ys, ∀ i k, numberAt (xs.flatMap f) (width * j + i) k = numberAt (f a ++ ys) i k := by
  refine ⟨(xs.drop (j + 1)).flatMap f, fun i k => ?_⟩
  obtain ⟨inside, rfl⟩ := List.getElem?_eq_some_iff.1 there
  have split : xs.flatMap f = (xs.take j).flatMap f ++ (f xs[j] ++ (xs.drop (j + 1)).flatMap f) := by
    rw [← List.flatMap_cons, ← List.drop_eq_getElem_cons inside, ← List.flatMap_append, List.take_append_drop]
  have before : ((xs.take j).flatMap f).length = width * j := by
    simp [List.length_flatMap, even, Nat.min_eq_left inside.le, Nat.mul_comm]
  rw [split, ← before, numberAt_append_right]

theorem exec_readMeters_of_handed (h : Handed s supLine tag (.readMeters first count)) :
    exec .readMeters s = .next (serveReadMeters tag first count s) := by
  simp only [exec, execReadMeters, h]

theorem channelOctets_length (s : State) (c : ChannelNo) : (channelOctets s c).length = 11 := by simp [channelOctets]

theorem channelsFrom_length (first count : Nat) : (channelsFrom first count).length = channelsReturned first count := by
  simp [channelsFrom, allChannels, channelsReturned]

theorem channelsFrom_at {c : ChannelNo} (from_ : first ≤ c.val) (upto : c.val < first + channelsReturned first count) :
    (channelsFrom first count)[c.val - first]? = some c := by
  have all : allChannels[c.val]? = some c := by fin_cases c <;> rfl
  rw [channelsFrom, List.getElem?_take_of_lt (by omega), List.getElem?_drop, Nat.add_sub_cancel' from_, all]

theorem channelsReturned_eq (first count : Nat) :
    channelsReturned first count = min (max 1 (min 4 count)) (26 - first) := rfl

theorem channelState_mod (qerr : (s.channel c).qerrRun ≤ 3) (clean : (s.channel c).cleanRun ≤ 15) :
    channelState s c % 65536 = (if (s.snapChannel c).qerr = true then 1 else 0) +
      (if (s.snapChannel c).overrange = true then 2 else 0) +
      (if (s.snapChannel c).health = .degraded then 4 else 0) + 8 * (s.channel c).qerrRun +
      32 * (s.channel c).cleanRun := by
  simp only [channelState, flagBit, decide_eq_true_eq]
  split <;> split <;> split <;> omega

/-- Settles O37: a channel's octets stand at eleven times its place among the channels returned. -/
theorem readMetersReportsTheSnapshot : Obligations.ReadMetersReportsTheSnapshot := by
  unfold Obligations.ReadMetersReportsTheSnapshot
  refine fun s tag first count handed => ⟨fun beyond => ?beyond, fun within =>
    ⟨octet (channelsReturned first count) :: toOctets 2 s.meter.snap.seq.toNat ++
      (channelsFrom first count).flatMap (channelOctets s), ?answer, ?_⟩⟩
  case beyond =>
    rw [exec_readMeters_of_handed handed, serveReadMeters, if_pos beyond]
    rfl
  case answer =>
    rw [exec_readMeters_of_handed handed, serveReadMeters, if_neg (by omega)]
    rfl
  dsimp only
  rw [← channelsReturned_eq]
  refine ⟨?_, ?_, ?_, fun c from_ upto => ?_⟩
  · simp [List.length_flatMap, channelOctets_length, channelsFrom_length]
    omega
  · have few : channelsReturned first count ≤ 4 := by rw [channelsReturned_eq]; omega
    simp [numberAt_octet]
    omega
  · simp [numberAt_cons_succ, numberAt_toOctets, wordToNat_mod]
  obtain ⟨ys, reads⟩ := numberAt_flatMap (channelOctets_length s) (channelsFrom_at from_ upto)
  have field : ∀ i k, numberAt (octet (channelsReturned first count) :: toOctets 2 s.meter.snap.seq.toNat ++
      (channelsFrom first count).flatMap (channelOctets s)) (3 + 11 * (c.val - first) + i) k =
        numberAt (channelOctets s c ++ ys) i k := by
    intro i k
    rw [← reads, Nat.add_assoc]
    exact numberAt_append_right (octet _ :: toOctets 2 _) _ _ _
  refine ⟨(congrArg _ (field 0 2)).trans ?_, (congrArg _ (field 2 3)).trans ?_, (congrArg _ (field 5 2)).trans ?_,
    (congrArg _ (field 7 2)).trans ?_, fun qerr clean => (field 9 2).trans ?_⟩
  · simp [channelOctets, numberAt_toOctetsInt]
  · simp [channelOctets, numberAt_append_past, numberAt_toOctetsInt]
  · simp [channelOctets, numberAt_append_past, numberAt_toOctetsInt]
  · simp [channelOctets, numberAt_append_past, numberAt_toOctetsInt]
  · rw [← channelState_mod qerr clean]
    simp [channelOctets, numberAt_append_past, numberAt_toOctets]

end
end Sys2Proof.Machine
end

section
/-! PROOF. What an allocation round spends, records and tells (O19), and the BUDGET that runs one (O24). -/

namespace Sys2Proof.Machine

open Sys2Proof Sys2Proof.Safety

/-! ## Causes raised one after the other -/

/-- A line's set has an entry of the cause with that key. -/
abbrev Noted (a : AttnLine) (c : AttnCause) (key : Nat) : Prop := ∃ e ∈ a.entries, e.cause = c ∧ e.key = key

theorem noted_addEntry (xs : List AttnEntry) (e : AttnEntry) (c : AttnCause) (key : Nat) :
    (∃ x ∈ addEntry xs e, x.cause = c ∧ x.key = key) ↔
      (∃ x ∈ xs, x.cause = c ∧ x.key = key) ∨ e.cause = c ∧ e.key = key := by
  induction xs with
  | nil => simp [addEntry]
  | cons x xs ih =>
    rw [addEntry]
    split
    case isTrue same =>
      have head : (x.merge e).cause = c ∧ (x.merge e).key = key ↔ x.cause = c ∧ x.key = key := Iff.rfl
      simp only [List.exists_mem_cons_iff, head, ← same.1, ← same.2]
      exact ⟨Or.inl, fun h => h.elim id Or.inl⟩
    case isFalse => simp only [List.exists_mem_cons_iff, ih, or_assoc]

/-- A raise adds an entry of its own cause and key alone, on its own line alone. -/
theorem noted_raise (l m : LineNo) (e : AttnEntry) (s : State) (c : AttnCause) (key : Nat) :
    Noted ((raise l e s).attnOf m) c key ↔ Noted (s.attnOf m) c key ∨ l = m ∧ e.cause = c ∧ e.key = key := by
  by_cases same : l = m
  · subst same
    simp [Noted, noted_addEntry]
  · simp [same]

/-- The state with causes raised in order, each on its line. -/
def tell (rs : List (LineNo × AttnEntry)) (s : State) : State := rs.foldl (fun u r => raise r.1 r.2 u) s

@[simp] theorem tell_nil (s : State) : tell [] s = s := rfl

theorem tell_cons (r : LineNo × AttnEntry) (rs : List (LineNo × AttnEntry)) (s : State) :
    tell (r :: rs) s = tell rs (raise r.1 r.2 s) := rfl

theorem tell_append (rs qs : List (LineNo × AttnEntry)) (s : State) : tell (rs ++ qs) s = tell qs (tell rs s) :=
  List.foldl_append ..

/-- Raising changes attention sets alone. -/
theorem tell_eq (rs : List (LineNo × AttnEntry)) (s : State) : tell rs s = { s with attn := (tell rs s).attn } := by
  induction rs generalizing s with
  | nil => rfl
  | cons r rs ih =>
    rw [tell_cons, ih]
    rfl

theorem noted_tell (rs : List (LineNo × AttnEntry)) (s : State) (m : LineNo) (c : AttnCause) (key : Nat) :
    Noted ((tell rs s).attnOf m) c key ↔
      Noted (s.attnOf m) c key ∨ ∃ r ∈ rs, r.1 = m ∧ r.2.cause = c ∧ r.2.key = key := by
  induction rs generalizing s with
  | nil => simp
  | cons r rs ih => rw [tell_cons, ih, noted_raise, List.exists_mem_cons_iff, or_assoc]

theorem isPending_tell (rs : List (LineNo × AttnEntry)) (s : State) (m : LineNo) (c : AttnCause) :
    isPending ((tell rs s).attnOf m) c = true ↔ isPending (s.attnOf m) c = true ∨ ∃ r ∈ rs, r.1 = m ∧ r.2.cause = c := by
  induction rs generalizing s with
  | nil => simp
  | cons r rs ih =>
    rw [tell_cons, ih, isPending_raise, List.exists_mem_cons_iff, Bool.or_eq_true, Bool.and_eq_true, decide_eq_true_iff,
      decide_eq_true_iff, or_assoc]

/-- The list of a cause that is not raised is as before, on every line. -/
theorem detailList_tell_ne {rs : List (LineNo × AttnEntry)} {c : AttnCause} (h : ∀ r ∈ rs, r.2.cause ≠ c) (s : State)
    (m : LineNo) : detailList ((tell rs s).attnOf m) c = detailList (s.attnOf m) c := by
  induction rs generalizing s with
  | nil => rfl
  | cons r rs ih =>
    rw [tell_cons, ih fun q hq => h q (List.mem_cons_of_mem r hq),
      detailList_raise_ne _ _ _ _ (h r List.mem_cons_self)]

/-- What raising a sled cause for a branch raises: nothing without an owner. -/
def ownerTells (s : State) (b : BranchNo) (c : SledCause) (xs : List BranchCause) : List (LineNo × AttnEntry) :=
  match (s.br b).owner with
  | none => []
  | some o => [(sledLine o, ⟨.sled c, localIndex s o b, xs, false⟩)]

theorem raiseOwner_eq_tell (b : BranchNo) (c : SledCause) (xs : List BranchCause) (s : State) :
    raiseOwner b c xs s = tell (ownerTells s b c xs) s := by
  cases owner : (s.br b).owner <;> simp only [raiseOwner, ownerTells, owner] <;> rfl

theorem mem_ownerTells {s : State} {b : BranchNo} {c : SledCause} {xs : List BranchCause} {r : LineNo × AttnEntry} :
    r ∈ ownerTells s b c xs ↔
      ∃ o, (s.br b).owner = some o ∧ r = (sledLine o, ⟨.sled c, localIndex s o b, xs, false⟩) := by
  cases owner : (s.br b).owner <;> simp [ownerTells, owner]

/-! ## What a round tells (R55, R60, R72) -/

section
variable {s : State} {b : BranchNo}

/-- R55: the round is short and the flag was clear. -/
def becomesShort (s : State) : Bool := (roundPlan s).short && !s.alloc.shortfall

/-- R60: the round moves the grant of a participant by q or more. -/
def grantMoves (s : State) (b : BranchNo) : Bool :=
  (s.br b).dock.participating && movedBy s.params.quantum (s.br b).grant (Vec.pick (roundPlan s).given b)

/-- R60: GRANT_CHANGED for a branch whose grant has moved. -/
def moveTells (s : State) (b : BranchNo) : List (LineNo × AttnEntry) :=
  if grantMoves s b then ownerTells s b .grantChanged [] else []

/-- R55: SHORTFALL on the plant line and on the supervisor line. -/
def shortTells (s : State) : List (LineNo × AttnEntry) :=
  if becomesShort s then [(plantLine, .of (.plant .shortfall) 0), (supLine, .of (.sup .shortfall) 0)] else []

/-- R55, R60, R72: all that a round raises, in order. -/
def roundTells (s : State) : List (LineNo × AttnEntry) :=
  shortTells s ++ allBranches.flatMap (moveTells s) ++
    if movedBy s.params.quantum s.alloc.reportedDemand (requestSum s) then [(plantLine, .of (.plant .demandChanged) 0)]
    else []

@[simp] theorem roundTaken_br (s : State) (b : BranchNo) : (roundTaken s).br b =
    if (s.br b).dock.participating then { s.br b with grant := Vec.pick (roundPlan s).given b }.redrive else s.br b :=
  publishGrants_br (roundPlan s).given s b

/-- A redrive keeps the dock state, the owner line and the request of a branch. -/
theorem roundTaken_branch (s : State) (b : BranchNo) : ((roundTaken s).br b).owner = (s.br b).owner ∧
    ((roundTaken s).br b).dock = (s.br b).dock ∧ ((roundTaken s).br b).request = (s.br b).request := by
  rw [roundTaken_br]
  split <;> exact ⟨rfl, rfl, rfl⟩

theorem requestSum_congr {t : State} (h : ∀ b, (t.br b).dock = (s.br b).dock ∧ (t.br b).request = (s.br b).request) :
    requestSum t = requestSum s := sumBranches_congr fun b => by rw [(h b).1, (h b).2]

theorem raiseGrantChanged_of_taken (qs : List (LineNo × AttnEntry)) (b : BranchNo) :
    (if (s.br b).dock.participating then raiseGrantChanged b (s.br b).grant (tell qs (roundTaken s))
      else tell qs (roundTaken s)) = tell (qs ++ moveTells s b) (roundTaken s) := by
  have same := tell_eq qs (roundTaken s)
  have params : (tell qs (roundTaken s)).params = s.params := by rw [same]; rfl
  have windows : (tell qs (roundTaken s)).windows = s.windows := by rw [same]; rfl
  have record : (tell qs (roundTaken s)).br b = (roundTaken s).br b := by rw [same]; rfl
  have told : ownerTells (tell qs (roundTaken s)) b .grantChanged [] = ownerTells s b .grantChanged [] := by
    rw [ownerTells, record, (roundTaken_branch s b).1]
    simp only [localIndex, State.window, windows]
    rfl
  rw [moveTells, grantMoves]
  by_cases participates : (s.br b).dock.participating = true
  · rw [if_pos participates, raiseGrantChanged, record, roundTaken_br, if_pos participates, params, Branch.redrive_grant,
      participates, Bool.true_and]
    split
    · rw [raiseOwner_eq_tell, told, tell_append]
    · rw [List.append_nil]
  · simp [participates]

/-- A round is its grants, its record and the bypass duty, and then what it tells. -/
theorem runRound_eq_tell (s : State) : runRound s = tell (roundTells s) (roundTaken s) := by
  have moves : ∀ bs : List BranchNo, ∀ qs, bs.foldl (fun u b =>
      if (s.br b).dock.participating then raiseGrantChanged b (s.br b).grant u else u) (tell qs (roundTaken s)) =
        tell (qs ++ bs.flatMap (moveTells s)) (roundTaken s) := by
    intro bs
    induction bs with
    | nil => simp
    | cons b bs ih =>
      intro qs
      rw [List.foldl_cons, raiseGrantChanged_of_taken, ih, List.flatMap_cons, List.append_assoc]
  have short : (if (roundPlan s).short && !s.alloc.shortfall then raiseShortfall (roundTaken s) else roundTaken s) =
      tell (shortTells s) (roundTaken s) := by
    unfold shortTells becomesShort
    split <;> rfl
  rw [runRound_eq, short, forBranches, moves, roundTells, raiseDemandChanged]
  generalize shortTells s ++ allBranches.flatMap (moveTells s) = qs
  have same := tell_eq qs (roundTaken s)
  have params : (tell qs (roundTaken s)).params = s.params := by rw [same]; rfl
  have reported : (tell qs (roundTaken s)).alloc.reportedDemand = s.alloc.reportedDemand := by rw [same]; rfl
  have requests : requestSum (tell qs (roundTaken s)) = requestSum s := by
    refine requestSum_congr fun b => ?_
    have record : (tell qs (roundTaken s)).br b = (roundTaken s).br b := by rw [same]; rfl
    rw [record]
    exact (roundTaken_branch s b).2
  rw [params, reported, requests, tell_append]
  split <;> rfl

theorem runRound_frame (s : State) : runRound s = { roundTaken s with attn := (runRound s).attn } := by
  rw [runRound_eq_tell]
  exact tell_eq _ _

theorem runRound_record (s : State) : (runRound s).alloc =
    recordRound s s.alloc.pendingBudget (roundPlan s) (grantSum (publishGrants (roundPlan s).given s)) s.alloc := by
  rw [runRound_frame]
  rfl

theorem grantSum_runRound (s : State) : grantSum (runRound s) = grantSum (publishGrants (roundPlan s).given s) := by
  rw [runRound_frame]
  rfl

/-- R59, R61: a round spends the pending budget, and its record says so. -/
theorem runRound_spends (grants : GrantLaw s) :
    grantSum (runRound s) + (runRound s).alloc.bypassTarget = (runRound s).alloc.effectiveBudget ∧
      (runRound s).alloc.effectiveBudget = s.alloc.pendingBudget ∧
      (runRound s).alloc.round.budget = (runRound s).alloc.effectiveBudget ∧
      (runRound s).alloc.round.sumGrants = grantSum (runRound s) ∧
      (runRound s).alloc.round.bypassTarget = (runRound s).alloc.bypassTarget ∧
      (runRound s).alloc.round.seq = s.alloc.round.seq + 1 := by
  rw [grantSum_runRound, runRound_record]
  exact ⟨roundTaken_spends grants, rfl, rfl, rfl, rfl, rfl⟩

theorem takeUpCheck_grant (b c : BranchNo) (s : State) :
    ((takeUpCheck b s).br c).dock = (s.br c).dock ∧ ((takeUpCheck b s).br c).grant = (s.br c).grant := by
  unfold takeUpCheck restrict
  dsimp only
  split
  · split
    · split
      · split <;> simp [State.br, Vec.pick_put] <;> split <;> simp_all
      · simp [State.br, Vec.pick_put]; split <;> simp_all
    · simp [State.br, Vec.pick_put]; split <;> simp_all
  · exact ⟨rfl, rfl⟩

theorem takeUpChecks_grantLaw (grants : GrantLaw s) : GrantLaw (forBranches takeUpCheck s) :=
  forBranches_inv GrantLaw takeUpCheck (fun b u law c out => by
    obtain ⟨dock, grant⟩ := takeUpCheck_grant b c u
    rw [dock] at out
    rw [grant]
    exact law c out) s grants

theorem takeUpChecks_alloc (s : State) : (forBranches takeUpCheck s).alloc = s.alloc :=
  forBranches_keeps (fun u => u.alloc) takeUpCheck (fun b u => takeUpCheck_alloc b u) s

theorem parksOn_eq (s : State) (sh : Share) : parksOn s sh = parkTarget s sh := by
  cases mode : s.params.parkMode <;> simp only [parksOn, parkTarget, mode]

theorem movedBy_iff (q old new : Nat) : movedBy q old new = true ↔ q ≤ ((new : Int) - old).natAbs := by
  rw [movedBy, decide_eq_true_iff]
  omega

/-- R52, R58: the grant of a participant after a round. -/
theorem runRound_grant_parts (participates : (s.br b).dock.participating = true) :
    ((runRound s).br b).grant = Vec.pick (roundShared s).given b +
      if parkTarget s (roundShared s) = some b then roundParked s else 0 := by
  rw [runRound_grant participates, roundPlan_eq]
  exact pick_parkedGrants ..

theorem runRound_grant_of_adopting (adopting : (s.br b).dock = .adopting) :
    ((runRound s).br b).grant =
      if adoptingSum s ≤ reserveLeft s then (s.br b).grant else (s.br b).grant * reserveLeft s / adoptingSum s := by
  rw [runRound_grant (by rw [adopting]; rfl), roundPlan_given_of_adopting adopting]

/-- R55: in a short round nothing is shared, and each floor is scaled. -/
theorem roundShared_given_of_short (short : shareable s < floorSum s)
    (floored : (s.br b).dock = .priming ∨ (s.br b).dock = .admitted) :
    Vec.pick (roundShared s).given b = roundFloor s b * shareable s / floorSum s := by
  have notAdopting : (s.br b).dock ≠ .adopting := by rcases floored with h | h <;> rw [h] <;> decide
  have nothing : (roundStart s).rm = 0 := by
    have long : ¬floorSum s ≤ shareable s := Nat.not_le.2 short
    simp only [shareable, reserveLeft] at long
    simp only [roundStart, shareStart, long, if_false]
  have unshared : roundShared s = roundStart s := by rw [roundShared, nothing, shareLoop]
  rw [unshared, roundStart_given, adoptedGrant, if_neg notAdopting, givenFloor, if_neg (Nat.not_le.2 short), zero_add]

theorem roundPlan_short (s : State) : (roundPlan s).short = decide (shareable s < floorSum s) := by
  rw [roundPlan_eq, ← decide_not]
  simp only [Nat.not_le]

theorem becomesShort_iff : becomesShort s = true ↔ shareable s < floorSum s ∧ s.alloc.shortfall = false := by
  rw [becomesShort, roundPlan_short]
  simp

/-! ## What of it stands on each line -/

theorem mem_moveTells {r : LineNo × AttnEntry} : r ∈ moveTells s b ↔ grantMoves s b = true ∧
    ∃ o, (s.br b).owner = some o ∧ r = (sledLine o, ⟨.sled .grantChanged, localIndex s o b, [], false⟩) := by
  unfold moveTells
  split
  case isTrue moves => simp only [mem_ownerTells, moves, true_and]
  case isFalse still => simp [still]

/-- What a round raises: SHORTFALL on two lines, GRANT_CHANGED on owner lines and DEMAND_CHANGED. -/
theorem mem_roundTells {r : LineNo × AttnEntry} : r ∈ roundTells s ↔
    (becomesShort s = true ∧
      (r = (plantLine, .of (.plant .shortfall) 0) ∨ r = (supLine, .of (.sup .shortfall) 0))) ∨
    (∃ b, grantMoves s b = true ∧ ∃ o, (s.br b).owner = some o ∧
      r = (sledLine o, ⟨.sled .grantChanged, localIndex s o b, [], false⟩)) ∨
    (movedBy s.params.quantum s.alloc.reportedDemand (requestSum s) = true ∧
      r = (plantLine, .of (.plant .demandChanged) 0)) := by
  have short : r ∈ shortTells s ↔ becomesShort s = true ∧
      (r = (plantLine, .of (.plant .shortfall) 0) ∨ r = (supLine, .of (.sup .shortfall) 0)) := by
    unfold shortTells
    split <;> simp [*]
  have demand : (r ∈ if movedBy s.params.quantum s.alloc.reportedDemand (requestSum s) then
      [(plantLine, AttnEntry.of (.plant .demandChanged) 0)] else []) ↔
      movedBy s.params.quantum s.alloc.reportedDemand (requestSum s) = true ∧
        r = (plantLine, .of (.plant .demandChanged) 0) := by
    split <;> simp [*]
  simp only [roundTells, List.mem_append, List.mem_flatMap, mem_moveTells, short, demand, mem_allBranches, true_and,
    or_assoc]

theorem sledLine_inj {o p : BranchNo} : sledLine o = sledLine p ↔ o = p := by
  simp [sledLine, Fin.ext_iff]

theorem grantMoves_iff : grantMoves s b = true ↔ (s.br b).dock.participating = true ∧
    s.params.quantum ≤ (((runRound s).br b).grant - (s.br b).grant : Int).natAbs := by
  rw [grantMoves, Bool.and_eq_true, movedBy_iff]
  exact and_congr_right fun participates => by rw [runRound_grant participates]

theorem grantNoted_iff (o : BranchNo) (k : Nat) : SledEntry (runRound s) o .grantChanged k ↔
    SledEntry s o .grantChanged k ∨ ∃ b, ((s.br b).dock.participating = true ∧
      s.params.quantum ≤ (((runRound s).br b).grant - (s.br b).grant : Int).natAbs) ∧
        (s.br b).owner = some o ∧ k = b.val - (s.window o).base := by
  have before : Noted ((roundTaken s).attnOf (sledLine o)) (.sled .grantChanged) k ↔ SledEntry s o .grantChanged k :=
    Iff.rfl
  have told := noted_tell (roundTells s) (roundTaken s) (sledLine o) (.sled .grantChanged) k
  rw [← runRound_eq_tell, before] at told
  refine told.trans (or_congr_right ⟨?_, ?_⟩)
  · rintro ⟨r, raised, line, cause, rfl⟩
    obtain ⟨-, rfl | rfl⟩ | ⟨b, moves, p, owner, rfl⟩ | ⟨-, rfl⟩ := mem_roundTells.1 raised
    · cases cause
    · cases cause
    · obtain rfl := sledLine_inj.1 line
      exact ⟨b, grantMoves_iff.1 moves, owner, rfl⟩
    · cases cause
  · rintro ⟨b, moves, owner, rfl⟩
    exact ⟨_, mem_roundTells.2 (.inr (.inl ⟨b, grantMoves_iff.2 moves, o, owner, rfl⟩)), rfl, rfl, rfl⟩

theorem demandPending_iff : isPending ((runRound s).attnOf plantLine) (.plant .demandChanged) = true ↔
    isPending (s.attnOf plantLine) (.plant .demandChanged) = true ∨
      s.params.quantum ≤ (requestSum s - s.alloc.reportedDemand : Int).natAbs := by
  have told := isPending_tell (roundTells s) (roundTaken s) plantLine (.plant .demandChanged)
  rw [← runRound_eq_tell] at told
  refine told.trans (or_congr_right ?_)
  rw [← movedBy_iff]
  refine ⟨?_, fun moved => ⟨_, mem_roundTells.2 (.inr (.inr ⟨moved, rfl⟩)), rfl, rfl⟩⟩
  rintro ⟨r, raised, -, cause⟩
  obtain ⟨-, rfl | rfl⟩ | ⟨b, -, o, -, rfl⟩ | ⟨moved, -⟩ := mem_roundTells.1 raised
  · cases cause
  · cases cause
  · cases cause
  · exact moved

/-- R55: a round raises SHORTFALL where it becomes short, on the plant and on the supervisor line. -/
theorem shortfallPending_iff {m : LineNo} {c : AttnCause}
    (shortfall : m = plantLine ∧ c = .plant .shortfall ∨ m = supLine ∧ c = .sup .shortfall) :
    isPending ((runRound s).attnOf m) c = true ↔ isPending (s.attnOf m) c = true ∨ becomesShort s = true := by
  have told := isPending_tell (roundTells s) (roundTaken s) m c
  rw [← runRound_eq_tell] at told
  refine told.trans (or_congr_right ⟨?_, fun short => ⟨(m, .of c 0), mem_roundTells.2 (.inl ⟨short, ?_⟩), rfl, rfl⟩⟩)
  · rintro ⟨r, raised, -, cause⟩
    obtain ⟨short, -⟩ | ⟨b, -, o, -, rfl⟩ | ⟨-, rfl⟩ := mem_roundTells.1 raised
    · exact short
    · obtain ⟨-, rfl⟩ | ⟨-, rfl⟩ := shortfall <;> cases cause
    · obtain ⟨-, rfl⟩ | ⟨-, rfl⟩ := shortfall <;> cases cause
  · obtain ⟨rfl, rfl⟩ | ⟨rfl, rfl⟩ := shortfall
    · exact .inl rfl
    · exact .inr rfl

theorem runRound_detailList {c : AttnCause} (grant : c ≠ .sled .grantChanged) (demand : c ≠ .plant .demandChanged)
    (plant : c ≠ .plant .shortfall) (sup : c ≠ .sup .shortfall) (l : LineNo) :
    detailList ((runRound s).attnOf l) c = detailList (s.attnOf l) c := by
  rw [runRound_eq_tell]
  refine detailList_tell_ne (fun r raised cause => ?_) (roundTaken s) l
  obtain ⟨-, rfl | rfl⟩ | ⟨b, -, o, -, rfl⟩ | ⟨-, rfl⟩ := mem_roundTells.1 raised
  · exact plant cause.symm
  · exact sup cause.symm
  · exact grant cause.symm
  · exact demand cause.symm

theorem runRound_valves (s : State) : (runRound s).valves = { s.valves with
    bypassCommanded := min 1000 ((roundPlan s).bypassTarget * 1000 / s.valves.bypassFopen) } := by
  rw [runRound_frame]
  rfl

theorem parkedAmount_eq (s : State) (sh : Share) (residue : Nat) : parkedAmount s sh residue =
    match parksOn s sh with | none => 0 | some b => min residue ((s.br b).cap - Vec.pick sh.given b) := by
  cases target : parkTarget s sh <;> simp [parkedAmount, parksOn_eq, target]

theorem pointerAfter_eq (old : BranchNo) (last : Option BranchNo) :
    pointerAfter old last = match last with | none => old | some b => b + 1 := rfl

theorem overFloors_eq (s : State) (p : Nat) :
    (if floorSum s ≤ p then 0 else p - sumBranches (givenFloor s p)) =
      if floorSum s ≤ p then 0 else p - sumBranches fun b => roundFloor s b * p / floorSum s := by
  split
  case isTrue => rfl
  case isFalse short => rw [sumBranches_congr fun b => show givenFloor s p b = _ from if_neg short]

theorem overAdopting_eq (s : State) (p : Nat) :
    (if adoptingSum s ≤ p then 0 else p - sumBranches (adoptedGrant s p)) =
      if adoptingSum s ≤ p then 0
      else p - sumBranches fun b => if (s.br b).dock = .adopting then (s.br b).grant * p / adoptingSum s else 0 := by
  split
  case isTrue => rfl
  case isFalse excess =>
    rw [sumBranches_congr fun b => show adoptedGrant s p b = _ by rw [adoptedGrant, if_neg excess]]

/-- R52 to R61, R81: what a round leaves, part by part. -/
theorem runRound_parts {shared : Share} (hshared : shared = roundShared s) :
    let t := runRound s
    let park := parksOn s shared
    let parked := match park with
      | none => 0
      | some b => min t.alloc.round.residue ((s.br b).cap - Vec.pick shared.given b)
    (∀ b, (s.br b).dock = .adopting → (t.br b).grant =
      if adoptingSum s ≤ reserveLeft s then (s.br b).grant else (s.br b).grant * reserveLeft s / adoptingSum s) ∧
    t.alloc.round.residue = shared.rm +
      (if floorSum s ≤ shareable s then 0
       else shareable s - sumBranches fun b => roundFloor s b * shareable s / floorSum s) +
      (if adoptingSum s ≤ reserveLeft s then 0 else reserveLeft s -
        sumBranches fun b => if (s.br b).dock = .adopting then (s.br b).grant * reserveLeft s / adoptingSum s else 0) ∧
    (∀ b, (s.br b).dock.participating = true →
      (t.br b).grant = Vec.pick shared.given b + if park = some b then parked else 0) ∧
    (∀ b, (s.br b).dock.participating = false → t.br b = s.br b) ∧
    (shareable s < floorSum s → ∀ b, (s.br b).dock = .priming ∨ (s.br b).dock = .admitted →
      Vec.pick shared.given b = roundFloor s b * shareable s / floorSum s) ∧
    t.alloc.bypassTarget = min s.params.bypassMinimum s.alloc.pendingBudget + (t.alloc.round.residue - parked) ∧
    t.valves = { s.valves with
      bypassCommanded := min 1000 (t.alloc.bypassTarget * 1000 / s.valves.bypassFopen) } ∧
    t.alloc.shortfall = decide (shareable s < floorSum s) ∧ t.alloc.round.short = decide (shareable s < floorSum s) ∧
    t.alloc.round.available = shareable s ∧ t.alloc.round.sumFloors = floorSum s ∧
    t.alloc.round.participants = (sumBranches fun b => if (s.br b).dock.participating = true then 1 else 0) ∧
    t.alloc.p1 = (match shared.last1 with | none => s.alloc.p1 | some b => b + 1) ∧
    t.alloc.p0 = (match shared.last0 with | none => s.alloc.p0 | some b => b + 1) ∧
    t.alloc.round.p1 = t.alloc.p1 ∧ t.alloc.round.p0 = t.alloc.p0 := by
  intro t park parked
  have record : t.alloc = _ := runRound_record s
  have plan : (roundPlan s).residue = roundResidue s := by rw [roundPlan_eq]
  have residueIs : t.alloc.round.residue = roundResidue s := by rw [record, ← plan]; rfl
  have parks : park = parkTarget s (roundShared s) := by rw [← hshared]; exact parksOn_eq ..
  have amount : parked = roundParked s := by
    rw [roundParked, ← hshared, parkedAmount_eq, ← residueIs]
  have target : t.alloc.bypassTarget = (roundPlan s).bypassTarget := by rw [record]; rfl
  clear_value park parked
  refine ⟨fun b => runRound_grant_of_adopting, ?left, fun b participates => ?grant, fun b outside => ?outside,
    fun short b => ?short0, ?target, ?valves, ?shortfall, ?short, ?available, ?floors, ?participants, ?p1, ?p0, ?record1,
    ?record0⟩
  case left => rw [residueIs, roundResidue, ← hshared, overFloors_eq, overAdopting_eq]
  case grant => rw [parks, amount, hshared]; exact runRound_grant_parts participates
  case outside => rw [runRound_br, if_neg (by rw [outside]; exact Bool.false_ne_true)]
  case short0 => rw [hshared]; exact roundShared_given_of_short short
  case target => rw [residueIs, amount, target, roundPlan_eq]
  case valves => rw [target]; exact runRound_valves s
  case shortfall => rw [← roundPlan_short]; exact (runRound_short s).1
  case short => rw [← roundPlan_short]; exact (runRound_short s).2
  case available =>
    have available : (roundPlan s).available = shareable s := by rw [roundPlan_eq]
    rw [record, ← available]
    rfl
  case floors => rw [record]; rfl
  case participants => rw [record]; rfl
  case p1 => rw [hshared, ← pointerAfter_eq]; exact (runRound_pointers s).1
  case p0 => rw [hshared, ← pointerAfter_eq]; exact (runRound_pointers s).2
  case record1 => rw [record]; rfl
  case record0 => rw [record]; rfl

/-- Settles O19: what a round spends and records is its plan, and what it tells is `roundTells`. -/
theorem roundSpendsTheBudgetAndScalesFloors : Obligations.RoundSpendsTheBudgetAndScalesFloors := by
  unfold Obligations.RoundSpendsTheBudgetAndScalesFloors
  refine fun s => ⟨fun grants t round => ?spends, ?parts, ?tells⟩
  case spends =>
    rcases round with round | round <;> rw [round]
    · exact runRound_spends grants
    · have spends := runRound_spends (s := forBranches takeUpCheck s) (takeUpChecks_grantLaw grants)
      rw [takeUpChecks_alloc] at spends
      rw [closeAllocator]
      exact spends
  case parts =>
    intro p0 p start shared
    have hshared : shared = roundShared s := rfl
    clear_value shared
    have parts := runRound_parts hshared
    dsimp only [reserveLeft, shareable] at parts
    exact parts
  case tells =>
    have short := becomesShort_iff (s := s)
    exact ⟨grantNoted_iff, demandPending_iff, (shortfallPending_iff (.inl ⟨rfl, rfl⟩)).trans (or_congr_right short),
      (shortfallPending_iff (.inr ⟨rfl, rfl⟩)).trans (or_congr_right short),
      fun l c grant demand plant sup => runRound_detailList grant demand plant sup l⟩

/-! ## BUDGET (R46) -/

theorem exec_budget_of_handed {tag : Byte} {value : Nat} {urgent : Bool} (h : Handed s plantLine tag (.budget value urgent)) :
    exec .budget s = .next (startReply plantLine Kind.budget.code tag .ok
      (clampedFlag (storedBudget value != value) :: toOctets 2 (storedBudget value)) (applyBudget value urgent s)) := by
  simp only [exec, execBudget, h]

/-- Settles O24: an urgent BUDGET is a round on the budget just declared. -/
theorem budgetDeclaresThePendingBudget : Obligations.BudgetDeclaresThePendingBudget := by
  unfold Obligations.BudgetDeclaresThePendingBudget
  intro s tag value urgent handed
  rw [exec_budget_of_handed handed]
  refine ⟨fun calm => ?calm, fun urgency => ⟨_, rfl, ?urgent⟩⟩
  case calm =>
    subst calm
    rw [clampedFlag_ne, startReply_eq_replied]
    rfl
  case urgent =>
    subst urgency
    have frame := runRound_frame (declareBudget value s)
    have record := runRound_record (declareBudget value s)
    have valves := runRound_valves (declareBudget value s)
    have target : (runRound (declareBudget value s)).alloc.bypassTarget = (roundPlan (declareBudget value s)).bypassTarget := by
      rw [record]
      rfl
    have lines : (runRound (declareBudget value s)).lines = s.lines := by rw [runRound_lines]; rfl
    have branches := runRound_br (declareBudget value s)
    rw [applyBudget, if_pos rfl, ← clampedFlag_ne]
    refine ⟨startReply_replies lines .., ?pending, ?effective, ?age, ?state, ?seq, fun grants => ?spent, ?bypass,
      fun b => ?branch, ?frame⟩
    case pending => rw [startReply_alloc, record]; rfl
    case effective => rw [startReply_alloc, record]; rfl
    case age => rw [startReply_alloc, record]; rfl
    case state => rw [startReply_alloc, record]; rfl
    case seq => rw [startReply_alloc, record]; rfl
    case spent =>
      obtain ⟨spent, effective, -⟩ := runRound_spends (s := declareBudget value s) grants
      exact spent.trans effective
    case bypass => rw [startReply_valves, startReply_alloc, target, valves]; rfl
    case branch =>
      rw [startReply_br, branches]
      split <;> rfl
    case frame =>
      rw [frame]
      rfl

end
end Sys2Proof.Machine
end

section
/-! PROOF. The requests on the attention sets and on the incident ring (O28, O29, O39). -/

namespace Sys2Proof.Machine

open Sys2Proof Sys2Proof.Safety

section
variable {s : State} {l : LineNo} {tag : Byte}

/-! ## CLEAR_ATTN (R171) -/

theorem exec_clearAttn_of_handed {set : BitVec 16} (h : Handed s l tag (.clearAttn set)) :
    exec (.clearAttn l) s = .next (serveClearAttn l tag set s) := by
  simp only [exec, execClearAttn, h]

theorem clearable_iff (trip : Bool) (c : AttnCause) :
    clearable trip c = true ↔ c ≠ .sup .stripChange ∧ ¬(c = .sup .tripLine ∧ trip = true) := by
  cases c with
  | sled c => simp [clearable]
  | plant c => simp [clearable]
  | sup c => cases c <;> simp [clearable]

/-- R171: a clearing takes whole detail lists, and no list that it does not name. -/
theorem clearCauses_detailList (l : LineNo) (set : BitVec 16) (s : State) (c : AttnCause) :
    detailList ((clearCauses l set s).attnOf l) c =
      if set.getLsbD c.number = true ∧ clearable s.iso.tripAsserted c = true then [] else detailList (s.attnOf l) c := by
  simp only [clearCauses, State.updAttn_attnOf_same, detailList, List.filter_filter]
  split
  case isTrue cleared =>
    refine List.filter_eq_nil_iff.2 fun e _ => ?_
    by_cases same : e.cause = c
    · subst same
      simp [cleared]
    · simp [same]
  case isFalse kept =>
    refine List.filter_congr fun e _ => ?_
    by_cases same : e.cause = c
    · subst same
      simpa [imp_iff_not_or] using kept
    · simp [same]

/-- Settles O29: what is cleared is what the set names and `clearable` allows. -/
theorem clearAttnRemovesTheNamedCauses : Obligations.ClearAttnRemovesTheNamedCauses := by
  unfold Obligations.ClearAttnRemovesTheNamedCauses
  intro s l tag set handed
  refine ⟨_, exec_clearAttn_of_handed handed, startReply_replies rfl .., fun c => ?list, ?mask, fun k other => ?other, rfl⟩
  case list =>
    have cleared := clearCauses_detailList l set s c
    simp only [clearable_iff] at cleared
    exact cleared
  case mask => simp [serveClearAttn, clearCauses]
  case other => simp [serveClearAttn, clearCauses, other.symm]

/-! ## READ_ATTN (R170) -/

theorem exec_readAttn_of_handed (h : Handed s l tag .readAttn) : exec (.readAttn l) s =
    .next (startReply l Kind.readAttn.code tag .ok (attnReply (s.attnOf l) (highestCause (lineClass l) (s.attnOf l)))
      (noteRead l (highestCause (lineClass l) (s.attnOf l)) s)) := by
  simp only [exec, execReadAttn, h]

theorem causes_by_number (k : LineClass) : k.causes.Pairwise fun c d => c.number ≤ d.number := by
  cases k <;> decide

theorem attnNumber_mod (c : AttnCause) : c.number % 256 = c.number := by
  obtain c | c | c := c <;> cases c <;> rfl

/-- R170: with no cause chosen, no pending cause of the class is in the mask. -/
theorem highestCause_eq_none {k : LineClass} {a : AttnLine} (h : highestCause k a = none) {c : AttnCause}
    (inClass : c ∈ k.causes) (pending : isPending a c = true) : a.mask.getLsbD c.number = false := by
  have out := List.find?_eq_none.1 h c inClass
  simpa [pending] using out

/-- R170: the cause chosen is pending and in the mask, and no such cause of the class has a lower number. -/
theorem highestCause_eq_some {k : LineClass} {a : AttnLine} {c : AttnCause} (h : highestCause k a = some c) :
    (isPending a c = true ∧ a.mask.getLsbD c.number = true) ∧ ∀ d ∈ k.causes, isPending a d = true →
      a.mask.getLsbD d.number = true → c.number ≤ d.number := by
  obtain ⟨chosen, before, after, split, first⟩ := List.find?_eq_some_iff_append.1 h
  refine ⟨by simpa using chosen, fun d inClass pending masked => ?_⟩
  have ordered := causes_by_number k
  rw [split] at inClass ordered
  rcases List.mem_append.1 inClass with early | here
  · exact absurd (first d early) (by simp [pending, masked])
  · rcases List.mem_cons.1 here with rfl | late
    · exact le_rfl
    · exact (List.pairwise_cons.1 (List.pairwise_append.1 ordered).2.1).1 d late

/-- 9.7: the octets of an entry of a cause with detail. -/
theorem octets_of_cause {e : AttnEntry} {c : AttnCause} (same : e.cause = c) (detailed : c.plain = false) : e.octets =
    if c = .sled .isolated then octet e.key :: toOctets 2 (branchSetBits e.causes)
    else if c = .sup .lineFault then [octet (e.key + if e.overrun = true then 128 else 0)]
    else [octet e.key] := by
  obtain c | c | c := c <;> cases c <;> simp [AttnEntry.octets, same, AttnCause.plain, flagBit] at detailed ⊢

theorem reportedList_octets (a : AttnLine) (c : AttnCause) : (reportedList a c).flatMap AttnEntry.octets =
    (reportedList a c).flatMap fun e =>
      if c = .sled .isolated then octet e.key :: toOctets 2 (branchSetBits e.causes)
      else if c = .sup .lineFault then [octet (e.key + if e.overrun = true then 128 else 0)]
      else [octet e.key] := by
  refine List.flatMap_congr fun e listed => ?_
  cases plain : c.plain with
  | true => simp [reportedList, plain] at listed
  | false =>
    rw [reportedList, plain] at listed
    exact octets_of_cause (of_decide_eq_true (List.mem_filter.1 listed).2) plain

theorem leavesOnRead_iff (c : AttnCause) : c.leavesOnRead = true ↔ c = .sled .grantChanged ∨ c = .plant .demandChanged := by
  simp [AttnCause.leavesOnRead]

theorem isPending_dropCause (l : LineNo) (c : AttnCause) (s : State) : isPending ((dropCause l c s).attnOf l) c = false := by
  simp [isPending, dropCause]

theorem noteRead_frame (l : LineNo) (chosen : Option AttnCause) (s : State) :
    noteRead l chosen s = { s with attn := (noteRead l chosen s).attn } := by
  cases chosen with
  | none => rfl
  | some c =>
    simp only [noteRead]
    split <;> rfl

theorem isPending_iff (a : AttnLine) (c : AttnCause) : isPending a c = true ↔ ∃ e ∈ a.entries, e.cause = c := by
  simp [isPending]

/-- Settles O28: the cause chosen is `highestCause`, and its list follows octet by octet. -/
theorem readAttnReportsTheHighestCause : Obligations.ReadAttnReportsTheHighestCause := by
  unfold Obligations.ReadAttnReportsTheHighestCause
  intro s l tag handed inClass
  have ofClass : ∀ c, isPending (s.attnOf l) c = true → c ∈ (lineClass l).causes := by
    intro c pending
    obtain ⟨e, there, rfl⟩ := (isPending_iff ..).1 pending
    exact inClass e there
  have frame := noteRead_frame l (highestCause (lineClass l) (s.attnOf l)) s
  refine ⟨_, attnReply (s.attnOf l) (highestCause (lineClass l) (s.attnOf l)), exec_readAttn_of_handed handed,
    startReply_replies (by rw [frame]) .., ?pending, ?mask, fun absent => ?absent, fun present => ?present, ?frame⟩
  case pending =>
    cases highestCause (lineClass l) (s.attnOf l) <;>
      simp [attnReply, numberAt_cons_succ, numberAt_toOctets, wordToNat_mod]
  case mask =>
    cases highestCause (lineClass l) (s.attnOf l) <;>
      simp [attnReply, numberAt_cons_succ, numberAt_append_past, numberAt_toOctets, numberAt_toOctets_last,
        wordToNat_mod]
  case frame =>
    rw [startReply_attn, frame]
    rfl
  case absent =>
    have unchosen : highestCause (lineClass l) (s.attnOf l) = none :=
      List.find?_eq_none.2 fun c _ chosen => by
        obtain ⟨pending, masked⟩ := Bool.and_eq_true_iff.1 chosen
        exact absurd masked (by simp [absent c pending])
    rw [unchosen]
    refine ⟨rfl, rfl, ?_, rfl⟩
    simp [attnReply]
  case present =>
    cases choice : highestCause (lineClass l) (s.attnOf l) with
    | none =>
      obtain ⟨c, pending, masked⟩ := present
      exact absurd masked (by simp [highestCause_eq_none choice (ofClass c pending) pending])
    | some c =>
      obtain ⟨⟨pending, masked⟩, first⟩ := highestCause_eq_some choice
      refine ⟨c, pending, masked, ?number, fun d pending => first d (ofClass d pending) pending, ⟨?count, ?list⟩,
        fun grant demand => ?kept, fun leaves => ?left⟩
      case number => exact (numberAt_octet _ _).trans (attnNumber_mod c)
      case count => exact (numberAt_cons_succ _ _ 0 1).trans (numberAt_octet _ _)
      case list => exact reportedList_octets (s.attnOf l) c
      case kept =>
        have stays : c.leavesOnRead = false := by
          rw [Bool.eq_false_iff, Ne, leavesOnRead_iff]
          tauto
        rw [startReply_attn, noteRead, stays]
        rfl
      case left =>
        rw [noteRead, (leavesOnRead_iff c).2 leaves, if_pos rfl]
        refine ⟨isPending_dropCause l c s, fun d other => ?_, ?_, fun k other => dropCause_attnOf_ne l c s other.symm⟩
        · exact (detailList_dropCause l c d s).trans (if_neg other)
        · rw [startReply_attnOf]
          simp [dropCause]

end

/-! ## RETURN_INCIDENT and LOG_RESUME (R152, R153) -/

section
variable {s : State} {tag : Byte} {n : Nat} {k : SlotNo}

theorem exec_returnIncident_of_handed (h : Handed s supLine tag (.returnIncident n)) :
    exec .returnIncident s = .next (serveReturnIncident tag n s) := by
  simp only [exec, execReturnIncident, h]

theorem exec_logResume_of_handed (h : Handed s supLine tag .logResume) : exec .logResume s =
    .next (startReply supLine Kind.logResume.code tag (if resumeRefused s then .noSlot else .ok)
      [logStateCode (resumeLog s), octet (resumeLog s).ring.fill.val] (resumeLog s)) := by
  simp only [exec, execLogResume, h]

/-- R152: a freed slot takes the reference of its target with it, and nothing else. -/
theorem freeSlot_frame (k : SlotNo) (s : State) : freeSlot k s = { s with
    branches := (freeSlot k s).branches, rail := (freeSlot k s).rail, ring := (s.updSlot k fun _ => Slot.free).ring } := by
  unfold freeSlot dropReference
  split <;> rfl

theorem freeSlot_br (k : SlotNo) (s : State) (b : BranchNo) : (freeSlot k s).br b = { s.br b with
    incident := if (s.slot k).target = some (.branch b) ∧ (s.br b).incident = some k then none else (s.br b).incident } := by
  unfold freeSlot dropReference
  split
  case h_1 c target =>
    by_cases same : c = b
    · subst same
      by_cases refers : (s.br c).incident = some k <;> simp [target, refers]
    · simp [same, target]
  case h_2 target => simp [target]
  case h_3 target => simp [target]

theorem freeSlot_rail (k : SlotNo) (s : State) : (freeSlot k s).rail = { s.rail with
    incident := if (s.slot k).target = some .rail ∧ s.rail.incident = some k then none else s.rail.incident } := by
  unfold freeSlot dropReference
  split
  case h_1 c target => simp [target]
  case h_2 target =>
    by_cases refers : s.rail.incident = some k <;> simp [target, refers]
  case h_3 target => simp [target]

/-- Settles O39: the four answers of `serveReturnIncident`, and `resumeRefused` for the log. -/
theorem returnAndLogResumeKeepTheRing : Obligations.ReturnAndLogResumeKeepTheRing := by
  unfold Obligations.ReturnAndLogResumeKeepTheRing
  refine fun s tag n => ⟨fun handed => ⟨fun beyond => ?beyond, fun k named => ?slot⟩, fun handed => ?log⟩
  case beyond =>
    rw [exec_returnIncident_of_handed handed, serveReturnIncident, slotOf_beyond beyond]
    rfl
  case slot =>
    subst named
    rw [exec_returnIncident_of_handed handed, serveReturnIncident, slotOf_val]
    refine ⟨fun state => ?_, fun state => ?_, fun state => ?_⟩
    · simp only [state]
      rfl
    · simp only [state]
      rfl
    · simp only [state]
      have frame := freeSlot_frame k s
      refine ⟨_, rfl, startReply_replies (by rw [frame]) .., ?_, fun j other => ?_, ?_, ?_, freeSlot_br k s,
        freeSlot_rail k s, ?_⟩
      · rw [frame]
        exact Vec.pick_put_same ..
      · rw [frame]
        exact Vec.pick_put_ne _ _ other.symm
      · rw [frame]
        rfl
      · rw [frame]
        rfl
      · rw [startReply_branches, startReply_rail, startReply_ring, frame]
        rfl
  case log =>
    rw [exec_logResume_of_handed handed]
    refine ⟨fun active => ?_, fun suspended free => ?_, fun suspended full => ?_⟩
    · have accepted : resumeRefused s = false := by simp [resumeRefused, active]
      have unmoved : { s.ring with suspended := false } = s.ring := by rw [← active]
      have stays : resumeLog s = s := by
        rw [resumeLog, accepted, State.updRing, unmoved]
        rfl
      rw [stays, accepted, startReply_eq_replied, logStateCode, active]
      rfl
    · have accepted : resumeRefused s = false := by simp [resumeRefused, free]
      simp only [resumeLog, accepted]
      rfl
    · have refused : resumeRefused s = true := by simp [resumeRefused, suspended, full]
      simp only [resumeLog, refused, if_true]
      rw [startReply_eq_replied, logStateCode, suspended]
      rfl

end
end Sys2Proof.Machine
end

section
/-! SUPPORT. What a cause added to an isolation set does, from the ring's four cases to the bays it reaches (R25, R124 to
R126, R144 to R147). -/

namespace Sys2Proof.Machine

open Sys2Proof Sys2Proof.Safety

section
variable {s t u : State} {g : Target} {b : BranchNo}

/-! ## The attention sets only grow -/

/-- Every entry of `s` has one of its cause and key in `t`, on the same line. -/
structure AttnGrows (s t : State) : Prop where
  noted : ∀ {l c key}, Noted (s.attnOf l) c key → Noted (t.attnOf l) c key

theorem AttnGrows.refl (s : State) : AttnGrows s s := ⟨id⟩

theorem AttnGrows.trans (h : AttnGrows s t) (k : AttnGrows t u) : AttnGrows s u := ⟨fun noted => k.noted (h.noted noted)⟩

theorem AttnGrows.of_attn (h : t.attn = s.attn) : AttnGrows s t := ⟨fun noted => by
  simpa only [State.attnOf, h] using noted⟩

theorem AttnGrows.pending (h : AttnGrows s t) {l : LineNo} {c : AttnCause} (pending : isPending (s.attnOf l) c = true) :
    isPending (t.attnOf l) c = true := by
  rw [isPending_iff] at pending ⊢
  obtain ⟨e, there, cause⟩ := pending
  obtain ⟨e', there', cause', -⟩ := h.noted ⟨e, there, cause, rfl⟩
  exact ⟨e', there', cause'⟩

theorem raise_grows (l : LineNo) (e : AttnEntry) (s : State) : AttnGrows s (raise l e s) :=
  ⟨fun noted => (noted_raise ..).2 (.inl noted)⟩

theorem raiseSup_grows (c : SupCause) (key : Nat) (s : State) : AttnGrows s (raiseSup c key s) := raise_grows ..

theorem raisePlant_grows (c : PlantCause) (s : State) : AttnGrows s (raisePlant c s) := raise_grows ..

theorem raiseOwner_grows (b : BranchNo) (c : SledCause) (xs : List BranchCause) (s : State) :
    AttnGrows s (raiseOwner b c xs s) := by
  unfold raiseOwner
  split
  · exact .refl s
  · exact raise_grows ..

theorem supEntry_raiseSup (c : SupCause) (key : Nat) (s : State) : SupEntry (raiseSup c key s) c key :=
  (noted_raise ..).2 (.inr ⟨rfl, rfl, rfl⟩)

theorem forBranches_grows {f : BranchNo → State → State} (turn : ∀ b u, AttnGrows u (f b u)) (s : State) :
    AttnGrows s (forBranches f s) :=
  forBranches_inv (AttnGrows s) f (fun b u grown => grown.trans (turn b u)) s (.refl s)

theorem closeRecord_grows (g : Target) (s : State) : AttnGrows s (closeRecord g s) := by
  unfold closeRecord
  split
  · exact .refl s
  · refine .trans ?_ (raiseSup_grows _ _ _)
    exact .of_attn rfl

theorem loseIncident_grows (g : Target) (x : Bool) (s : State) : AttnGrows s (loseIncident g x s) :=
  .trans (.of_attn (by cases g <;> rfl)) (raiseSup_grows ..)

theorem openRecord_grows (g : Target) (c : Cause) (x : Bool) (s : State) : AttnGrows s (openRecord g c x s) := by
  have placed : AttnGrows s (recordPlaced g c x s) := .of_attn (by cases g <;> rfl)
  rw [openRecord_eq]
  split
  · exact placed.trans (closeRecord_grows ..)
  · exact placed

theorem ringAdd_grows (g : Target) (c : Cause) (x : Bool) (s : State) : AttnGrows s (ringAdd g c x s) := by
  unfold ringAdd
  split
  · split
    · exact .of_attn rfl
    all_goals exact loseIncident_grows ..
  · split
    · exact openRecord_grows ..
    · exact loseIncident_grows ..

/-! ## The ring's four cases (R144 to R147) -/

@[simp] theorem raiseSup_br (c : SupCause) (key : Nat) (s : State) (b : BranchNo) : (raiseSup c key s).br b = s.br b := rfl

@[simp] theorem raisePlant_br (c : PlantCause) (s : State) (b : BranchNo) : (raisePlant c s).br b = s.br b := rfl

theorem lostOf_setIncident (g : Target) (r : Option SlotNo) (x : Bool) (s : State) : lostOf (setIncident g r x s) g = x := by
  cases g <;> simp [setIncident, lostOf]

theorem lostOf_loseIncident (g : Target) (x : Bool) (s : State) : lostOf (loseIncident g x s) g = true := by
  cases g <;> simp [loseIncident, setIncident, lostOf]

theorem incidentOf_loseIncident (g : Target) (x : Bool) (s : State) : incidentOf (loseIncident g x s) g = incidentOf s g := by
  cases g <;> simp [loseIncident, setIncident, incidentOf]

theorem loseIncident_ring (g : Target) (x : Bool) (s : State) :
    (loseIncident g x s).ring = { s.ring with suspended := s.ring.suspended || x } := by
  cases g <;> rfl

theorem supEntry_loseIncident (g : Target) (x : Bool) (s : State) : SupEntry (loseIncident g x s) .logBusy g.code :=
  supEntry_raiseSup ..

theorem closeRecord_slot {k : SlotNo} (has : HasOpenRecord s g k) (j : SlotNo) : (closeRecord g s).slot j =
    if k = j then { s.slot k with
      state := .closed
      seqClose := some s.meter.snap.seq
      stillWet := wetAtClose s g
      flow := flowAtClose s g }
    else s.slot j := by
  rw [closeRecord, openSlot_eq_some.2 has]
  simp [State.slot, State.updSlot, Vec.pick_put]

theorem supEntry_closeRecord {k : SlotNo} (has : HasOpenRecord s g k) : SupEntry (closeRecord g s) .incidentClosed k.val := by
  rw [closeRecord, openSlot_eq_some.2 has]
  exact supEntry_raiseSup ..

theorem closeRecord_ring {k : SlotNo} (has : HasOpenRecord s g k) :
    (closeRecord g s).ring = { s.ring with slots := (closeRecord g s).ring.slots } := by
  rw [closeRecord, openSlot_eq_some.2 has]
  rfl

/-- What a record says of its target at a close hangs on the target's dock state, the strips and the snapshot. -/
structure Stands (s t : State) (g : Target) : Prop where
  integrator : integratorOf t g = integratorOf s g
  closed : closedNow t g = closedNow s g
  wet : wetNow t g = wetNow s g
  flow : flowNow t g = flowNow s g

theorem Stands.trans (h : Stands s t g) (k : Stands t u g) : Stands s u g :=
  ⟨k.1.trans h.1, k.2.trans h.2, k.3.trans h.3, k.4.trans h.4⟩

/-- With the strips and the snapshot as before and every dock state, a target stands as it did. -/
theorem stands_of_docks (docks : ∀ b, (t.br b).dock = (s.br b).dock) (account : integratorOf t g = integratorOf s g)
    (state : t.rail.state = s.rail.state) (drip : t.drip = s.drip) (meter : t.meter = s.meter) : Stands s t g := by
  have strip : ∀ n, t.strip n = s.strip n := fun n => by rw [State.strip, drip]; rfl
  have snap : ∀ c, t.snapChannel c = s.snapChannel c := fun c => by rw [State.snapChannel, meter]; rfl
  refine ⟨account, ?_, ?_, ?_⟩
  · cases g <;> simp only [closedNow, docks, state]
  · cases g with
    | branch b => simp only [wetNow, strip]
    | rail => simp only [wetNow, AdmissionsFrozen, CommonRole, strip, docks]
  · cases g <;> simp only [flowNow, snap]

theorem SameButIncidents.stands (same : SameButIncidents s t) (drip : t.drip = s.drip) (meter : t.meter = s.meter)
    (g : Target) : Stands s t g := by
  refine stands_of_docks same.dock ?_ (by rw [same.rail]) drip meter
  cases g with
  | branch b => exact congrArg (·.account.integrator) (same.br b)
  | rail => exact congrArg (·.account.integrator) same.rail

theorem flowNow_eq (s : State) (g : Target) : flowNow s g = flowAtClose s g := by
  cases g <;> simp [flowNow, flowAtClose, supplyVolume, inletVolume, bne, beq_eq_decide]

/-- R145: the record that an opening leaves, closed at once where the target already stands closed. -/
theorem openRecord_slot (g : Target) (c : Cause) (x : Bool) (s : State) (j : SlotNo) : (openRecord g c x s).slot j =
    if s.ring.fill = j then
      { state := if closedNow s g = true then .closed else .opened
        target := some g
        opening := some c
        causes := [c]
        seqOpen := s.meter.snap.seq
        seqClose := if closedNow s g = true then some s.meter.snap.seq else none
        integrator := integratorOf s g
        loss := 0
        hotPull := x
        stillWet := closedNow s g && wetNow s g
        flow := closedNow s g && flowNow s g
        lostBefore := lostOf s g }
    else s.slot j := by
  have same := (recordPlaced_same g c x s).stands (by cases g <;> rfl) (by cases g <;> rfl) g
  have meter : (recordPlaced g c x s).meter = s.meter := by cases g <;> rfl
  have placed := recordPlaced_slot g c x s
  rw [openRecord_eq, ← closedNow_eq]
  by_cases stands : closedNow s g = true
  · have has : HasOpenRecord (recordPlaced g c x s) g s.ring.fill :=
      ⟨by rw [recordPlaced_incidentOf, if_pos rfl], by rw [placed, if_pos rfl]; rfl⟩
    rw [if_pos stands, closeRecord_slot has, placed, placed, if_pos rfl, meter, ← wetNow_eq, ← flowNow_eq, same.wet,
      same.flow]
    rw [closedNow_eq] at stands
    split <;> simp [openedSlot, *]
  · rw [if_neg stands, placed]
    rw [closedNow_eq] at stands
    split <;> simp [stands, openedSlot]

theorem recordPlaced_ring (g : Target) (c : Cause) (x : Bool) (s : State) : (recordPlaced g c x s).ring =
    { s.ring with slots := (recordPlaced g c x s).ring.slots, fill := s.ring.fill + 1 } := by cases g <;> rfl

theorem lostOf_recordPlaced (g : Target) (c : Cause) (x : Bool) (s : State) : lostOf (recordPlaced g c x s) g = false :=
  lostOf_setIncident ..

/-- Closing records leaves branches and rail as they are. -/
theorem closeRecord_refs (g : Target) (s : State) (d : Target) :
    incidentOf (closeRecord g s) d = incidentOf s d ∧ lostOf (closeRecord g s) d = lostOf s d := by
  cases d <;> simp [incidentOf, lostOf]

theorem openRecord_refs (g : Target) (c : Cause) (x : Bool) (s : State) :
    incidentOf (openRecord g c x s) g = some s.ring.fill ∧ lostOf (openRecord g c x s) g = false ∧
      (openRecord g c x s).ring =
        { s.ring with slots := (openRecord g c x s).ring.slots, fill := s.ring.fill + 1 } := by
  have ref : incidentOf (recordPlaced g c x s) g = some s.ring.fill := by rw [recordPlaced_incidentOf, if_pos rfl]
  have ring := recordPlaced_ring g c x s
  rw [openRecord_eq]
  split
  · have has : HasOpenRecord (recordPlaced g c x s) g s.ring.fill :=
      ⟨ref, by rw [recordPlaced_slot, if_pos rfl]; rfl⟩
    refine ⟨(closeRecord_refs ..).1.trans ref, (closeRecord_refs ..).2.trans (lostOf_recordPlaced ..), ?_⟩
    rw [closeRecord_ring has, ring]
  · exact ⟨ref, lostOf_recordPlaced .., ring⟩

theorem supEntry_openRecord {c : Cause} {x : Bool} (stands : closedNow s g = true) :
    SupEntry (openRecord g c x s) .incidentClosed s.ring.fill.val := by
  rw [closedNow_eq] at stands
  rw [openRecord_eq, if_pos stands]
  exact supEntry_closeRecord ⟨by rw [recordPlaced_incidentOf, if_pos rfl], by rw [recordPlaced_slot, if_pos rfl]; rfl⟩

/-- R144 to R147: a cause that comes to the ring joins the target's OPEN record, opens one, or is lost. -/
theorem ringAdd_recorded (g : Target) (c : Cause) (x : Bool) (s : State) : Recorded s (ringAdd g c x s) g c x := by
  refine ⟨fun k has => ?joins, fun k ref closed => ?closed, fun absent active free => ?opens, fun absent full => ?full⟩
  case joins =>
    rw [ringAdd_of_open has]
    refine ⟨?_, fun j other => State.updSlot_slot_ne _ _ _ other.symm, rfl⟩
    rw [State.updSlot_slot_same]
    simp [Slot.join]
  case closed =>
    rw [ringAdd_of_closed ref closed]
    refine ⟨?_, (incidentOf_loseIncident ..).trans ref, lostOf_loseIncident .., supEntry_loseIncident ..⟩
    rw [loseIncident_ring, Bool.or_false]
  case opens =>
    have stands := (openRecord_same g c x s).stands (by cases g <;> simp) (by cases g <;> simp) g
    obtain ⟨ref, lost, ring⟩ := openRecord_refs g c x s
    rw [ringAdd_of_free absent active free, stands.closed, stands.wet, stands.flow, stands.integrator]
    refine ⟨ref, lost, ?_, supEntry_openRecord, fun j other => ?_, ring⟩
    · rw [openRecord_slot, if_pos rfl]
    · rw [openRecord_slot, if_neg other.symm]
  case full =>
    rw [ringAdd_of_full absent full]
    refine ⟨?_, (incidentOf_loseIncident ..).trans absent, lostOf_loseIncident .., supEntry_loseIncident ..⟩
    rw [loseIncident_ring, Bool.or_true]

/-! ## Before and after the ring -/

/-- The ring, the target's reference and its lost flag are as before. -/
structure SameRecord (s t : State) (g : Target) : Prop where
  ring : t.ring = s.ring
  ref : incidentOf t g = incidentOf s g
  lost : lostOf t g = lostOf s g

theorem SameRecord.trans (h : SameRecord s t g) (k : SameRecord t u g) : SameRecord s u g :=
  ⟨k.1.trans h.1, k.2.trans h.2, k.3.trans h.3⟩

theorem SameRecord.slot (h : SameRecord s t g) (k : SlotNo) : t.slot k = s.slot k := by rw [State.slot, h.ring]; rfl

theorem SameRecord.hasOpenRecord (h : SameRecord s t g) (k : SlotNo) : HasOpenRecord t g k ↔ HasOpenRecord s g k := by
  simp only [HasOpenRecord, h.ref, h.slot]

/-- What came to the ring from a state with the same ring came to it from there. -/
theorem recorded_from {c : Cause} {x : Bool} (h : Recorded t u g c x) (same : SameRecord s t g) (meter : t.meter = s.meter) :
    Recorded s u g c x := by
  simpa only [Recorded, HasOpenRecord, same.slot, same.ring, same.ref, same.lost, meter] using h

/-- What follows and leaves the ring, the target and the entries alone leaves what came to the ring. -/
theorem recorded_to {c : Cause} {x : Bool} (h : Recorded s t g c x) (same : SameRecord t u g) (stands : Stands t u g)
    (grows : AttnGrows t u) : Recorded s u g c x := by
  obtain ⟨joins, closed, opens, full⟩ := h
  simp only [Recorded, same.slot, same.ring, same.ref, same.lost, stands.integrator, stands.closed, stands.wet, stands.flow]
  refine ⟨joins, fun k ref state => ?_, fun absent active free => ?_, fun absent busy => ?_⟩
  · obtain ⟨ring, ref, lost, told⟩ := closed k ref state
    exact ⟨ring, ref, lost, grows.noted told⟩
  · obtain ⟨ref, lost, slot, told, rest⟩ := opens absent active free
    exact ⟨ref, lost, slot, fun stood => grows.noted (told stood), rest⟩
  · obtain ⟨ring, ref, lost, told⟩ := full absent busy
    exact ⟨ring, ref, lost, grows.noted told⟩

end
end Sys2Proof.Machine
end

section
/-! SUPPORT. A cause added to a branch, to the bays that RAIL reaches, and to the rail: the whole effect, one lemma per
part (R25, R124, R126, R130 to R133, R141). -/

namespace Sys2Proof.Machine

open Sys2Proof Sys2Proof.Safety

section
variable {s t u : State} {g : Target} {b d : BranchNo} {c : BranchCause} {x : Bool}

/-! ## What causes can reach -/

/-- Branches, rail, ring, attention sets, valve unit and trip items change alone. -/
def CauseOnly (s t : State) : Prop := t = { s with
  branches := t.branches, rail := t.rail, ring := t.ring, attn := t.attn, valves := t.valves, iso := t.iso }

theorem CauseOnly.refl (s : State) : CauseOnly s s := rfl

theorem CauseOnly.trans (h : CauseOnly s t) (k : CauseOnly t u) : CauseOnly s u := by
  rw [CauseOnly] at h k ⊢
  generalize t.branches = a1, t.rail = a2, t.ring = a3, t.attn = a4, t.valves = a5, t.iso = a6 at h
  subst h
  exact k

theorem ringAdd_causeOnly (g : Target) (c : Cause) (x : Bool) (s : State) : CauseOnly s (ringAdd g c x s) := by
  have placed : CauseOnly s (recordPlaced g c x s) := by cases g <;> rfl
  have lost : ∀ y, CauseOnly s (loseIncident g y s) := fun y => by cases g <;> rfl
  have closed : ∀ u, CauseOnly u (closeRecord g u) := fun u => by
    unfold closeRecord
    split <;> rfl
  unfold ringAdd
  split
  · split
    · rfl
    all_goals exact lost _
  · split
    · rw [openRecord_eq]
      split
      · exact placed.trans (closed _)
      · exact placed
    · exact lost _

theorem raiseOwner_causeOnly (b : BranchNo) (c : SledCause) (xs : List BranchCause) (s : State) :
    CauseOnly s (raiseOwner b c xs s) := by
  unfold raiseOwner
  split <;> rfl

theorem addCauseCore_causeOnly (b : BranchNo) (c : BranchCause) (x : Bool) (s : State) :
    CauseOnly s (addCauseCore b c x s) := by
  unfold addCauseCore
  split
  · rfl
  · have answered : CauseOnly s (s.updBranch b fun br => Branch.respond (closeTimer s) { br with causes := br.causes ++ [c] }) :=
      rfl
    dsimp only
    split
    · exact (answered.trans (raiseOwner_causeOnly ..)).trans (ringAdd_causeOnly ..)
    · exact answered.trans (raiseOwner_causeOnly ..)

theorem gate_causeOnly (b : BranchNo) (s : State) : CauseOnly s (gate b s) := by
  unfold gate
  split <;> rfl

theorem forBranches_causeOnly {f : BranchNo → State → State} (turn : ∀ b u, CauseOnly u (f b u)) (s : State) :
    CauseOnly s (forBranches f s) :=
  forBranches_inv (CauseOnly s) f (fun b u only => only.trans (turn b u)) s (.refl s)

theorem leftVacant_causeOnly (b : BranchNo) (s : State) : CauseOnly s (leftVacant b s) := by
  unfold leftVacant gateAll
  dsimp only
  refine .trans ?_ (forBranches_causeOnly gate_causeOnly _)
  split
  · rfl
  · exact addCauseCore_causeOnly ..

theorem addBranchCause_causeOnly (b : BranchNo) (c : BranchCause) (x : Bool) (s : State) :
    CauseOnly s (addBranchCause b c x s) := by
  unfold addBranchCause
  dsimp only
  split
  · exact (addCauseCore_causeOnly ..).trans (leftVacant_causeOnly ..)
  · exact addCauseCore_causeOnly ..

theorem addRailToOccupied_causeOnly (s : State) : CauseOnly s (addRailToOccupied s) := by
  refine forBranches_causeOnly (fun b u => ?_) s
  split
  · rfl
  · exact addCauseCore_causeOnly ..

theorem addRailCause_causeOnly (c : RailCause) (s : State) : CauseOnly s (addRailCause c s) := by
  have taken : CauseOnly s (railTakes c s) := by
    unfold railTakes
    split <;> rfl
  have responded : CauseOnly s (railRespond (s.updRail fun r => { r with causes := r.causes ++ [c] })) := by
    rw [railRespond_eq]
    split
    · exact taken.trans (addRailToOccupied_causeOnly _)
    · exact taken
  unfold addRailCause
  split
  · rfl
  · have driven := responded.trans (show CauseOnly _ (driveTripOut _) from rfl)
    dsimp only
    split
    · exact driven.trans (ringAdd_causeOnly ..)
    · exact driven

/-! ## The sets only grow -/

theorem addCauseCore_grows (b : BranchNo) (c : BranchCause) (x : Bool) (s : State) : AttnGrows s (addCauseCore b c x s) := by
  unfold addCauseCore
  split
  · exact .refl s
  · have answered : AttnGrows s (raiseOwner b .isolated [c]
        (s.updBranch b fun br => Branch.respond (closeTimer s) { br with causes := br.causes ++ [c] })) := by
      refine .trans ?_ (raiseOwner_grows _ _ _ _)
      exact .of_attn rfl
    dsimp only
    split
    · exact answered.trans (ringAdd_grows ..)
    · exact answered

theorem leftVacant_grows (b : BranchNo) (s : State) : AttnGrows s (leftVacant b s) := by
  unfold leftVacant
  dsimp only
  refine .trans ?_ (.of_attn (gateAll_attn _))
  split
  · exact .refl s
  · exact addCauseCore_grows ..

theorem addBranchCause_grows (b : BranchNo) (c : BranchCause) (x : Bool) (s : State) :
    AttnGrows s (addBranchCause b c x s) := by
  unfold addBranchCause
  dsimp only
  split
  · exact (addCauseCore_grows ..).trans (leftVacant_grows ..)
  · exact addCauseCore_grows ..

theorem addRailToOccupied_grows (s : State) : AttnGrows s (addRailToOccupied s) := by
  refine forBranches_grows (fun b u => ?_) s
  split
  · exact .refl u
  · exact addCauseCore_grows ..

/-! ## One turn for each branch -/

/-- A loop whose turn for a branch does `result` to it, from what the loop keeps of `s`, and leaves the others. -/
theorem forBranches_br {f : BranchNo → State → State} (keeps : State → Prop) (start : keeps s)
    (kept : ∀ b u, keeps u → keeps (f b u)) (others : ∀ b u {d}, b ≠ d → (f b u).br d = u.br d) {result : BranchNo → Branch}
    (own : ∀ b u, keeps u → u.br b = s.br b → (f b u).br b = result b) (b : BranchNo) :
    (forBranches f s).br b = result b := by
  have loop : ∀ (bs : List BranchNo) (u : State), bs.Nodup → keeps u → (b ∈ bs → u.br b = s.br b) →
      (bs.foldl (fun u b => f b u) u).br b = if b ∈ bs then result b else u.br b := by
    intro bs
    induction bs with
    | nil => intros; rfl
    | cons d bs ih =>
      intro u nodup keep before
      obtain ⟨fresh, nodup⟩ := List.nodup_cons.1 nodup
      rw [List.foldl_cons, ih (f d u) nodup (kept d u keep) fun later => ?_]
      · by_cases here : d = b
        · subst here
          rw [if_neg fresh, if_pos List.mem_cons_self, own d u keep (before List.mem_cons_self)]
        · rw [others d u here]
          simp only [List.mem_cons, Ne.symm here, false_or]
      · have here : d ≠ b := by rintro rfl; exact fresh later
        rw [others d u here]
        exact before (List.mem_cons_of_mem d later)
  have all := loop allBranches s (by decide) start fun _ => rfl
  rwa [if_pos (mem_allBranches b)] at all

/-! ## The gate of every bay (R13, R118) -/

/-- What a gate looks at beside its own bay. -/
structure GateKept (s t : State) : Prop where
  rail : t.rail = s.rail
  loader : t.loader = s.loader
  params : t.params = s.params
  frozen : frozen t = frozen s

theorem gate_kept_frozen (b : BranchNo) (s : State) : frozen (gate b s) = frozen s := by
  have docks : ∀ d, (((gate b s).br d).dock = .vacant ↔ (s.br d).dock = .vacant) := fun d => by
    obtain same | ⟨opens, primes⟩ := gate_eq b s
    · rw [same]
    · rw [primes]
      by_cases here : b = d
      · subst here
        have held : (s.br b).dock = .held := by
          simp only [gateOpen, Bool.and_eq_true, decide_eq_true_eq] at opens
          exact opens.1.1.1.1.1
        rw [State.updBranch_br_same, held]
        simp [Branch.toPriming]
      · rw [State.updBranch_br_ne _ _ _ here]
  have strips : ∀ n, (gate b s).strip n = s.strip n := fun n => by simp [State.strip]
  rw [Bool.eq_iff_iff, frozen_iff, frozen_iff]
  simp only [AdmissionsFrozen, CommonRole, docks, strips]

theorem gateOpen_congr (kept : GateKept s t) (same : t.br b = s.br b) : gateOpen t b = gateOpen s b := by
  simp only [gateOpen, kept.rail, kept.loader, kept.frozen, same]

/-- R118: the gates of all bays open as they do one by one. -/
theorem gateAll_br (s : State) (b : BranchNo) :
    (gateAll s).br b = if gateOpen s b = true then Branch.toPriming s.params (s.br b) else s.br b := by
  refine forBranches_br (keeps := GateKept s) ⟨rfl, rfl, rfl, rfl⟩ (fun b u kept => ?_) (fun b u d => gate_br_ne b u)
    (result := fun b => if gateOpen s b = true then Branch.toPriming s.params (s.br b) else s.br b)
    (fun b u kept same => ?_) b
  · exact ⟨(gate_rail b u).trans kept.rail, (gate_loader b u).trans kept.loader, (gate_params b u).trans kept.params,
      (gate_kept_frozen b u).trans kept.frozen⟩
  · rw [← gateOpen_congr kept same, ← kept.params, ← same, gate]
    split
    · exact State.updBranch_br_same ..
    · rfl

theorem gateAll_br_of_not_held (h : (s.br b).dock ≠ .held) : (gateAll s).br b = s.br b := by
  rw [gateAll_br, if_neg]
  simp [gateOpen, h]

/-- R13: a bay primes from HELD, with no incident touched. -/
theorem gateAll_refs (s : State) (g : Target) : SameRecord s (gateAll s) g := by
  refine ⟨gateAll_ring s, ?_, ?_⟩
  all_goals
    cases g with
    | rail => simp [incidentOf, lostOf]
    | branch b =>
      simp only [incidentOf, lostOf, gateAll_br]
      split <;> rfl

/-! ## The branch itself (R25) -/

theorem Branch.respond_dock_eq (close : Option Nat) (br : Branch) : (br.respond close).dock = isolatedFrom br.dock := by
  obtain ⟨dock⟩ := br
  cases dock <;> rfl

theorem Branch.respond_record (close : Option Nat) (br : Branch) : (br.respond close).incident = br.incident ∧
    (br.respond close).lost = br.lost ∧ (br.respond close).owner = br.owner := by
  obtain ⟨dock⟩ := br
  cases dock <;> exact ⟨rfl, rfl, rfl⟩

/-- R20, R25: what shutting a participating bay sets. -/
theorem Branch.respond_of_participating {close : Option Nat} {br : Branch} (h : br.dock.participating = true) :
    (br.respond close).grant = 0 ∧ (br.respond close).commanded = 0 ∧ (br.respond close).dockTimer = close := by
  obtain ⟨dock⟩ := br
  cases dock <;> first | exact ⟨rfl, rfl, rfl⟩ | cases h

theorem Branch.respond_dockTimer_of_closing {close : Option Nat} {br : Branch}
    (h : br.dock = .releasing ∨ br.dock = .isolating) : (br.respond close).dockTimer = br.dockTimer := by
  obtain ⟨dock⟩ := br
  cases dock <;> simp at h <;> rfl

/-- The state in which a new cause stands in the set, its branch has answered and the owner line is told. -/
def causeTaken (b : BranchNo) (c : BranchCause) (s : State) : State :=
  raiseOwner b .isolated [c]
    (s.updBranch b fun br => Branch.respond (closeTimer s) { br with causes := br.causes ++ [c] })

theorem addCauseCore_eq (new : c ∉ (s.br b).causes) (x : Bool) : addCauseCore b c x s =
    if c.leak then ringAdd (.branch b) (.branch c) x (causeTaken b c s) else causeTaken b c s := by
  unfold addCauseCore
  rw [if_neg (by simpa using new)]
  rfl

theorem causeTaken_br (b : BranchNo) (c : BranchCause) (s : State) : (causeTaken b c s).br b =
    Branch.respond (closeTimer s) { s.br b with causes := (s.br b).causes ++ [c] } := by
  simp [causeTaken]

theorem causeTaken_record (b : BranchNo) (c : BranchCause) (s : State) (g : Target) : SameRecord s (causeTaken b c s) g := by
  refine ⟨by simp [causeTaken], ?_, ?_⟩
  all_goals
    cases g with
    | rail => simp [incidentOf, lostOf, causeTaken]
    | branch d =>
      by_cases same : b = d
      · subst same
        simp only [incidentOf, lostOf, causeTaken_br, Branch.respond_record]
      · simp [incidentOf, lostOf, causeTaken, same]

theorem causeTaken_told (b : BranchNo) (c : BranchCause) (s : State) : ToldOwner s (causeTaken b c s) b .isolated := by
  refine toldOwner_raiseOwner ?_
  rw [State.updBranch_br_same]
  exact (Branch.respond_record ..).2.2

theorem addCauseCore_told (new : c ∉ (s.br b).causes) (x : Bool) : ToldOwner s (addCauseCore b c x s) b .isolated := by
  intro o owner
  have told := causeTaken_told b c s o owner
  rw [addCauseCore_eq new]
  split
  · exact (ringAdd_grows ..).pending told
  · exact told

/-- COMMANDED and RAIL never come to the ring. -/
theorem addCauseCore_record (plain : c.leak = false) (b : BranchNo) (x : Bool) (s : State) (g : Target) :
    SameRecord s (addCauseCore b c x s) g := by
  by_cases new : c ∈ (s.br b).causes
  · rw [addCauseCore_of_mem b c x s new]
    exact ⟨rfl, rfl, rfl⟩
  · rw [addCauseCore_eq new, plain]
    exact causeTaken_record b c s g

theorem causeTaken_meter (b : BranchNo) (c : BranchCause) (s : State) : (causeTaken b c s).meter = s.meter := by
  simp [causeTaken]

theorem addCauseCore_recorded (new : c ∉ (s.br b).causes) (leak : c.leak = true) (x : Bool) :
    Recorded s (addCauseCore b c x s) (.branch b) (.branch c) x := by
  rw [addCauseCore_eq new, leak]
  exact recorded_from (ringAdd_recorded _ _ _ _) (causeTaken_record b c s _) (causeTaken_meter b c s)

/-- R25: the dock state after a new cause. -/
theorem addCauseCore_dock (new : c ∉ (s.br b).causes) (x : Bool) :
    ((addCauseCore b c x s).br b).dock = isolatedFrom (s.br b).dock := by
  rw [addCauseCore_br_same b c x s new]
  exact Branch.respond_dock_eq ..

theorem addCauseCore_causes (new : c ∉ (s.br b).causes) (x : Bool) :
    ((addCauseCore b c x s).br b).causes = (s.br b).causes ++ [c] := by
  rw [addCauseCore_br_same b c x s new]
  exact Branch.respond_causes ..

/-! ## A cause that may take the bay out of VACANT -/

theorem addBranchCause_of_occupied (occupied : (s.br b).dock ≠ .vacant) (c : BranchCause) (x : Bool) :
    addBranchCause b c x s = addCauseCore b c x s := by
  simp [addBranchCause, occupied]

theorem addBranchCause_of_vacant (vacant : (s.br b).dock = .vacant) (new : c ∉ (s.br b).causes) (x : Bool) :
    addBranchCause b c x s = leftVacant b (addCauseCore b c x s) := by
  have isolated := addCauseCore_dock new x
  rw [vacant] at isolated
  rw [addBranchCause, if_pos]
  simp [vacant, isolated, isolatedFrom]

/-- R5, R126: a bay that a cause took out of VACANT gets RAIL too while the rail is not OPEN. -/
theorem leftVacant_br (isolated : (s.br b).dock = .isolated) : (leftVacant b s).br b =
    if s.rail.state = .opened then s.br b else (addCauseCore b .rail false s).br b := by
  have stays : ((addCauseCore b .rail false s).br b).dock = .isolated := by
    by_cases new : BranchCause.rail ∈ (s.br b).causes
    · rwa [addCauseCore_of_mem b .rail false s new]
    · rw [addCauseCore_dock new, isolated]
      rfl
  unfold leftVacant
  dsimp only
  split
  · exact gateAll_br_of_not_held (by rw [isolated]; decide)
  · exact gateAll_br_of_not_held (by rw [stays]; decide)

/-- R25: a cause changes nothing of a bay in ISOLATED but its set. -/
theorem Branch.respond_of_isolated {close : Option Nat} {br : Branch} (h : br.dock = .isolated) : br.respond close = br := by
  rw [Branch.respond, h]

theorem addCauseCore_rail_of_isolated (isolated : (s.br b).dock = .isolated) : (addCauseCore b .rail false s).br b =
    { s.br b with causes := if BranchCause.rail ∈ (s.br b).causes then (s.br b).causes else (s.br b).causes ++ [.rail] } := by
  split
  case isTrue held => rw [addCauseCore_of_mem b .rail false s held]
  case isFalse new =>
    rw [addCauseCore_eq new]
    exact (causeTaken_br b .rail s).trans (Branch.respond_of_isolated isolated)

theorem leftVacant_own (isolated : (s.br b).dock = .isolated) :
    ∃ causes, (∀ c ∈ (s.br b).causes, c ∈ causes) ∧ (leftVacant b s).br b = { s.br b with causes := causes } := by
  rw [leftVacant_br isolated]
  split
  · exact ⟨_, fun _ => id, rfl⟩
  · refine ⟨_, fun c held => ?_, addCauseCore_rail_of_isolated isolated⟩
    split
    · exact held
    · exact List.mem_append_left _ held

theorem leftVacant_record (b : BranchNo) (s : State) (g : Target) : SameRecord s (leftVacant b s) g := by
  unfold leftVacant
  dsimp only
  refine .trans ?_ (gateAll_refs _ g)
  split
  · exact ⟨rfl, rfl, rfl⟩
  · exact addCauseCore_record rfl b false s g

theorem leftVacant_stands (isolated : (s.br b).dock = .isolated) : Stands s (leftVacant b s) (.branch b) := by
  obtain ⟨causes, -, own⟩ := leftVacant_own isolated
  have strip : ∀ n, (leftVacant b s).strip n = s.strip n := fun n => by simp [State.strip]
  have snap : ∀ c, (leftVacant b s).snapChannel c = s.snapChannel c := fun c => by simp [State.snapChannel]
  exact ⟨by simp only [integratorOf, own], by simp only [closedNow, own], by simp only [wetNow, strip],
    by simp only [flowNow, snap]⟩

/-- What a cause new to a branch's set does, whatever the dock state. -/
structure Isolates (b : BranchNo) (c : BranchCause) (x : Bool) (s t : State) : Prop where
  dock : (t.br b).dock = isolatedFrom (s.br b).dock
  held : c ∈ (t.br b).causes
  told : ToldOwner s t b .isolated
  rail : t.rail = s.rail
  only : CauseOnly s t
  grows : AttnGrows s t
  record : c.leak = false → ∀ g, SameRecord s t g
  recorded : c.leak = true → Recorded s t (.branch b) (.branch c) x
  causes : (s.br b).dock ≠ .vacant → (t.br b).causes = (s.br b).causes ++ [c]
  others : (s.br b).dock ≠ .vacant → OthersKept s t b
  shut : (s.br b).dock.participating = true →
    (t.br b).grant = 0 ∧ (t.br b).commanded = 0 ∧ (t.br b).dockTimer = closeTimer s
  closing : (s.br b).dock = .releasing ∨ (s.br b).dock = .isolating → (t.br b).dockTimer = (s.br b).dockTimer

/-- R25, R124, R144: a cause new to the set. -/
theorem addCauseCore_isolates (new : c ∉ (s.br b).causes) (x : Bool) : Isolates b c x s (addCauseCore b c x s) where
  dock := addCauseCore_dock new x
  held := mem_causes_addCauseCore b c x s
  told := addCauseCore_told new x
  rail := addCauseCore_rail b c x s
  only := addCauseCore_causeOnly b c x s
  grows := addCauseCore_grows b c x s
  record plain g := addCauseCore_record plain b x s g
  recorded leak := addCauseCore_recorded new leak x
  causes _ := addCauseCore_causes new x
  others _ d other := addCauseCore_br_ne b c x s other.symm
  shut participating := by
    rw [addCauseCore_br_same b c x s new]
    exact Branch.respond_of_participating participating
  closing from_ := by
    rw [addCauseCore_br_same b c x s new]
    exact Branch.respond_dockTimer_of_closing from_

/-- R25, R126: a cause new to the set, the bay taken out of VACANT where it stood there. -/
theorem addBranchCause_isolates (new : c ∉ (s.br b).causes) (x : Bool) : Isolates b c x s (addBranchCause b c x s) := by
  have core := addCauseCore_isolates new x
  by_cases vacant : (s.br b).dock = .vacant
  · have isolated : ((addCauseCore b c x s).br b).dock = .isolated := by rw [core.dock, vacant]; rfl
    obtain ⟨causes, kept, own⟩ := leftVacant_own isolated
    rw [addBranchCause_of_vacant vacant new]
    exact
      { dock := by rw [own]; exact core.dock
        held := by rw [own]; exact kept c core.held
        told := fun o owner => (leftVacant_grows ..).pending (core.told o owner)
        rail := (leftVacant_rail ..).trans core.rail
        only := core.only.trans (leftVacant_causeOnly ..)
        grows := core.grows.trans (leftVacant_grows ..)
        record := fun plain g => (core.record plain g).trans (leftVacant_record b _ g)
        recorded := fun leak => recorded_to (core.recorded leak) (leftVacant_record b _ _) (leftVacant_stands isolated)
          (leftVacant_grows ..)
        causes := fun occupied => absurd vacant occupied
        others := fun occupied => absurd vacant occupied
        shut := fun participating => by rw [vacant] at participating; cases participating
        closing := fun from_ => by rw [vacant] at from_; rcases from_ with h | h <;> cases h }
  · rw [addBranchCause_of_occupied vacant]
    exact core

theorem addBranchCause_of_mem (held : c ∈ (s.br b).causes) (x : Bool) : addBranchCause b c x s = s := by
  by_cases vacant : (s.br b).dock = .vacant
  · simp [addBranchCause, addCauseCore_of_mem b c x s held, vacant]
  · rw [addBranchCause_of_occupied vacant, addCauseCore_of_mem b c x s held]

end

/-! ## A cause added to the rail (R124, R130 to R133, R141) -/

section
variable {s t u : State} {c : RailCause}

/-- What a cause new to the rail set does. -/
structure RailAnswers (c : RailCause) (s t : State) : Prop where
  causes : t.rail.causes = s.rail.causes ++ [c]
  state : t.rail.state = railAfterCause s.rail.state
  account : t.rail.account = s.rail.account
  closing : s.rail.state = .opened ∨ s.rail.state = .opening → t.valves = { s.valves with railCommanded := 0 } ∧
    t.rail.timer = if s.loader.loading = true then none else some (s.params.railCloseTime * 1000)
  shut : s.rail.state = .closing ∨ s.rail.state = .closed → t.valves = s.valves ∧ t.rail.timer = s.rail.timer
  branches : s.rail.state ≠ .opened → t.branches = s.branches
  holds : s.rail.state = .opened → ∀ b, (s.br b).dock ≠ .vacant → BranchCause.rail ∈ (t.br b).causes
  iso : t.iso = { s.iso with tripOut := tripOutOf t.rail.causes }
  only : CauseOnly s t
  grows : AttnGrows s t
  attn : c.leak = false → s.rail.state ≠ .opened → t.attn = s.attn
  record : c.leak = false → ∀ g, SameRecord s t g
  recorded : c.leak = true → Recorded s t .rail (.rail c) false

theorem addRailToOccupied_record (s : State) (g : Target) : SameRecord s (addRailToOccupied s) g :=
  forBranches_inv (fun u => SameRecord s u g) _ (fun b u same => by
    split
    · exact same
    · exact same.trans (addCauseCore_record rfl b false u g)) s ⟨rfl, rfl, rfl⟩

/-- R126: RAIL added to an occupied bay leaves every bay occupied that was. -/
theorem addRailToOccupied_dock_iff (s : State) (b : BranchNo) :
    ((addRailToOccupied s).br b).dock = .vacant ↔ (s.br b).dock = .vacant := by
  have turn : ∀ d u, (((if (u.br d).dock = .vacant then u else addCauseCore d .rail false u).br b).dock = .vacant ↔
      (u.br b).dock = .vacant) := fun d u => by
    split
    case isTrue => rfl
    case isFalse occupied =>
      by_cases same : d = b
      · subst same
        by_cases new : BranchCause.rail ∈ (u.br d).causes
        · rw [addCauseCore_of_mem _ _ _ _ new]
        · rw [addCauseCore_dock new]
          cases dock : (u.br d).dock <;> simp_all [isolatedFrom]
      · rw [addCauseCore_br_ne _ _ _ _ same]
  exact forBranches_inv (fun u => (u.br b).dock = .vacant ↔ (s.br b).dock = .vacant) _
    (fun d u same => (turn d u).trans same) s Iff.rfl

/-- The state in which a new cause stands in the rail set and the rail has answered. -/
def railAnswered (c : RailCause) (s : State) : State :=
  driveTripOut (if s.rail.state = .opened then addRailToOccupied (railTakes c s) else railTakes c s)

theorem addRailCause_eq (new : c ∉ s.rail.causes) :
    addRailCause c s = if c.leak then ringAdd .rail (.rail c) false (railAnswered c s) else railAnswered c s := by
  unfold addRailCause
  rw [if_neg (by simpa using new)]
  dsimp only
  rw [railRespond_eq]
  rfl

theorem addRailCause_of_mem (held : c ∈ s.rail.causes) : addRailCause c s = s := by simp [addRailCause, held]

theorem railAnswered_rail (c : RailCause) (s : State) : (railAnswered c s).rail = (railTakes c s).rail := by
  unfold railAnswered
  split <;> simp

theorem railTakes_rail (c : RailCause) (s : State) : (railTakes c s).rail = { s.rail with
    causes := s.rail.causes ++ [c]
    state := railAfterCause s.rail.state
    timer := if s.rail.state = .opened ∨ s.rail.state = .opening then
      (if s.loader.loading then none else some (s.params.railCloseTime * 1000)) else s.rail.timer } := by
  unfold railTakes
  cases state : s.rail.state <;> simp [railAfterCause, enterClosing, state] <;> rfl

theorem railTakes_valves (c : RailCause) (s : State) : (railTakes c s).valves =
    if s.rail.state = .opened ∨ s.rail.state = .opening then { s.valves with railCommanded := 0 } else s.valves := by
  unfold railTakes
  cases state : s.rail.state <;> simp [enterClosing]

theorem railTakes_record (c : RailCause) (s : State) (g : Target) : SameRecord s (railTakes c s) g := by
  refine ⟨?_, ?_, ?_⟩
  · unfold railTakes
    split <;> rfl
  · cases g <;> simp [incidentOf, railTakes_rail]
  · cases g <;> simp [lostOf, railTakes_rail]

theorem railAnswered_record (c : RailCause) (s : State) (g : Target) : SameRecord s (railAnswered c s) g := by
  have taken := railTakes_record c s g
  have driven : ∀ u, SameRecord u (driveTripOut u) g := fun u => ⟨rfl, by cases g <;> rfl, by cases g <;> rfl⟩
  refine .trans ?_ (driven _)
  split
  · exact taken.trans (addRailToOccupied_record _ g)
  · exact taken

theorem railAnswered_valves (c : RailCause) (s : State) : (railAnswered c s).valves =
    if s.rail.state = .opened ∨ s.rail.state = .opening then { s.valves with railCommanded := 0 } else s.valves := by
  rw [← railTakes_valves c s]
  unfold railAnswered
  split <;> simp

theorem railAnswered_iso (c : RailCause) (s : State) :
    (railAnswered c s).iso = { s.iso with tripOut := tripOutOf (railAnswered c s).rail.causes } := by
  unfold railAnswered
  split <;> simp [driveTripOut]

/-- R131: a rail that is not OPEN answers a cause within itself. -/
theorem railAnswered_of_not_opened (shut : s.rail.state ≠ .opened) (c : RailCause) :
    (railAnswered c s).branches = s.branches ∧ (railAnswered c s).attn = s.attn := by
  unfold railAnswered railTakes
  cases state : s.rail.state <;> first | exact absurd state shut | exact ⟨rfl, rfl⟩

theorem railAnswered_holds (opened : s.rail.state = .opened) {b : BranchNo} (occupied : (s.br b).dock ≠ .vacant) :
    BranchCause.rail ∈ ((railAnswered c s).br b).causes := by
  have held := addRailToOccupied_holdsRail (railTakes c s) b
  have occupied' : ((addRailToOccupied (railTakes c s)).br b).dock ≠ .vacant := by
    rwa [Ne, addRailToOccupied_dock_iff, railTakes_br]
  rw [railAnswered, if_pos opened, State.br, driveTripOut_branches]
  exact held occupied'

theorem railAnswered_causeOnly (c : RailCause) (s : State) : CauseOnly s (railAnswered c s) := by
  have taken : CauseOnly s (railTakes c s) := by
    unfold railTakes
    split <;> rfl
  have driven : ∀ u, CauseOnly u (driveTripOut u) := fun u => rfl
  unfold railAnswered
  refine .trans ?_ (driven _)
  split
  · exact taken.trans (addRailToOccupied_causeOnly _)
  · exact taken

theorem railAnswered_grows (c : RailCause) (s : State) : AttnGrows s (railAnswered c s) := by
  have taken : AttnGrows s (railTakes c s) := .of_attn (railTakes_attn c s)
  unfold railAnswered
  refine .trans ?_ (.of_attn (driveTripOut_attn _))
  split
  · exact taken.trans (addRailToOccupied_grows _)
  · exact taken

theorem ringAdd_rail_branches (c : Cause) (x : Bool) (s : State) : (ringAdd .rail c x s).branches = s.branches := by
  unfold ringAdd
  split
  · split <;> rfl
  · split
    · rw [openRecord_eq]
      split
      · exact closeRecord_branches ..
      · rfl
    · rfl

/-- R124, R130 to R133: a cause new to the rail set. -/
theorem addRailCause_answers (new : c ∉ s.rail.causes) : RailAnswers c s (addRailCause c s) := by
  have rail := (railAnswered_rail c s).trans (railTakes_rail c s)
  have valves := railAnswered_valves c s
  have iso := railAnswered_iso c s
  have record := railAnswered_record c s
  have only := railAnswered_causeOnly c s
  have grows := railAnswered_grows c s
  have shut := fun h => railAnswered_of_not_opened (s := s) h c
  have holds := fun opened b occupied => railAnswered_holds (c := c) (s := s) opened (b := b) occupied
  have answered := addRailCause_eq new
  have ring := ringAdd_same .rail (.rail c) false (railAnswered c s)
  have told := recorded_from (ringAdd_recorded .rail (.rail c) false (railAnswered c s)) (record _) (by rw [only])
  have after : ∀ t, t = addRailCause c s → t.branches = (railAnswered c s).branches ∧ t.valves = (railAnswered c s).valves ∧
      t.iso = (railAnswered c s).iso ∧ t.rail.causes = (railAnswered c s).rail.causes ∧
      t.rail.state = (railAnswered c s).rail.state ∧ t.rail.timer = (railAnswered c s).rail.timer ∧
      t.rail.account = (railAnswered c s).rail.account ∧ CauseOnly (railAnswered c s) t ∧
      AttnGrows (railAnswered c s) t := by
    rintro t rfl
    rw [answered]
    split
    · exact ⟨ringAdd_rail_branches .., ringAdd_valves .., ringAdd_iso .., by rw [ring.rail], by rw [ring.rail],
        by rw [ring.rail], by rw [ring.rail], ringAdd_causeOnly .., ringAdd_grows ..⟩
    · exact ⟨rfl, rfl, rfl, rfl, rfl, rfl, rfl, .refl _, .refl _⟩
  obtain ⟨branches', valves', iso', causes', state', timer', account', only', grows'⟩ := after _ rfl
  rw [rail] at causes' state' timer' account'
  rw [valves] at valves'
  exact
    { causes := causes'
      state := state'
      account := account'
      closing := fun from_ => ⟨valves'.trans (if_pos from_), timer'.trans (if_pos from_)⟩
      shut := fun from_ => by
        have not : ¬(s.rail.state = .opened ∨ s.rail.state = .opening) := by
          rcases from_ with h | h <;> simp [h]
        exact ⟨valves'.trans (if_neg not), timer'.trans (if_neg not)⟩
      branches := fun h => branches'.trans (shut h).1
      holds := fun opened b occupied => by
        rw [State.br, branches']
        exact holds opened b occupied
      iso := by rw [iso', iso, causes', rail]
      only := only.trans only'
      grows := grows.trans grows'
      attn := fun plain h => by rw [answered, plain]; exact (shut h).2
      record := fun plain g => by rw [answered, plain]; exact record g
      recorded := fun leak => by rw [answered, leak]; exact told }

end
end Sys2Proof.Machine
end

section
/-! PROOF. The requests to the Isolation Controller: ISOLATE, CLEAR_CAUSE, RESTORE, PLANT_STOP and PLANT_RESUME (O31 to
O35). -/

namespace Sys2Proof.Machine

open Sys2Proof Sys2Proof.Safety

section
variable {s t u : State} {tag : Byte} {b : BranchNo}

/-! ## ISOLATE (R127) -/

theorem CauseOnly.baysOnly (only : CauseOnly s t) (rail : t.rail = s.rail) (ring : t.ring = s.ring)
    (valves : t.valves = s.valves) (iso : t.iso = s.iso) : BaysOnly s t := by
  rw [CauseOnly, rail, ring, valves, iso] at only
  exact ⟨_, _, only⟩

theorem CauseOnly.lines (only : CauseOnly s t) : t.lines = s.lines := by rw [only]

theorem exec_isolate_of_handed {g : Target} (h : Handed s supLine tag (.isolate g)) :
    exec .isolate s = .next (replySet .isolate tag .ok g (isolateTarget g s)) := by
  simp only [exec, execIsolate, h]

theorem participating_iff (d : DockState) :
    d.participating = true ↔ d ∈ [DockState.priming, .admitted, .adopting] := by
  cases d <;> decide

theorem closeTimer_eq (s : State) :
    closeTimer s = if s.loader.loading = true then none else some (s.params.closeTime * 1000) := rfl

/-- A reply leaves every record as it is. -/
@[simp] theorem replySet_br (k : Kind) (st : Status) (g : Target) (s : State) (b : BranchNo) :
    (replySet k tag st g s).br b = s.br b := rfl

theorem replySet_eq (k : Kind) (st : Status) (g : Target) (s : State) :
    replySet k tag st g s = startReply supLine k.code tag st (toOctets 2 (targetSet s g)) s := rfl

/-- Settles O31: a cause new to the set is `addBranchCause_isolates` and `addRailCause_answers`. -/
theorem isolateAddsCommanded : Obligations.IsolateAddsCommanded := by
  unfold Obligations.IsolateAddsCommanded
  refine fun s tag b => ⟨fun handed => ⟨fun held => ?_, fun new => ?_⟩, fun handed => ⟨fun held => ?_, fun new => ?_⟩⟩
  · rw [exec_isolate_of_handed handed, isolateTarget, addBranchCause_of_mem held]
    rfl
  · have effect := addBranchCause_isolates new false
    have record := effect.record rfl (.branch b)
    have bays : BaysOnly s (addBranchCause b .commanded false s) :=
      effect.only.baysOnly effect.rail record.ring (addBranchCause_valves ..) (addBranchCause_iso ..)
    rw [exec_isolate_of_handed handed, isolateTarget]
    refine ⟨_, rfl, startReply_replies bays.lines .., effect.held, effect.dock, effect.told, record.ring, effect.rail,
      fun participates => ?_, fun closes => effect.closing (by simpa using closes), fun occupied =>
      ⟨effect.causes occupied, effect.others occupied, bays.replied ..⟩⟩
    exact effect.shut ((participating_iff _).2 participates)
  · rw [exec_isolate_of_handed handed, isolateTarget, addRailCause_of_mem held]
    rfl
  · have effect := addRailCause_answers new
    rw [exec_isolate_of_handed handed, isolateTarget]
    refine ⟨_, rfl, startReply_replies effect.only.lines .., effect.causes, effect.state, (effect.record rfl .rail).ring,
      fun closing => ?_, fun shut => (effect.shut (by simpa using shut)).2,
      fun shut => ⟨effect.branches shut, effect.attn rfl shut⟩, effect.holds⟩
    obtain ⟨valves, timer⟩ := effect.closing (by simpa using closing)
    exact ⟨congrArg (·.railCommanded) valves, timer⟩

/-! ## CLEAR_CAUSE of a branch (R125, R128) -/

theorem exec_clearCause_of_handed {g : Target} {code : Nat} (h : Handed s supLine tag (.clearCause g code)) :
    exec .clearCause s = .next (replySet .clearCause tag (clearStatus s code g) g (clearTarget g code s)) := by
  simp only [exec, execClearCause, h]

theorem branchCause_ofCode_code (c : BranchCause) : BranchCause.ofCode c.code = some c := by cases c <;> rfl

theorem branchCause_ofCode_beyond {code : Nat} (h : 10 < code) : BranchCause.ofCode code = none := by
  unfold BranchCause.ofCode
  split
  case h_12 => rfl
  all_goals omega

theorem branchLeak_iff (c : BranchCause) : c.leak = true ↔ c ≠ .commanded ∧ c ≠ .rail := by cases c <;> decide

theorem trayWet_iff (s : State) (b : BranchNo) : trayWet s b = true ↔ (s.strip (trayStrip b)).state = .wet :=
  decide_eq_true_iff

section
variable {c : BranchCause} {code : Nat}

theorem clearBranchTest_eq (hc : c.code = code) : clearBranchTest s b code =
    if c ∉ (s.br b).causes then (.ok, none)
    else if c = .rail then (.notServed, none)
    else if c = .trayWet ∧ (s.strip (trayStrip b)).state = .wet then (.stillWet, none)
    else if (c ≠ .commanded ∧ c ≠ .rail) ∧ (s.br b).incident ≠ none then (.incidentOpen, none)
    else (.ok, some c) := by
  simp only [clearBranchTest, ← hc, branchCause_ofCode_code, Bool.not_eq_true', Bool.and_eq_true, decide_eq_true_eq,
    trayWet_iff, branchLeak_iff, Option.isSome_iff_ne_none, List.contains_eq_mem, decide_eq_false_iff_not]

/-- R128: the test that a cause fails leaves the state as it is. -/
theorem execClearBranch_refused (h : Handed s supLine tag (.clearCause (.branch b) code)) {st : Status}
    (test : clearBranchTest s b code = (st, none)) : exec .clearCause s =
      .next (replied s supLine 0x94 tag (st.code :: toOctets 2 (branchSetBits (s.br b).causes))) := by
  rw [exec_clearCause_of_handed h, clearStatus, clearTarget, clearBranch, test]
  rfl

theorem execClearBranch_removed (h : Handed s supLine tag (.clearCause (.branch b) code))
    (test : clearBranchTest s b code = (.ok, some c)) : exec .clearCause s =
      .next (replySet .clearCause tag .ok (.branch b) (removeBranchCause b c s)) := by
  rw [exec_clearCause_of_handed h, clearStatus, clearTarget, clearBranch, test]

theorem filter_ne_eq_nil {α : Type} [DecidableEq α] (xs : List α) (x : α) :
    xs.filter (· ≠ x) = [] ↔ ∀ y ∈ xs, y = x := by
  simp [List.filter_eq_nil_iff]

/-- R125: a cause that is not the last one, or leaves a bay outside ISOLATED, is taken from the set and nothing else. -/
theorem removeBranchCause_of_rest (held : c ∈ (s.br b).causes)
    (rest : (∃ d ∈ (s.br b).causes, d ≠ c) ∨ (s.br b).dock ≠ .isolated) : removeBranchCause b c s =
      s.updBranch b fun br => { br with causes := br.causes.filter (· ≠ c) } := by
  unfold removeBranchCause
  rw [if_pos (by simpa using held)]
  dsimp only
  rw [if_neg]
  rw [State.updBranch_br_same]
  simp only [Bool.and_eq_true, decide_eq_true_eq, List.isEmpty_iff, filter_ne_eq_nil]
  rintro ⟨last, isolated⟩
  rcases rest with ⟨d, there, other⟩ | elsewhere
  · exact other (last d there)
  · exact elsewhere isolated

/-- R27, R125: the last cause takes a bay in ISOLATED to the state of its contacts. -/
theorem removeBranchCause_of_last (held : c ∈ (s.br b).causes) (last : ∀ d ∈ (s.br b).causes, d = c)
    (isolated : (s.br b).dock = .isolated) : removeBranchCause b c s =
      enterByContacts b (s.updBranch b fun br => { br with causes := br.causes.filter (· ≠ c) }) := by
  unfold removeBranchCause
  rw [if_pos (by simpa using held)]
  dsimp only
  rw [if_pos]
  rw [State.updBranch_br_same]
  simp only [Bool.and_eq_true, decide_eq_true_eq, List.isEmpty_iff, filter_ne_eq_nil]
  exact ⟨last, isolated⟩

end

/-! ## By the contacts (R9 to R11, R27) -/

theorem addRailCause_vacant_iff (c : RailCause) (s : State) (b : BranchNo) :
    ((addRailCause c s).br b).dock = .vacant ↔ (s.br b).dock = .vacant := by
  by_cases new : c ∈ s.rail.causes
  · rw [addRailCause_of_mem new]
  · have answered : ((railAnswered c s).br b).dock = .vacant ↔ (s.br b).dock = .vacant := by
      rw [railAnswered, State.br, driveTripOut_branches]
      split
      · exact (addRailToOccupied_dock_iff ..).trans (by rw [railTakes_br])
      · exact Iff.of_eq (congrArg (fun br : Branch => br.dock = .vacant) (railTakes_br c s b))
    rw [addRailCause_eq new]
    split
    · rw [(ringAdd_same ..).dock]
      exact answered
    · exact answered

theorem commonWet_vacant_iff (n : StripNo) (s : State) (b : BranchNo) :
    ((commonWet n s).br b).dock = .vacant ↔ (s.br b).dock = .vacant := by
  unfold commonWet
  dsimp only
  split
  · rfl
  · rfl
  · exact addRailCause_vacant_iff ..

theorem enterVacant_dock (b : BranchNo) (s : State) : ((enterVacant b s).br b).dock = .vacant := by
  have entered : ((s.updBranch b Branch.toVacant).br b).dock = .vacant := by
    rw [State.updBranch_br_same]
    rfl
  unfold enterVacant
  dsimp only
  split
  · exact (commonWet_vacant_iff ..).2 entered
  · exact entered

/-- R11: with the hold on, or a Seat Settle that is not 0, a bay entering HELD waits there. -/
theorem enterHeld_of_waits (waits : (s.br b).hold = true ∨ s.params.seatSettle ≠ 0) :
    enterHeld b false s = s.updBranch b (Branch.toHeld s.params.seatSettle false) := by
  unfold enterHeld
  dsimp only
  rw [if_neg]
  rw [State.updBranch_br_same]
  rcases waits with hold | settle
  · simp [Branch.toHeld, hold]
  · simp [Branch.toHeld, settle]

theorem enterByContacts_dock (waits : (s.br b).hold = true ∨ s.params.seatSettle ≠ 0) :
    ((enterByContacts b s).br b).dock = dockByContacts (s.br b) := by
  unfold enterByContacts dockByContacts
  by_cases present : (s.br b).present = true
  · simp only [present]
    by_cases latched : (s.br b).latched = true
    · rw [if_neg (by decide), if_pos latched, enterHeld_of_waits waits, State.updBranch_br_same]
      simp [latched, Branch.toHeld]
    · rw [if_neg (by decide), if_neg latched, enterSeated, State.updBranch_br_same]
      simp [latched, Branch.toSeated]
  · rw [if_pos (by simpa using present), if_pos (by simpa using present), enterVacant_dock]

/-- Settles O32: the tests are `clearBranchTest_eq`, the removal the two ways a set can be left. -/
theorem clearCauseOfABranchMakesItsTests : Obligations.ClearCauseOfABranchMakesItsTests := by
  unfold Obligations.ClearCauseOfABranchMakesItsTests
  refine fun s tag b code handed => ⟨fun beyond => ?_, fun c hc => ⟨fun absent => ?_, fun held own => ?_,
    fun held wet => ?_, fun held dry leak incident => ?_, fun held other dry closed => ?_⟩⟩
  · refine execClearBranch_refused (st := .notServed) handed ?_
    rw [clearBranchTest, branchCause_ofCode_beyond beyond]
  · refine execClearBranch_refused (st := .ok) handed ?_
    rw [clearBranchTest_eq hc, if_pos absent]
  · refine execClearBranch_refused (st := .notServed) handed ?_
    rw [clearBranchTest_eq hc, if_neg (not_not.2 held), if_pos own]
  · have other : c ≠ .rail := by rw [wet.1]; decide
    refine execClearBranch_refused (st := .stillWet) handed ?_
    rw [clearBranchTest_eq hc, if_neg (not_not.2 held), if_neg other, if_pos wet]
  · refine execClearBranch_refused (st := .incidentOpen) handed ?_
    rw [clearBranchTest_eq hc, if_neg (not_not.2 held), if_neg leak.2, if_neg dry, if_pos ⟨leak, incident⟩]
  · have removed := execClearBranch_removed handed (c := c) (by
      rw [clearBranchTest_eq hc, if_neg (not_not.2 held), if_neg other, if_neg dry, if_neg closed])
    refine ⟨_, removed, startReply_replies (removeBranchCause_lines b c s) .., fun rest => ?_, fun last isolated waits => ?_⟩
    · rw [removeBranchCause_of_rest held rest]
      rfl
    · rw [removeBranchCause_of_last held last isolated, replySet_br, enterByContacts_dock]
      · rw [State.updBranch_br_same]
        rfl
      · rw [State.updBranch_br_same]
        exact waits

/-! ## A cause removed from the rail (R125, R132) -/

section
variable {c : RailCause} {code : Nat}

/-- The rail set without a cause, TRIP_OUT following it. -/
def railWithout (c : RailCause) (s : State) : State :=
  driveTripOut (s.updRail fun r => { r with causes := r.causes.filter (· ≠ c) })

theorem removeRailCause_of_absent (h : c ∉ s.rail.causes) : removeRailCause c s = s := by simp [removeRailCause, h]

theorem removeRailCause_of_rest (held : c ∈ s.rail.causes) (rest : ¬(s.rail.state = .closed ∧ ∀ d ∈ s.rail.causes, d = c)) :
    removeRailCause c s = railWithout c s := by
  unfold removeRailCause
  rw [if_pos (by simpa using held)]
  dsimp only
  rw [if_neg]
  · rfl
  · simp only [driveTripOut_rail, State.updRail_rail, Bool.and_eq_true, List.isEmpty_iff, filter_ne_eq_nil]
    exact fun h => rest ⟨of_decide_eq_true h.2, h.1⟩

theorem removeRailCause_of_last (held : c ∈ s.rail.causes) (closed : s.rail.state = .closed)
    (last : ∀ d ∈ s.rail.causes, d = c) : removeRailCause c s = enterOpening (railWithout c s) := by
  unfold removeRailCause
  rw [if_pos (by simpa using held)]
  dsimp only
  rw [if_pos]
  · rfl
  · simp only [driveTripOut_rail, State.updRail_rail, Bool.and_eq_true, List.isEmpty_iff, filter_ne_eq_nil]
    exact ⟨last, decide_eq_true closed⟩

/-- What a cause taken from the rail set leaves. -/
structure RailReleased (c : RailCause) (s t : State) : Prop where
  causes : t.rail.causes = s.rail.causes.filter (· ≠ c)
  incident : t.rail.incident = s.rail.incident
  opening : s.rail.state = .closed → c ∈ s.rail.causes → (∀ d ∈ s.rail.causes, d = c) →
    t.rail.state = .opening ∧ t.valves = { s.valves with railCommanded := 1000 } ∧
      t.rail.timer = if s.loader.loading = true then none else some (s.params.railOpenTime * 1000)
  stays : s.rail.state ≠ .closed ∨ c ∉ s.rail.causes ∨ (∃ d ∈ s.rail.causes, d ≠ c) →
    t.rail.state = s.rail.state ∧ t.rail.timer = s.rail.timer ∧ t.valves = s.valves
  frame : t = { s with rail := t.rail, iso := t.iso, valves := t.valves }

theorem removeRailCause_released (c : RailCause) (s : State) : RailReleased c s (removeRailCause c s) := by
  by_cases held : c ∈ s.rail.causes
  · by_cases open_ : s.rail.state = .closed ∧ ∀ d ∈ s.rail.causes, d = c
    · rw [removeRailCause_of_last held open_.1 open_.2]
      refine ⟨rfl, rfl, fun _ _ _ => ⟨rfl, rfl, rfl⟩, fun stays => ?_, rfl⟩
      rcases stays with elsewhere | absent | ⟨d, there, other⟩
      · exact absurd open_.1 elsewhere
      · exact absurd held absent
      · exact absurd (open_.2 d there) other
    · rw [removeRailCause_of_rest held open_]
      exact ⟨rfl, rfl, fun closed _ last => absurd ⟨closed, last⟩ open_, fun _ => ⟨rfl, rfl, rfl⟩, rfl⟩
  · rw [removeRailCause_of_absent held]
    refine ⟨(List.filter_eq_self.2 fun d there => ?_).symm, rfl, fun _ there => absurd there held, fun _ => ⟨rfl, rfl, rfl⟩, rfl⟩
    exact decide_eq_true fun same => held (same ▸ there)

/-! ## CLEAR_CAUSE of the rail (R128) -/

theorem railCause_ofCode_code (c : RailCause) : RailCause.ofCode c.code = some c := by cases c <;> rfl

theorem railCause_ofCode_beyond {code : Nat} (h : 4 < code) : RailCause.ofCode code = none := by
  unfold RailCause.ofCode
  split
  case h_6 => rfl
  all_goals omega

theorem clearRailTest_eq (hc : c.code = code) : clearRailTest s code =
    if c ∉ s.rail.causes then (.ok, none)
    else if c = .tripLine ∨ c = .plantStop then (.notServed, none)
    else if c = .commonRail ∧ AdmissionsFrozen s then (.stillWet, none)
    else if c.leak = true ∧ s.rail.incident ≠ none then (.incidentOpen, none)
    else (.ok, some c) := by
  simp only [clearRailTest, ← hc, railCause_ofCode_code, Bool.not_eq_true', Bool.and_eq_true, Bool.or_eq_true,
    decide_eq_true_eq, frozen_iff, Option.isSome_iff_ne_none, List.contains_eq_mem, decide_eq_false_iff_not]

theorem execClearRail_refused (h : Handed s supLine tag (.clearCause .rail code)) {st : Status}
    (test : clearRailTest s code = (st, none)) : exec .clearCause s =
      .next (replied s supLine 0x94 tag (st.code :: toOctets 2 (railSetBits s.rail.causes))) := by
  rw [exec_clearCause_of_handed h, clearStatus, clearTarget, clearRail, test]
  rfl

theorem execClearRail_removed (h : Handed s supLine tag (.clearCause .rail code))
    (test : clearRailTest s code = (.ok, some c)) : exec .clearCause s =
      .next (replySet .clearCause tag .ok .rail (removeRailCause c s)) := by
  rw [exec_clearCause_of_handed h, clearStatus, clearTarget, clearRail, test]

theorem railLeak_of {c : RailCause} (h : c = .railBalance ∨ c = .commonRail) : c.leak = true := by
  rcases h with rfl | rfl <;> rfl

theorem railLeak_own {c : RailCause} (h : c.leak = true) (own : ¬(c = .tripLine ∨ c = .plantStop)) :
    c = .railBalance ∨ c = .commonRail := by
  cases c <;> simp [RailCause.leak] at h own ⊢

/-- The frame of a request that changes the rail, its valve and TRIP_OUT alone and starts its reply. -/
theorem RailReleased.replied (h : RailReleased c s t) (l : LineNo) (k tag : Byte) (st : Status) (body : List Byte) :
    startReply l k tag st body t = { s with
      rail := t.rail, iso := t.iso, valves := t.valves, lines := (startReply l k tag st body t).lines } := by
  have frame := h.frame
  generalize t.rail = rail, t.iso = iso, t.valves = valves at frame ⊢
  subst frame
  rfl

/-- After a removal TRIP_OUT agrees with the set. -/
theorem removeRailCause_drives (held : c ∈ s.rail.causes) : TripOutLaw (removeRailCause c s) := by
  have driven : TripOutLaw (railWithout c s) := driveTripOut_tripOutLaw _
  by_cases open_ : s.rail.state = .closed ∧ ∀ d ∈ s.rail.causes, d = c
  · rw [removeRailCause_of_last held open_.1 open_.2]
    exact driven
  · rw [removeRailCause_of_rest held open_]
    exact driven

/-- Settles O33: the tests are `clearRailTest_eq`, the removal `removeRailCause_released`. -/
theorem clearCauseOfTheRailMakesItsTests : Obligations.ClearCauseOfTheRailMakesItsTests := by
  unfold Obligations.ClearCauseOfTheRailMakesItsTests
  refine fun s tag code handed => ⟨fun beyond => ?_, fun c hc => ⟨fun absent => ?_, fun held own => ?_,
    fun held wet => ?_, fun held dry leak incident => ?_, fun held other dry closed => ?_⟩⟩
  · refine execClearRail_refused (st := .notServed) handed ?_
    rw [clearRailTest, railCause_ofCode_beyond beyond]
  · refine execClearRail_refused (st := .ok) handed ?_
    rw [clearRailTest_eq hc, if_pos absent]
  · refine execClearRail_refused (st := .notServed) handed ?_
    rw [clearRailTest_eq hc, if_neg (not_not.2 held), if_pos own]
  · have other : ¬(c = .tripLine ∨ c = .plantStop) := by rw [wet.1]; decide
    refine execClearRail_refused (st := .stillWet) handed ?_
    rw [clearRailTest_eq hc, if_neg (not_not.2 held), if_neg other, if_pos wet]
  · have other : ¬(c = .tripLine ∨ c = .plantStop) := by rcases leak with rfl | rfl <;> decide
    refine execClearRail_refused (st := .incidentOpen) handed ?_
    rw [clearRailTest_eq hc, if_neg (not_not.2 held), if_neg other, if_neg dry, if_pos ⟨railLeak_of leak, incident⟩]
  · have released := removeRailCause_released c s
    have removed := execClearRail_removed handed (c := c) (by
      rw [clearRailTest_eq hc, if_neg (not_not.2 held), if_neg other, if_neg dry, if_neg]
      exact fun leaks => closed ⟨railLeak_own leaks.1 other, leaks.2⟩)
    refine ⟨_, removed, startReply_replies (by rw [released.frame]) .., released.causes, removeRailCause_drives held,
      fun opens => ?_, fun rest => ?_, released.replied ..⟩
    · obtain ⟨state, valves, timer⟩ := released.opening opens.1 held opens.2
      exact ⟨state, congrArg (·.railCommanded) valves, timer⟩
    · refine released.stays ?_
      by_cases shut : s.rail.state = .closed
      · exact .inr (.inr (by simpa [shut] using rest))
      · exact .inl shut

end

/-! ## RESTORE (R86, R140) -/

theorem exec_restore_of_handed (h : Handed s supLine tag .restore) : exec .restore s = .next (serveRestore tag s) := by
  simp only [exec, execRestore, h]

theorem setEnables_br (s : State) (b : BranchNo) : (setEnables s).br b = { s.br b with enable := true } := by
  simp [setEnables]

/-- Settles O34. -/
theorem restoreSetsTheDrives : Obligations.RestoreSetsTheDrives := by
  unfold Obligations.RestoreSetsTheDrives
  refine fun s tag handed => ⟨fun asserted => ?_, fun negated => ?_⟩
  · rw [exec_restore_of_handed handed, serveRestore, if_pos asserted]
    rfl
  · have released := removeRailCause_released .tripLine s
    rw [exec_restore_of_handed handed, serveRestore, if_neg (by rw [negated]; decide)]
    have frame := released.frame
    have branches : ∀ b, (restoreDrives s).br b = { s.br b with enable := true } := fun b => by
      rw [restoreDrives, setEnables_br, State.br, removeRailCause_branches]
      rfl
    have valves : (removeRailCause .tripLine s).valves = { s.valves with
        railCommanded := (removeRailCause .tripLine s).valves.railCommanded } := by
      unfold removeRailCause
      split
      · dsimp only
        split <;> rfl
      · rfl
    refine ⟨_, rfl, startReply_replies ?lines .., released.causes, released.incident, branches, rfl, ?applied, ?bypass,
      fun closed held last => ?opening, fun rest => ?stays, ?frame⟩
    case lines => exact removeRailCause_lines .tripLine s
    case applied => exact congrArg (·.railApplied) valves
    case bypass => exact congrArg (·.bypassEnable) valves
    case opening =>
      obtain ⟨state, valves, -⟩ := released.opening closed held last
      exact ⟨state, congrArg (·.railCommanded) valves⟩
    case stays =>
      obtain ⟨state, timer, valves⟩ := released.stays rest
      exact ⟨state, timer, congrArg (·.railCommanded) valves⟩
    case frame =>
      rw [restoreDrives, startReply_branches, startReply_rail, startReply_valves, startReply_iso, frame]
      rfl

/-! ## PLANT_STOP and PLANT_RESUME (R49, R135, R136) -/

theorem exec_plantStop_of_handed (h : Handed s plantLine tag .plantStop) :
    exec .plantStop s = .next (replyRail .plantStop tag (stopPlant s)) := by
  simp only [exec, execPlantStop, h]

theorem exec_plantResume_of_handed (h : Handed s plantLine tag .plantResume) :
    exec .plantResume s = .next (replyRail .plantResume tag (resumePlant s)) := by
  simp only [exec, execPlantResume, h]

/-- Settles O35: PLANT_STOP is a cause added to the rail set, PLANT_RESUME one removed. -/
theorem plantStopAndResumeMoveTheRail : Obligations.PlantStopAndResumeMoveTheRail := by
  unfold Obligations.PlantStopAndResumeMoveTheRail
  refine fun s tag => ⟨fun handed => ?stop, fun handed => ?resume⟩
  case stop =>
    have alloc : (stopPlant s).alloc = { s.alloc with suspended := true } := by
      rw [stopPlant, State.updAlloc_alloc, addRailCause_alloc]
    rw [exec_plantStop_of_handed handed]
    refine ⟨_, rfl, startReply_replies (addRailCause_lines .plantStop s) .., alloc, ?ring, fun held => ?held,
      fun new => ?new⟩
    case ring =>
      by_cases held : RailCause.plantStop ∈ s.rail.causes
      · rw [stopPlant, addRailCause_of_mem held]
        rfl
      · exact ((addRailCause_answers held).record rfl .rail).ring
    case held =>
      rw [stopPlant, addRailCause_of_mem held]
      exact ⟨rfl, rfl, rfl⟩
    case new =>
      have effect := addRailCause_answers new
      exact ⟨effect.causes, effect.state, effect.branches, effect.holds⟩
  case resume =>
    have released := removeRailCause_released .plantStop s
    have frame := released.frame
    have alloc : (resumePlant s).alloc = { s.alloc with suspended := false } := by
      rw [resumePlant, State.updAlloc_alloc, removeRailCause_alloc]
    rw [exec_plantResume_of_handed handed]
    refine ⟨_, rfl, startReply_replies (removeRailCause_lines .plantStop s) .., alloc, released.causes,
      fun closed held last => ?_, released.stays, ?_⟩
    · obtain ⟨state, valves, -⟩ := released.opening closed held last
      exact ⟨state, congrArg (·.railCommanded) valves⟩
    · rw [replyRail, startReply_rail, startReply_alloc, startReply_valves, startReply_iso, resumePlant, frame]
      rfl

end
end Sys2Proof.Machine
end

section
/-! PROOF. The clocks and the threshold counts: the period start, the budget age, the take-up restriction and the counts
of a Dock Controller (O52, O54 to O56). -/

namespace Sys2Proof.Machine

open Sys2Proof Sys2Proof.Safety

section
variable {s t : State} {b : BranchNo}

/-! ## The period start (R76, R77, R84, R88) -/

theorem startPeriod_br (s : State) (b : BranchNo) : (startPeriod s).br b = (s.br b).applyDuty := by
  simp only [startPeriod, State.updValves_br, State.mapBranches_br]

theorem Branch.applyDuty_elapse (ms : Nat) (br : Branch) : (br.elapse ms).applyDuty = { br with
    applied := if br.enable = true then br.commanded else br.applied
    dockTimer := (br.elapse ms).applyDuty.dockTimer
    ledPhase := (br.elapse ms).applyDuty.ledPhase } := by
  cases enable : br.enable <;> simp [Branch.applyDuty, Branch.elapse, enable]

/-- R76, R88: a valve output follows the enable, the active share and the polarity of its channel. -/
theorem valvePin_shows (s : State) (c : Fin 14) : ValveShows s c (channelEnable s c) (activeShare s c) := by
  intro us _
  simp only [valvePin, valveActive]
  cases s.valves.driven
  · rfl
  · by_cases active : channelEnable s c = true ∧ us < 20 * activeShare s c
    · simp [active]
    · rw [if_neg active]
      cases enable : channelEnable s c
      · simp
      · have late : ¬us < 20 * activeShare s c := fun soon => active ⟨enable, soon⟩
        simp [late]

theorem channel_of_branch (s : State) (b : BranchNo) :
    channelEnable s ⟨b.val, by omega⟩ = (s.br b).enable ∧ activeShare s ⟨b.val, by omega⟩ = (s.br b).applied := by
  have valve : b.val < 13 := by omega
  simp [channelEnable, activeShare, channelApplied, valve]

/-- Settles O56: `Branch.applyDuty_elapse` for the records, `valvePin_shows` for the outputs. -/
theorem periodStartAppliesTheDuties : Obligations.PeriodStartAppliesTheDuties := by
  unfold Obligations.PeriodStartAppliesTheDuties
  refine fun s => ⟨startPeriod (elapse s.valves.periodTimer s), rfl, fun b => ?_, rfl, rfl, fun b => ?_,
    valvePin_shows s 12, valvePin_shows s 13⟩
  · rw [startPeriod_br, elapse_br]
    exact Branch.applyDuty_elapse ..
  · have shows := valvePin_shows s ⟨b.val, by omega⟩
    rwa [(channel_of_branch s b).1, (channel_of_branch s b).2] at shows

/-! ## The budget age (R48) -/

theorem exec_budgetHoldExpires_of_counts (counts : s.loader.loading = false ∧ s.alloc.suspended = false)
    (fresh : s.alloc.ageState = .fresh) :
    exec .budgetHoldExpires s = .next (becomeStale (elapse (s.params.budgetHold * 1000 - s.alloc.age) s)) := by
  simp only [exec, execBudgetHoldExpires, (ageRuns_iff s).2 counts, fresh, decide_true, Bool.and_true, if_true]

theorem exec_fallbackTimeExpires_of_counts (counts : s.loader.loading = false ∧ s.alloc.suspended = false)
    (stale : s.alloc.ageState = .stale) :
    exec .fallbackTimeExpires s = .next (fallBack (elapse (s.params.fallbackTime * 1000 - s.alloc.age) s)) := by
  simp only [exec, execFallbackTimeExpires, (ageRuns_iff s).2 counts, stale, decide_true, Bool.and_true, if_true]

/-- R48: BUDGET_STALE on both lines that are told of it. -/
def staleTells : List (LineNo × AttnEntry) :=
  [(plantLine, .of (.plant .budgetStale) 0), (supLine, .of (.sup .budgetStale) 0)]

theorem becomeStale_of_later (later : s.params.budgetHold < s.params.fallbackTime) : becomeStale s = { s with
    alloc := { s.alloc with ageState := .stale }
    attn := (tell staleTells s).attn } := by
  rw [becomeStale, if_neg (Nat.not_le.2 later)]
  rfl

theorem becomeStale_of_early (early : s.params.fallbackTime ≤ s.params.budgetHold) : becomeStale s = { s with
    alloc := { s.alloc with ageState := .fallenBack, pendingBudget := s.params.fallbackBudget }
    attn := (tell staleTells s).attn } := by
  rw [becomeStale, if_pos early]
  rfl

theorem becomeStale_attn (s : State) : (becomeStale s).attn = (tell staleTells s).attn := by
  obtain early | later := (Nat.lt_or_ge s.params.budgetHold s.params.fallbackTime).symm
  · rw [becomeStale_of_early early]
  · rw [becomeStale_of_later later]

theorem tell_elapse (rs : List (LineNo × AttnEntry)) (ms : Nat) (s : State) :
    (tell rs (elapse ms s)).attn = (tell rs s).attn := by
  induction rs generalizing s with
  | nil => rfl
  | cons r rs ih => exact ih (raise r.1 r.2 s)

/-- Settles O55. -/
theorem budgetAgeReachesItsThresholds : Obligations.BudgetAgeReachesItsThresholds := by
  unfold Obligations.BudgetAgeReachesItsThresholds
  refine fun s => ⟨fun counts fresh => ?_, fun counts stale => ?_, fun other => ?_, fun other => ?_⟩
  · rw [exec_budgetHoldExpires_of_counts counts fresh]
    generalize s.params.budgetHold * 1000 - s.alloc.age = left
    have attn : ∀ l, (becomeStale (elapse left s)).attnOf l = (tell staleTells s).attnOf l := fun l => by
      rw [State.attnOf, becomeStale_attn, tell_elapse]
      rfl
    refine ⟨_, rfl, ?_, ?_, fun l plant sup => ?_, fun l c plant sup => ?_, fun later => ?_, fun early => ?_⟩
    · rw [attn, isPending_tell]
      exact .inr ⟨_, List.mem_cons_self, rfl, rfl⟩
    · rw [attn, isPending_tell]
      exact .inr ⟨_, List.mem_cons_of_mem _ List.mem_cons_self, rfl, rfl⟩
    · rw [attn]
      exact (raise_attnOf_ne _ _ _ sup.symm).trans (raise_attnOf_ne _ _ _ plant.symm)
    · rw [attn]
      refine detailList_tell_ne (fun r told => ?_) s l
      simp only [staleTells, List.mem_cons, List.not_mem_nil, or_false] at told
      obtain rfl | rfl := told
      · exact plant.symm
      · exact sup.symm
    · have stale : becomeStale (elapse left s) = _ := becomeStale_of_later later
      rw [stale]
      refine ⟨elapse_br left s, ?_⟩
      rw [elapse, if_pos ((ageRuns_iff s).2 counts)]
    · have stale : becomeStale (elapse left s) = _ := becomeStale_of_early early
      rw [stale]
      refine ⟨elapse_br left s, ?_⟩
      rw [elapse, if_pos ((ageRuns_iff s).2 counts)]
  · rw [exec_fallbackTimeExpires_of_counts counts stale]
    refine ⟨_, rfl, rfl, elapse_br _ s, ?_⟩
    rw [elapse, if_pos ((ageRuns_iff s).2 counts)]
    rfl
  · refine congrArg _ (if_neg ?_)
    simp only [Bool.and_eq_true, ageRuns_iff, decide_eq_true_eq, not_and_or] at other ⊢
    exact other
  · refine congrArg _ (if_neg ?_)
    simp only [Bool.and_eq_true, ageRuns_iff, decide_eq_true_eq, not_and_or] at other ⊢
    exact other

/-! ## The take-up restriction (R68, R69) -/

theorem BaysOnly.frame (h : BaysOnly s t) : t = { s with branches := t.branches, attn := t.attn } := by
  obtain ⟨_, _, rfl⟩ := h
  rfl

theorem BaysOnly.frame_of_attn (h : BaysOnly s t) (attn : t.attn = s.attn) : t = { s with branches := t.branches } := by
  obtain ⟨_, _, rfl⟩ := h
  cases attn
  rfl

/-- The quotient rounded up is the number of the least multiple at or above a rate. -/
theorem div_roundUp_of_least {q m : Nat} {rate : Int} (pos : 0 < q) (reaches : rate ≤ m * q)
    (least : ∀ n : Nat, rate ≤ n * q → m ≤ n) : (rate.toNat + q - 1) / q = m := by
  have covers : ∀ n : Nat, (rate.toNat + q - 1) / q ≤ n ↔ rate ≤ n * q := fun n => by
    rw [← Nat.ceilDiv_eq_add_pred_div, ceilDiv_le_iff_le_mul pos, Int.toNat_le, Nat.mul_comm]
    push_cast
    rfl
  exact Nat.le_antisymm ((covers m).2 reaches) (least _ ((covers _).1 (Nat.le_refl _)))

theorem takeUpReaches_of (admitted : (s.br b).dock = .admitted) (healthy : (s.snapChannel (supplyChannel b)).health = .healthy)
    (full : (s.br b).commanded = 1000)
    (short : (s.snapChannel (supplyChannel b)).rate < ((s.br b).grant * s.params.takeUpShare / 1000 : Nat))
    (count : s.params.takeUpWindows ≤ (s.br b).takeUp + 1) : takeUpReaches s b = true := by
  simp only [takeUpReaches, fallsShort, supplyHealthy, supplyRate, admitted, healthy, full, short, count, decide_true,
    Bool.and_self]

theorem restrict_baysOnly (b : BranchNo) (s : State) : BaysOnly s (restrict b s) := by
  have limited := updBranch_baysOnly b (fun br => { br with
    restricted := some (restrictedValue s.params.quantum (s.br b).floor (s.br b).cap (supplyRate s b))
    takeUp := 0 }) s
  unfold restrict
  dsimp only
  split
  · exact limited
  · exact (limited.trans (raiseOwner_baysOnly ..)).trans ⟨_, _, rfl⟩

theorem restrict_branches (b : BranchNo) (s : State) : (restrict b s).branches = (s.updBranch b fun br => { br with
    restricted := some (restrictedValue s.params.quantum (s.br b).floor (s.br b).cap (supplyRate s b))
    takeUp := 0 }).branches := by
  unfold restrict
  dsimp only
  split
  · rfl
  · exact (raiseSup_branches ..).trans (raiseOwner_branches ..)

/-- Settles O54. -/
theorem takeUpRestrictsTheDemand : Obligations.TakeUpRestrictsTheDemand := by
  unfold Obligations.TakeUpRestrictsTheDemand
  refine fun s b m => ⟨fun other => ?_, fun admitted healthy full short count pos reaches least => ?_⟩
  · refine congrArg _ (if_neg ?_)
    simp [takeUpReaches, other]
  · intro v
    have value : restrictedValue s.params.quantum (s.br b).floor (s.br b).cap (supplyRate s b) = v := by
      rw [restrictedValue, supplyRate, div_roundUp_of_least pos reaches least]
    have branches := restrict_branches b s
    rw [value] at branches
    refine ⟨restrict b s, congrArg _ (if_pos (takeUpReaches_of admitted healthy full short count)), ?_, fun c other => ?_,
      fun same => ?_, fun differs => ?_, (restrict_baysOnly b s).frame⟩
    · rw [State.br, branches]
      exact State.updBranch_br_same ..
    · rw [State.br, branches]
      exact State.updBranch_br_ne _ _ _ other.symm
    · rw [restrict, value, if_pos same]
      rfl
    · rw [restrict, value, if_neg differs]
      exact ⟨fun o own => (raiseSup_grows ..).pending (toldOwner_raiseOwner (by rw [State.updBranch_br_same]) o own),
        supEntry_raiseSup ..⟩

/-! ## The counts of a Dock Controller (R16, R19) -/

/-- R16, R18, R19: entry into ADMITTED. -/
theorem enterAdmitted_frame (b : BranchNo) (s : State) : (enterAdmitted b s).br b = { s.br b with
      dock := .admitted
      led := .off
      ledPhase := ((enterAdmitted b s).br b).ledPhase
      dockTimer := none
      primeGood := 0
      idle := 0 } ∧
    ToldOwner s (enterAdmitted b s) b .admitted ∧ OthersKept s (enterAdmitted b s) b ∧
    enterAdmitted b s = { s with branches := (enterAdmitted b s).branches, attn := (enterAdmitted b s).attn } := by
  refine ⟨?_, toldOwner_raiseOwner (by rw [State.updBranch_br_same]; rfl), fun c other => ?_,
    ((updBranch_baysOnly ..).trans (raiseOwner_baysOnly ..)).frame⟩
  · rw [enterAdmitted, raiseOwner_br, State.updBranch_br_same]
    rfl
  · rw [enterAdmitted, raiseOwner_br, State.updBranch_br_ne _ _ _ other.symm]

/-- R78, R80: the commanded duty after a redrive is the duty of the record. -/
theorem Branch.redrive_duty (br : Branch) : br.redrive.duty = br.duty := by
  unfold Branch.duty
  by_cases none : br.grant = 0
  · simp [none]
  · simp [Branch.redrive, none]

/-- Settles O52. -/
theorem dockCountsReachTheirThresholds : Obligations.DockCountsReachTheirThresholds := by
  unfold Obligations.DockCountsReachTheirThresholds
  refine fun s b => ⟨fun priming supply ret flows good count => ?_, fun adopting supply flows count => ?_,
    fun adopting supply still count => ?_, fun other => ?_, fun other => ⟨?_, ?_⟩⟩
  · refine ⟨_, congrArg Host.Outcome.next (if_pos ?_), enterAdmitted_frame b s⟩
    simp [primeGoodReaches, primeGoodWindow, supplyHealthy, returnHealthy, supplyVolume, returnVolume, *]
  · refine ⟨_, congrArg Host.Outcome.next (if_pos ?_), enterAdmitted_frame b s⟩
    simp [adoptionGoodReaches, supplyHealthy, supplyVolume, *]
  · refine ⟨_, congrArg Host.Outcome.next (if_pos ?_), ?_⟩
    · simp [idleReaches, supplyHealthy, supplyVolume, *]
    · have primed : (enterPriming b s).br b = Branch.toPriming s.params (s.br b) := State.updBranch_br_same ..
      beta_reduce
      rw [primed]
      exact ⟨rfl, rfl, rfl, if_pos adopting, ite_self _, rfl, if_pos adopting, (Branch.redrive_duty _).symm, rfl,
        fun c other => State.updBranch_br_ne _ _ _ other.symm, rfl⟩
  all_goals
    refine congrArg _ (if_neg ?_)
    simp [primeGoodReaches, adoptionGoodReaches, idleReaches, other]
end

end Sys2Proof.Machine
end

section
/-! PROOF. The facility trip (O57). -/

namespace Sys2Proof.Machine

open Sys2Proof Sys2Proof.Safety

section
variable {s t u : State} {b : BranchNo}

/-! ## What no cause moves (4.6, R6) -/

/-- The drive enable, the applied duty and the contacts of a branch. -/
def Branch.wires (x : Branch) : Bool × Nat × Bool × Bool := (x.enable, x.applied, x.present, x.latched)

theorem wires_enable {x y : Branch} (h : y.wires = x.wires) : y.enable = x.enable := congrArg (·.1) h

theorem wires_applied {x y : Branch} (h : y.wires = x.wires) : y.applied = x.applied := congrArg (·.2.1) h

theorem wires_present {x y : Branch} (h : y.wires = x.wires) : y.present = x.present := congrArg (·.2.2.1) h

theorem wires_latched {x y : Branch} (h : y.wires = x.wires) : y.latched = x.latched := congrArg (·.2.2.2) h

theorem Branch.respond_wires (close : Option Nat) (x : Branch) : (x.respond close).wires = x.wires := by
  unfold Branch.respond
  split <;> rfl

/-- The enables, the applied duties and the contacts of every branch stand. -/
structure WiresStand (s t : State) : Prop where
  br : ∀ b, (t.br b).wires = (s.br b).wires

theorem WiresStand.refl (s : State) : WiresStand s s := ⟨fun _ => rfl⟩

theorem WiresStand.trans (h : WiresStand s t) (k : WiresStand t u) : WiresStand s u := ⟨fun b => (k.br b).trans (h.br b)⟩

theorem wiresStand_of_branches (h : t.branches = s.branches) : WiresStand s t where
  br b := by
    rw [State.br, h]
    rfl

theorem updBranch_wiresStand {f : Branch → Branch} (h : (f (s.br b)).wires = (s.br b).wires) :
    WiresStand s (s.updBranch b f) where
  br d := by
    by_cases same : b = d
    · subst same
      rwa [State.updBranch_br_same]
    · rw [State.updBranch_br_ne _ _ _ same]

theorem addCauseCore_wiresStand (b : BranchNo) (c : BranchCause) (x : Bool) (s : State) :
    WiresStand s (addCauseCore b c x s) where
  br d := by
    by_cases held : c ∈ (s.br b).causes
    · rw [addCauseCore_of_mem _ _ _ _ held]
    · by_cases same : b = d
      · subst same
        have wires := Branch.respond_wires (closeTimer s) { s.br b with causes := (s.br b).causes ++ [c] }
        rw [addCauseCore_br_same b c x s held]
        exact wires
      · rw [addCauseCore_br_ne b c x s same]

theorem forBranches_wiresStand {f : BranchNo → State → State} (turn : ∀ b u, WiresStand u (f b u)) (s : State) :
    WiresStand s (forBranches f s) :=
  forBranches_inv (WiresStand s) f (fun b u stand => stand.trans (turn b u)) s (.refl s)

theorem addRailToOccupied_wiresStand (s : State) : WiresStand s (addRailToOccupied s) := by
  refine forBranches_wiresStand (fun b u => ?_) s
  split
  · exact .refl u
  · exact addCauseCore_wiresStand b .rail false u

theorem railAnswered_wiresStand (c : RailCause) (s : State) : WiresStand s (railAnswered c s) := by
  have taken : WiresStand s (railTakes c s) := ⟨fun b => by rw [railTakes_br]⟩
  unfold railAnswered
  refine .trans ?_ (wiresStand_of_branches (driveTripOut_branches _))
  split
  · exact taken.trans (addRailToOccupied_wiresStand _)
  · exact taken

theorem addRailCause_wiresStand (c : RailCause) (s : State) : WiresStand s (addRailCause c s) := by
  by_cases held : c ∈ s.rail.causes
  · rw [addRailCause_of_mem held]
    exact .refl s
  · rw [addRailCause_eq held]
    split
    · exact (railAnswered_wiresStand c s).trans (wiresStand_of_branches (ringAdd_rail_branches ..))
    · exact railAnswered_wiresStand c s

/-! ## The facility trip (R84, R85, R138, R139) -/

theorem assertTrip_eq (s : State) : assertTrip s =
    if s.loader.loading = true ∧ s.loader.afterPowerOn = true then tripTaken s else addRailCause .tripLine (tripTaken s) := by
  simp only [← Bool.and_eq_true]
  rfl

theorem tripTaken_br (s : State) (b : BranchNo) : (tripTaken s).br b = (s.br b).disable := by
  simp only [tripTaken, clearEnables, State.updValves_br, State.mapBranches_br]
  rfl

theorem tripTaken_valves (s : State) : (tripTaken s).valves =
    if s.valves.railEnable = true then { s.valves with railEnable := false, railApplied := 0 } else s.valves := rfl

theorem Branch.disable_drive (br : Branch) : br.disable.enable = false ∧ (br.enable = true → br.disable.applied = 0) := by
  cases on : br.enable <;> simp [Branch.disable, on]

theorem tripTaken_record (s : State) (g : Target) : SameRecord s (tripTaken s) g := by
  refine ⟨rfl, ?_, ?_⟩
  · cases g with
    | rail => rfl
    | branch b =>
      rw [incidentOf, tripTaken_br, Branch.disable]
      split <;> rfl
  · cases g with
    | rail => rfl
    | branch b =>
      rw [lostOf, tripTaken_br, Branch.disable]
      split <;> rfl

/-- The rail valve's drive and the bypass valve, whatever the rail is commanded. -/
theorem addRailCause_valves_drive (c : RailCause) (s : State) : (addRailCause c s).valves =
    { s.valves with railCommanded := (addRailCause c s).valves.railCommanded } := by
  by_cases held : c ∈ s.rail.causes
  · rw [addRailCause_of_mem held]
  · have answers := addRailCause_answers held
    by_cases closes : s.rail.state = .opened ∨ s.rail.state = .opening
    · rw [(answers.closing closes).1]
    · rw [(answers.shut (by cases state : s.rail.state <;> simp_all)).1]

theorem addRailCause_grows (c : RailCause) (s : State) : AttnGrows s (addRailCause c s) := by
  by_cases held : c ∈ s.rail.causes
  · rw [addRailCause_of_mem held]
    exact .refl s
  · exact (addRailCause_answers held).grows

/-- What R85 and R173 do at the trip, whatever the rail answers. -/
structure TripsDrives (s t : State) : Prop where
  trip : t.iso.tripAsserted = true
  pins : t.pins = { s.pins with trip := true }
  branches : ∀ b, (t.br b).enable = false ∧ ((s.br b).enable = true → (t.br b).applied = 0)
  enable : t.valves.railEnable = false
  applied : s.valves.railEnable = true → t.valves.railApplied = 0
  bypassEnable : t.valves.bypassEnable = s.valves.bypassEnable
  bypassApplied : t.valves.bypassApplied = s.valves.bypassApplied
  told : isPending (t.attnOf supLine) (.sup .tripLine) = true

theorem tripTaken_trips (s : State) : TripsDrives s (tripTaken s) where
  trip := rfl
  pins := rfl
  branches b := by
    rw [tripTaken_br]
    exact Branch.disable_drive _
  enable := by
    rw [tripTaken_valves]
    cases on : s.valves.railEnable <;> simp [on]
  applied on := by rw [tripTaken_valves, if_pos on]
  bypassEnable := by rw [tripTaken_valves]; split <;> rfl
  bypassApplied := by rw [tripTaken_valves]; split <;> rfl
  told := isPending_raiseSup ..

theorem TripsDrives.addRailCause (h : TripsDrives s u) (c : RailCause) : TripsDrives s (addRailCause c u) where
  trip := by
    by_cases held : c ∈ u.rail.causes
    · rw [addRailCause_of_mem held, h.trip]
    · rw [(addRailCause_answers held).iso]
      exact h.trip
  pins := (addRailCause_pins ..).trans h.pins
  branches b := by
    have wires := (addRailCause_wiresStand c u).br b
    rw [wires_enable wires, wires_applied wires]
    exact h.branches b
  enable := by rw [addRailCause_valves_drive]; exact h.enable
  applied := by rw [addRailCause_valves_drive]; exact h.applied
  bypassEnable := by rw [addRailCause_valves_drive]; exact h.bypassEnable
  bypassApplied := by rw [addRailCause_valves_drive]; exact h.bypassApplied
  told := (addRailCause_grows c u).pending h.told

/-- Settles O57. -/
theorem tripTakesTheDrivesAway : Obligations.TripTakesTheDrivesAway := by
  unfold Obligations.TripTakesTheDrivesAway
  refine fun s => ⟨fun negated => ⟨assertTrip s, ?_, ?_⟩, fun asserted => ⟨?_, ?_⟩, fun negated => ?_⟩
  · exact congrArg Host.Outcome.next (if_neg (by simp [negated]))
  · rw [assertTrip_eq]
    by_cases powerOn : s.loader.loading = true ∧ s.loader.afterPowerOn = true
    · rw [if_pos powerOn]
      obtain ⟨trip, pins, branches, enable, applied, bypassEnable, bypassApplied, told⟩ := tripTaken_trips s
      refine ⟨trip, pins, branches, enable, applied, bypassEnable, bypassApplied, told, fun not => ?_, fun _ _ => rfl⟩
      simp [powerOn] at not
    · rw [if_neg powerOn]
      obtain ⟨trip, pins, branches, enable, applied, bypassEnable, bypassApplied, told⟩ :=
        (tripTaken_trips s).addRailCause .tripLine
      refine ⟨trip, pins, branches, enable, applied, bypassEnable, bypassApplied, told, fun _ => ?_,
        fun loading after => absurd ⟨loading, after⟩ powerOn⟩
      by_cases held : RailCause.tripLine ∈ s.rail.causes
      · rw [addRailCause_of_mem (s := tripTaken s) held, if_pos held]
        exact ⟨held, rfl, absurd held⟩
      · have answers := addRailCause_answers (s := tripTaken s) held
        rw [if_neg held]
        refine ⟨?_, answers.state, fun _ => recorded_from (answers.recorded rfl) (tripTaken_record s _) rfl⟩
        rw [answers.causes]
        simp
  · exact congrArg Host.Outcome.next (if_pos asserted)
  · exact congrArg Host.Outcome.next (if_pos asserted)
  · exact congrArg Host.Outcome.next (if_neg (by simp [negated]))
end

end Sys2Proof.Machine
end

section
/-! PROOF. The timers of the rail (O58). -/

namespace Sys2Proof.Machine

open Sys2Proof Sys2Proof.Safety

section
variable {s t u : State} {b : BranchNo}

/-! ## CLOSING runs out (R131, R132, R150) -/

/-- R132: the rail CLOSED, its account at 0. -/
def railShut (s : State) : State := s.updRail fun r => { r with state := .closed, timer := none, account := Account.zero }

/-- R132, R150: the rail CLOSED, its record closed and the plant line told. -/
def railClosedTold (s : State) : State := raisePlant .railClosed (closeRecord .rail (railShut s))

theorem enterClosed_eq (s : State) :
    enterClosed s = if s.rail.causes = [] then enterOpening (railClosedTold s) else railClosedTold s := by
  have causes : (railClosedTold s).rail.causes = s.rail.causes := by
    rw [railClosedTold, raisePlant_rail, closeRecord_rail]
    rfl
  refine Eq.trans (b := if (railClosedTold s).rail.causes.isEmpty = true then enterOpening (railClosedTold s)
    else railClosedTold s) rfl ?_
  simp only [causes, List.isEmpty_iff]

theorem railClosedTold_rail (s : State) :
    (railClosedTold s).rail = { s.rail with state := .closed, timer := none, account := Account.zero } := by
  rw [railClosedTold, raisePlant_rail, closeRecord_rail]
  rfl

theorem railClosedTold_branches (s : State) : (railClosedTold s).branches = s.branches := by
  rw [railClosedTold, raisePlant_branches, closeRecord_branches]
  rfl

theorem railClosedTold_told (s : State) : isPending ((railClosedTold s).attnOf plantLine) (.plant .railClosed) = true :=
  isPending_raisePlant ..

theorem railClosedTold_record (s : State) : RecordCloses s (railClosedTold s) .rail := fun k has => by
  have has' : HasOpenRecord (railShut s) .rail k := has
  refine ⟨?_, (raisePlant_grows ..).noted (supEntry_closeRecord has')⟩
  rw [wetNow_eq, flowNow_eq]
  exact (closeRecord_slot has' k).trans (if_pos rfl)

/-- What a record is closed with hangs on the dock states, the strips and the snapshot. -/
theorem recordCloses_from {g : Target} (h : RecordCloses u t g) (same : SameRecord s u g)
    (docks : ∀ b, (u.br b).dock = (s.br b).dock) (drip : u.drip = s.drip) (snap : u.meter.snap = s.meter.snap) :
    RecordCloses s t g := fun k has => by
  have strips : ∀ n, u.strip n = s.strip n := fun n => by rw [State.strip, drip]; rfl
  have channels : ∀ c, u.snapChannel c = s.snapChannel c := fun c => by rw [State.snapChannel, snap]; rfl
  obtain ⟨slot, told⟩ := h k ((same.hasOpenRecord k).2 has)
  have wet : wetNow u g = wetNow s g := by
    cases g
    · rw [wetNow, strips]
      rfl
    · rw [Bool.eq_iff_iff, wetNow, wetNow, decide_eq_true_iff, decide_eq_true_iff]
      exact admissionsFrozen_congr (fun b => by rw [docks]) fun n => by rw [strips]
  have flow : flowNow u g = flowNow s g := by cases g <;> simp only [flowNow, channels]
  rw [wet, flow, same.slot, snap] at slot
  exact ⟨slot, told⟩

theorem elapse_record (ms : Nat) (s : State) (g : Target) : SameRecord s (elapse ms s) g := by
  refine ⟨rfl, ?_, ?_⟩ <;> cases g
  · rw [incidentOf, elapse_br]
    rfl
  · rfl
  · rw [lostOf, elapse_br]
    rfl
  · rfl

theorem elapse_dock (ms : Nat) (s : State) (b : BranchNo) : ((elapse ms s).br b).dock = (s.br b).dock := by
  rw [elapse_br]
  rfl

/-! ## OPENING runs out (R126, R133) -/

/-- R126: the turn of one branch when the rail opens. -/
def releaseRail (b : BranchNo) (s : State) : State := if s.rail.state = .opened then removeBranchCause b .rail s else s

theorem enterOpened_eq (s : State) : enterOpened s =
    forBranches releaseRail (s.updRail fun r => { r with state := .opened, timer := none }) := rfl

/-- R27, R125: what RAIL leaving its set does to a branch. -/
structure RailLeaves (seatSettle : Nat) (x y : Branch) : Prop where
  causes : y.causes = x.causes.filter (· ≠ .rail)
  stays : x.dock ≠ .isolated ∨ (∃ c ∈ x.causes, c ≠ .rail) → y.dock = x.dock
  exits : x.dock = .isolated → x.causes = [.rail] → x.hold = true ∨ seatSettle ≠ 0 → y.dock = dockByContacts x

/-- A strip that acts as common leaves an OPEN rail so only with the rail and the bays as they are. -/
theorem commonWet_of_opened {n : StripNo} (opened : (commonWet n u).rail.state = .opened) (before : u.rail.state = .opened) :
    (commonWet n u).rail = u.rail ∧ (commonWet n u).branches = u.branches := by
  unfold commonWet at opened ⊢
  dsimp only at opened ⊢
  cases action : u.params.wetAction <;> simp only [raiseSup_params, action] at opened ⊢
  · exact ⟨rfl, rfl⟩
  · exact ⟨rfl, rfl⟩
  · by_cases held : RailCause.commonRail ∈ u.rail.causes
    · rw [addRailCause_of_mem (s := raiseSup .commonWet n.val u) held]
      exact ⟨rfl, rfl⟩
    · rw [(addRailCause_answers (s := raiseSup .commonWet n.val u) held).state] at opened
      simp [before, railAfterCause] at opened

theorem commonWet_rail_of_not_rail {n : StripNo} (other : u.params.wetAction ≠ .rail) : (commonWet n u).rail = u.rail := by
  unfold commonWet
  dsimp only
  cases action : u.params.wetAction <;> simp only [raiseSup_params, action] at other ⊢
  · rfl
  · rfl
  · exact absurd rfl other

/-- R9, R115: an OPEN rail stays OPEN under an entry into VACANT so only with the rail and the other bays as they are. -/
theorem enterVacant_of_opened (opened : (enterVacant b u).rail.state = .opened) (before : u.rail.state = .opened) :
    (enterVacant b u).rail = u.rail ∧ (enterVacant b u).branches = (u.updBranch b Branch.toVacant).branches := by
  unfold enterVacant at opened ⊢
  dsimp only at opened ⊢
  split at opened
  · rename_i wet
    rw [if_pos wet]
    exact commonWet_of_opened opened before
  · rename_i dry
    rw [if_neg dry]
    exact ⟨rfl, rfl⟩

theorem enterVacant_rail_of (keeps : u.params.wetAction ≠ .rail ∨ (u.strip (trayStrip b)).state ≠ .wet) :
    (enterVacant b u).rail = u.rail := by
  unfold enterVacant
  dsimp only
  split
  · rename_i wet
    refine commonWet_rail_of_not_rail (u := u.updBranch b Branch.toVacant) (keeps.resolve_right fun dry => ?_)
    simp only [Bool.and_eq_true, trayWet_iff] at wet
    exact dry wet.1
  · rfl

theorem enterHeld_branch (b : BranchNo) (x : Bool) (s : State) : (enterHeld b x s).rail = s.rail ∧
    ((enterHeld b x s).br b).causes = (s.br b).causes ∧ OthersKept s (enterHeld b x s) b := by
  have entered : ((s.updBranch b (Branch.toHeld s.params.seatSettle x)).br b).causes = (s.br b).causes := by
    rw [State.updBranch_br_same]
    rfl
  refine ⟨enterHeld_rail .., ?_, fun d other => ?_⟩
  all_goals
    unfold enterHeld
    dsimp only
    split
  · refine .trans ?_ entered
    obtain same | ⟨-, primes⟩ := gate_eq b (s.updBranch b (Branch.toHeld s.params.seatSettle x))
    · rw [same]
    · rw [primes, State.updBranch_br_same]
      rfl
  · exact entered
  · rw [gate_br_ne _ _ other.symm, State.updBranch_br_ne _ _ _ other.symm]
  · exact State.updBranch_br_ne _ _ _ other.symm

theorem enterByContacts_of_opened (opened : (enterByContacts b u).rail.state = .opened) (before : u.rail.state = .opened) :
    (enterByContacts b u).rail = u.rail ∧ ((enterByContacts b u).br b).causes = (u.br b).causes ∧
      OthersKept u (enterByContacts b u) b := by
  unfold enterByContacts at opened ⊢
  split at opened
  · rename_i away
    rw [if_pos away]
    obtain ⟨rail, branches⟩ := enterVacant_of_opened opened before
    refine ⟨rail, ?_, fun d other => ?_⟩
    · have entered := State.updBranch_br_same u b Branch.toVacant
      rw [State.br, branches]
      exact (congrArg Branch.causes entered :)
    · rw [State.br, branches]
      exact State.updBranch_br_ne _ _ _ other.symm
  · rename_i present
    rw [if_neg present]
    split
    · exact enterHeld_branch ..
    · refine ⟨rfl, ?_, fun d other => State.updBranch_br_ne _ _ _ other.symm⟩
      rw [enterSeated, State.updBranch_br_same]
      rfl

theorem enterByContacts_rail_of
    (keeps : u.params.wetAction ≠ .rail ∨ ¬((u.br b).present = false ∧ (u.strip (trayStrip b)).state = .wet)) :
    (enterByContacts b u).rail = u.rail := by
  unfold enterByContacts
  split
  · rename_i away
    exact enterVacant_rail_of (keeps.imp_right fun dry wet => dry ⟨by simpa using away, wet⟩)
  · split
    · exact enterHeld_rail ..
    · rfl

/-- R126: the turn of a branch leaves the rail OPEN only with the rail and the other bays as they are. -/
theorem removeRail_of_opened (before : s.rail.state = .opened) (opened : (removeBranchCause b .rail s).rail.state = .opened) :
    (removeBranchCause b .rail s).rail = s.rail ∧ OthersKept s (removeBranchCause b .rail s) b ∧
      RailLeaves s.params.seatSettle (s.br b) ((removeBranchCause b .rail s).br b) := by
  by_cases held : BranchCause.rail ∈ (s.br b).causes
  · by_cases rest : (∃ d ∈ (s.br b).causes, d ≠ .rail) ∨ (s.br b).dock ≠ .isolated
    · rw [removeBranchCause_of_rest held rest]
      refine ⟨rfl, fun d other => State.updBranch_br_ne _ _ _ other.symm, ?_⟩
      rw [State.updBranch_br_same]
      refine ⟨rfl, fun _ => rfl, fun isolated only _ => ?_⟩
      simp [only, isolated] at rest
    · obtain ⟨last, isolated⟩ := not_or.1 rest
      have last : ∀ d ∈ (s.br b).causes, d = .rail := by simpa using last
      have isolated := not_not.1 isolated
      rw [removeBranchCause_of_last held last isolated] at opened ⊢
      obtain ⟨rail, causes, others⟩ := enterByContacts_of_opened opened before
      refine ⟨rail, fun d other => (others d other).trans (State.updBranch_br_ne _ _ _ other.symm), ?_, fun stays => ?_,
        fun _ _ waits => ?_⟩
      · rw [causes, State.updBranch_br_same]
      · exact absurd stays (by simpa [isolated] using last)
      · rw [enterByContacts_dock (by rwa [State.updBranch_br_same]), State.updBranch_br_same]
        rfl
  · have stays : removeBranchCause b .rail s = s := by simp [removeBranchCause, held]
    rw [stays]
    refine ⟨rfl, fun _ _ => rfl, ?_, fun _ => rfl, fun _ only => absurd (by rw [only]; exact List.mem_cons_self) held⟩
    exact (List.filter_eq_self.2 fun c there => by simpa using fun same : c = .rail => held (same ▸ there)).symm

theorem removeRail_opened (keeps : s.params.wetAction ≠ .rail ∨ ¬VacatesOverWetTray s b) :
    (removeBranchCause b .rail s).rail = s.rail := by
  by_cases held : BranchCause.rail ∈ (s.br b).causes
  · by_cases rest : (∃ d ∈ (s.br b).causes, d ≠ .rail) ∨ (s.br b).dock ≠ .isolated
    · rw [removeBranchCause_of_rest held rest]
      rfl
    · obtain ⟨last, isolated⟩ := not_or.1 rest
      have last : ∀ d ∈ (s.br b).causes, d = .rail := by simpa using last
      have isolated := not_not.1 isolated
      rw [removeBranchCause_of_last held last isolated]
      refine enterByContacts_rail_of (keeps.imp_right fun stays away => stays ?_)
      rw [State.updBranch_br_same] at away
      exact ⟨isolated, held, last, away.1, away.2⟩
  · simp [removeBranchCause, held]

/-- R126, log 19: with the rail no longer OPEN the remaining turns pass. -/
theorem foldl_releaseRail_of_shut (shut : s.rail.state ≠ .opened) (bs : List BranchNo) :
    bs.foldl (fun u b => releaseRail b u) s = s := by
  induction bs with
  | nil => rfl
  | cons b bs ih => rwa [List.foldl_cons, releaseRail, if_neg shut]

theorem commonWet_strip (n : StripNo) (s : State) (m : StripNo) : (commonWet n s).strip m = s.strip m := by
  unfold commonWet
  dsimp only
  split
  · rfl
  · rfl
  · rw [State.strip, addRailCause_drip]
    rfl

theorem enterVacant_strip (b : BranchNo) (s : State) (n : StripNo) : (enterVacant b s).strip n = s.strip n := by
  unfold enterVacant
  dsimp only
  split
  · exact commonWet_strip ..
  · rfl

theorem enterByContacts_strip (b : BranchNo) (s : State) (n : StripNo) : (enterByContacts b s).strip n = s.strip n := by
  unfold enterByContacts
  split
  · exact enterVacant_strip ..
  · split
    · rw [State.strip, enterHeld_drip]
      rfl
    · rfl

theorem removeBranchCause_strip (b : BranchNo) (c : BranchCause) (s : State) (n : StripNo) :
    (removeBranchCause b c s).strip n = s.strip n := by
  unfold removeBranchCause
  split
  · dsimp only
    split
    · exact enterByContacts_strip ..
    · rfl
  · rfl

/-- R126, log 19: what the turns leave where the rail is still OPEN, and when it is. -/
theorem foldl_releaseRail (bs : List BranchNo) (nodup : bs.Nodup) (before : s.rail.state = .opened) (t : State)
    (turns : t = bs.foldl (fun u b => releaseRail b u) s) :
    (t.rail.state = .opened → t.rail = s.rail ∧ ∀ b, (b ∉ bs → t.br b = s.br b) ∧
      (b ∈ bs → RailLeaves s.params.seatSettle (s.br b) (t.br b))) ∧
    (s.params.wetAction ≠ .rail ∨ (∀ b ∈ bs, ¬VacatesOverWetTray s b) → t.rail = s.rail) := by
  induction bs generalizing s with
  | nil =>
    subst turns
    exact ⟨fun _ => ⟨rfl, fun b => ⟨fun _ => rfl, nofun⟩⟩, fun _ => rfl⟩
  | cons d bs ih =>
    obtain ⟨fresh, nodup⟩ := List.nodup_cons.1 nodup
    rw [List.foldl_cons, releaseRail, if_pos before] at turns
    have params : (removeBranchCause d .rail s).params = s.params := removeBranchCause_params ..
    by_cases still : (removeBranchCause d .rail s).rail.state = .opened
    · obtain ⟨rail, others, own⟩ := removeRail_of_opened before still
      obtain ⟨leaves, keeps⟩ := ih nodup still turns
      rw [rail, params] at keeps
      refine ⟨fun opened => ?_, fun dry => keeps (dry.imp_right fun stays b later vacates => ?_)⟩
      · obtain ⟨rail', bays⟩ := leaves opened
        rw [params] at bays
        refine ⟨rail'.trans rail, fun b => ?_⟩
        by_cases here : b = d
        · subst here
          refine ⟨fun absent => absurd List.mem_cons_self absent, fun _ => ?_⟩
          rw [(bays b).1 fresh]
          exact own
        · rw [← others b here, List.mem_cons, or_iff_right here]
          exact bays b
      · have here : b ≠ d := by rintro rfl; exact fresh later
        rw [VacatesOverWetTray, others b here, removeBranchCause_strip] at vacates
        exact stays b (List.mem_cons_of_mem d later) vacates
    · rw [foldl_releaseRail_of_shut still] at turns
      subst turns
      refine ⟨fun opened => absurd opened still, fun dry => ?_⟩
      exact removeRail_opened (dry.imp_right fun stays => stays d List.mem_cons_self)

theorem exec_railCloseTimeExpires_of {left : Nat} (timer : s.rail.timer = some left) (closing : s.rail.state = .closing) :
    exec .railCloseTimeExpires s = .next (enterClosed (elapse left s)) := by
  simp only [exec, execRailCloseTimeExpires, timer, closing]

theorem exec_railOpenTimeExpires_of {left : Nat} (timer : s.rail.timer = some left) (opening : s.rail.state = .opening) :
    exec .railOpenTimeExpires s = .next (enterOpened (elapse left s)) := by
  simp only [exec, execRailOpenTimeExpires, timer, opening]

/-- Settles O58: `railClosedTold` for the close, `foldl_releaseRail` for the opening. -/
theorem railTimersMoveTheRail : Obligations.RailTimersMoveTheRail := by
  unfold Obligations.RailTimersMoveTheRail
  refine fun s left timer => ⟨fun closing => ?_, fun opening => ?_, fun other => ?_, fun other => ?_⟩
  · rw [exec_railCloseTimeExpires_of timer closing, enterClosed_eq]
    have rail := railClosedTold_rail (elapse left s)
    have branches := railClosedTold_branches (elapse left s)
    have told := railClosedTold_told (elapse left s)
    have record := recordCloses_from (railClosedTold_record (elapse left s)) (elapse_record left s _) (elapse_dock left s)
      rfl rfl
    have bays : ∀ b, ((railClosedTold (elapse left s)).br b).dock = (s.br b).dock ∧
        ((railClosedTold (elapse left s)).br b).causes = (s.br b).causes := fun b => by
      have bay : (railClosedTold (elapse left s)).br b = (s.br b).elapse left := by
        rw [State.br, branches]
        exact elapse_br left s b
      rw [bay]
      exact ⟨rfl, rfl⟩
    have causes : (railClosedTold (elapse left s)).rail.causes = s.rail.causes := by
      rw [rail]
      rfl
    have shut : (railClosedTold (elapse left s)).rail.account = Account.zero ∧
        (railClosedTold (elapse left s)).rail.state = .closed ∧ (railClosedTold (elapse left s)).rail.timer = none := by
      rw [rail]
      exact ⟨rfl, rfl, rfl⟩
    by_cases empty : s.rail.causes = []
    · rw [if_pos (show (elapse left s).rail.causes = [] from empty)]
      exact ⟨_, rfl, shut.1, causes, told, record, fun some => absurd empty some,
        fun _ => ⟨rfl, rfl⟩, bays⟩
    · rw [if_neg (show (elapse left s).rail.causes ≠ [] from empty)]
      exact ⟨_, rfl, shut.1, causes, told, record,
        fun _ => shut.2, fun none => absurd none empty, bays⟩
  · rw [exec_railOpenTimeExpires_of timer opening, enterOpened_eq]
    generalize start : ((elapse left s).updRail fun r => { r with state := .opened, timer := none }) = u
    have bay : ∀ b, u.br b = (s.br b).elapse left := fun b => by
      rw [← start]
      exact elapse_br left s b
    have rail : u.rail.state = .opened ∧ u.rail.timer = none := by rw [← start]; exact ⟨rfl, rfl⟩
    have kept : u.params = s.params ∧ u.drip = s.drip := by rw [← start]; exact ⟨rfl, rfl⟩
    have strips : ∀ n, u.strip n = s.strip n := fun n => by rw [State.strip, kept.2]; rfl
    generalize loop : forBranches releaseRail u = t
    obtain ⟨leaves, keeps⟩ := foldl_releaseRail allBranches (by decide) rail.1 t loop.symm
    rw [kept.1] at leaves keeps
    refine ⟨t, rfl, fun dry => ?_, fun opened b => ?_⟩
    · rw [keeps (dry.imp_right fun stays b _ vacates => stays b ?_)]
      · exact rail
      · simp only [VacatesOverWetTray, bay, strips] at vacates
        exact vacates
    · obtain ⟨causes, stays, exits⟩ := ((leaves opened).2 b).2 (mem_allBranches b)
      rw [bay] at causes stays exits
      exact ⟨causes, fun h => .inl (stays h), exits⟩
  · cases state : s.rail.state <;> simp only [exec, execRailCloseTimeExpires, state]
    exact absurd state other
  · cases state : s.rail.state <;> simp only [exec, execRailOpenTimeExpires, state]
    exact absurd state other
end

end Sys2Proof.Machine
end

section
/-! PROOF. The dock timer of a bay (O49). -/

namespace Sys2Proof.Machine

open Sys2Proof Sys2Proof.Safety

section
variable {s t u : State} {b : BranchNo} {c : BranchCause} {left : Nat} {k : SlotNo}

/-! ## A CLOSED record stands -/

theorem loseIncident_slot (g : Target) (x : Bool) (s : State) (k : SlotNo) : (loseIncident g x s).slot k = s.slot k := by
  rw [State.slot, loseIncident_ring]
  rfl

/-- R144 to R147: a cause that comes to the ring leaves a CLOSED record as it is. -/
theorem ringAdd_slot_of_closed (closed : (s.slot k).state = .closed) (g : Target) (c : Cause) (x : Bool) :
    (ringAdd g c x s).slot k = s.slot k := by
  have apart : ∀ {j}, (s.slot j).state ≠ .closed → j ≠ k := fun open_ same => open_ (same ▸ closed)
  cases ref : incidentOf s g with
  | some j =>
    cases state : (s.slot j).state with
    | opened =>
      rw [ringAdd_of_open ⟨ref, state⟩]
      exact State.updSlot_slot_ne _ _ _ (apart (by rw [state]; decide))
    | closed =>
      rw [ringAdd_of_closed ref (by rw [state]; decide)]
      exact loseIncident_slot ..
    | free =>
      rw [ringAdd_of_closed ref (by rw [state]; decide)]
      exact loseIncident_slot ..
  | none =>
    by_cases takes : s.ring.suspended = false ∧ (s.slot s.ring.fill).state = .free
    · rw [ringAdd_of_free ref takes.1 takes.2, openRecord_slot, if_neg (apart (by rw [takes.2]; decide))]
    · rw [ringAdd_of_full ref (by simpa [imp_iff_not_or] using takes)]
      exact loseIncident_slot ..

theorem addRailCause_slot_of_closed (closed : (s.slot k).state = .closed) (c : RailCause) :
    (addRailCause c s).slot k = s.slot k := by
  have same := (railAnswered_record c s .rail).slot k
  by_cases held : c ∈ s.rail.causes
  · rw [addRailCause_of_mem held]
  · rw [addRailCause_eq held]
    split
    · rw [ringAdd_slot_of_closed (by rwa [same]), same]
    · exact same

theorem commonWet_slot_of_closed (closed : (s.slot k).state = .closed) (n : StripNo) : (commonWet n s).slot k = s.slot k := by
  unfold commonWet
  dsimp only
  split
  · rfl
  · rfl
  · exact addRailCause_slot_of_closed (s := raiseSup .commonWet n.val s) closed .commonRail

theorem enterVacant_slot_of_closed (closed : (s.slot k).state = .closed) (b : BranchNo) :
    (enterVacant b s).slot k = s.slot k := by
  unfold enterVacant
  dsimp only
  split
  · exact commonWet_slot_of_closed (s := s.updBranch b Branch.toVacant) closed _
  · rfl

theorem enterHeld_slot (b : BranchNo) (x : Bool) (s : State) : (enterHeld b x s).slot k = s.slot k := by
  rw [State.slot, enterHeld_ring]
  rfl

theorem enterByContacts_slot_of_closed (closed : (s.slot k).state = .closed) (b : BranchNo) :
    (enterByContacts b s).slot k = s.slot k := by
  unfold enterByContacts
  split
  · exact enterVacant_slot_of_closed closed b
  · split
    · exact enterHeld_slot ..
    · rfl

theorem commonWet_grows (n : StripNo) (s : State) : AttnGrows s (commonWet n s) := by
  have told := raiseSup_grows .commonWet n.val s
  unfold commonWet
  dsimp only
  split
  · exact told
  · exact told.trans (.of_attn rfl)
  · exact told.trans (addRailCause_grows ..)

theorem enterVacant_grows (b : BranchNo) (s : State) : AttnGrows s (enterVacant b s) := by
  unfold enterVacant
  dsimp only
  split
  · exact .trans (t := s.updBranch b Branch.toVacant) (.of_attn rfl) (commonWet_grows ..)
  · exact .of_attn rfl

theorem enterByContacts_grows (b : BranchNo) (s : State) : AttnGrows s (enterByContacts b s) := by
  unfold enterByContacts
  split
  · exact enterVacant_grows ..
  · split
    · exact .of_attn (enterHeld_attn ..)
    · exact .of_attn rfl

/-! ## The timer passes -/

/-- A dock timer that runs out leaves each branch but for its timer and its blink clock. -/
theorem dockTimerRunsOut_br (b : BranchNo) (left : Nat) (s : State) (c : BranchNo) : (dockTimerRunsOut b left s).br c =
    if b = c then { (s.br c).elapse left with dockTimer := none } else (s.br c).elapse left := by
  rw [dockTimerRunsOut, State.updBranch_br]
  by_cases same : b = c
  · subst same
    rw [if_pos rfl, if_pos rfl, elapse_br]
  · rw [if_neg same, if_neg same, elapse_br]

theorem dockTimerRunsOut_br_same (b : BranchNo) (left : Nat) (s : State) : (dockTimerRunsOut b left s).br b =
    { s.br b with dockTimer := none, ledPhase := (s.br b).ledPhase + left } := by
  rw [dockTimerRunsOut_br, if_pos rfl]
  rfl

theorem dockTimerRunsOut_dock (b : BranchNo) (left : Nat) (s : State) (c : BranchNo) :
    ((dockTimerRunsOut b left s).br c).dock = (s.br c).dock ∧ ((dockTimerRunsOut b left s).br c).owner = (s.br c).owner ∧
      ((dockTimerRunsOut b left s).br c).incident = (s.br c).incident ∧
      ((dockTimerRunsOut b left s).br c).lost = (s.br c).lost := by
  rw [dockTimerRunsOut_br]
  split <;> exact ⟨rfl, rfl, rfl, rfl⟩

theorem dockTimerRunsOut_record (b : BranchNo) (left : Nat) (s : State) (g : Target) :
    SameRecord s (dockTimerRunsOut b left s) g := by
  refine ⟨rfl, ?_, ?_⟩ <;> cases g
  · exact (dockTimerRunsOut_dock ..).2.2.1
  · rfl
  · exact (dockTimerRunsOut_dock ..).2.2.2
  · rfl

/-- What came to the ring from a state with the same ring and sequence number came to it from there. -/
theorem recorded_from_seq {g : Target} {c : Cause} {x : Bool} (h : Recorded t u g c x) (same : SameRecord s t g)
    (seq : t.meter.snap = s.meter.snap) : Recorded s u g c x := by
  simpa only [Recorded, HasOpenRecord, same.slot, same.ring, same.ref, same.lost, seq] using h

theorem mayPrime_dockTimerRunsOut : MayPrime (dockTimerRunsOut b left s) b ↔ MayPrime s b := by
  have frozen : AdmissionsFrozen (dockTimerRunsOut b left s) ↔ AdmissionsFrozen s :=
    admissionsFrozen_congr (fun c => by rw [(dockTimerRunsOut_dock b left s c).1]) fun _ => rfl
  simp only [MayPrime, frozen, dockTimerRunsOut_br_same]
  rfl

/-- A cause new to the set of an occupied bay whose timer has run out. -/
theorem timerCause_isolates (occupied : (s.br b).dock ≠ .vacant) (empty : (s.br b).causes = []) (leak : c.leak = true)
    (t : State) (ht : t = addBranchCause b c false (dockTimerRunsOut b left s)) :
    (∀ d, d ≠ b → (t.br d).dock = (s.br d).dock) ∧ (t.br b).dock = isolatedFrom (s.br b).dock ∧ (t.br b).causes = [c] ∧
      ((s.br b).dock.participating = true → (t.br b).grant = 0 ∧ (t.br b).commanded = 0) ∧ ToldOwner s t b .isolated ∧
      Recorded s t (.branch b) (.branch c) false := by
  subst ht
  have own := dockTimerRunsOut_br_same b left s
  have effect := addBranchCause_isolates (s := dockTimerRunsOut b left s) (b := b) (c := c) (by rw [own]; simp [empty]) false
  obtain ⟨dock, owner, -⟩ := dockTimerRunsOut_dock b left s b
  refine ⟨fun d other => ?_, ?_, ?_, fun shut => ?_, fun o own => ?_, ?_⟩
  · rw [effect.others (by rwa [dock]) d other, (dockTimerRunsOut_dock b left s d).1]
  · rw [effect.dock, dock]
  · rw [effect.causes (by rwa [dock]), own]
    simp [empty]
  · obtain ⟨grant, commanded, -⟩ := effect.shut (by rwa [dock])
    exact ⟨grant, commanded⟩
  · exact effect.told o (owner.trans own)
  · exact recorded_from_seq (effect.recorded leak) (dockTimerRunsOut_record ..) rfl

theorem isolated_dockTimer (new : c ∉ (s.br b).causes) (x : Bool) (draining : (s.br b).dock = .draining) :
    ((addBranchCause b c x s).br b).dockTimer = none := by
  rw [addBranchCause_of_occupied (by rw [draining]; decide), addCauseCore_br_same b c x s new]
  simp [Branch.respond, draining, Branch.toIsolated]

/-- R26, R149: a close that completes closes the record of its branch. -/
theorem completeClose_record (b : BranchNo) (s : State) : RecordCloses s (completeClose b s) (.branch b) := fun k has => by
  have slot := closeRecord_slot has k
  rw [if_pos rfl] at slot
  have told := supEntry_closeRecord has
  have closed : ((closeRecord (.branch b) s).slot k).state = .closed := by rw [slot]
  rw [wetNow_eq, flowNow_eq]
  unfold completeClose
  dsimp only
  split
  · exact ⟨(enterByContacts_slot_of_closed closed b).trans slot, (enterByContacts_grows ..).noted told⟩
  · exact ⟨slot, told⟩

theorem completeClose_of_causes (some : (s.br b).causes ≠ []) :
    completeClose b s = (closeRecord (.branch b) s).updBranch b Branch.toIsolated := by
  unfold completeClose
  dsimp only
  rw [if_neg (by rwa [closeRecord_br, List.isEmpty_iff])]

theorem completeClose_of_empty (none : (s.br b).causes = []) :
    completeClose b s = enterByContacts b (closeRecord (.branch b) s) := by
  unfold completeClose
  dsimp only
  rw [if_pos (by rwa [closeRecord_br, List.isEmpty_iff])]

theorem seatSettled_br_ne {d : BranchNo} (other : d ≠ b) : (seatSettled b s).br d = s.br d := by
  unfold seatSettled
  split
  · rfl
  · rw [gate_br_ne _ _ other.symm, State.updBranch_br_ne _ _ _ other.symm]

/-- Settles O49. -/
theorem dockTimersRunOut : Obligations.DockTimersRunOut := by
  unfold Obligations.DockTimersRunOut
  intro s b left timer docksKept
  have own := dockTimerRunsOut_br_same b left s
  have docks := fun d => (dockTimerRunsOut_dock b left s d).1
  refine ⟨fun held => ?_, fun priming empty => ?_, fun releasing => ?_, fun draining empty => ?_, fun isolating => ?_,
    fun other => ?_, fun other => ?_, fun other => ?_, fun other => ?_, fun other => ?_⟩
  · have may : MayPrime (dockTimerRunsOut b left s) b ↔ MayPrime s b := mayPrime_dockTimerRunsOut
    have gated := gate_admitted (s := dockTimerRunsOut b left s) (b := b) (f := fun br => { br with clearance := true })
      (by rw [docks, held]; decide) (by rw [own]; exact held) rfl (by rw [own]) rfl rfl
    refine ⟨seatSettled b (dockTimerRunsOut b left s), by simp only [exec, execSeatSettleExpires, held, timer],
      fun c other => ?_, fun off primes => ?_, fun off waits => ?_, fun on => ?_⟩
    · rw [seatSettled_br_ne other, docks]
    · rw [seatSettled, if_neg (by simp [own, off])]
      obtain ⟨dock, timer, good, clear, trim, account, grant⟩ := gated.1 (may.2 primes)
      exact ⟨dock, timer, good, clear, trim, account, by rw [grant, own]⟩
    · rw [seatSettled, if_neg (by simp [own, off])]
      obtain ⟨dock, clear, timer, -⟩ := gated.2 fun primes => waits (may.1 primes)
      exact ⟨dock, clear, timer⟩
    · rw [seatSettled, if_pos (by simp [own, on]), own]
      exact ⟨held, rfl, rfl⟩
  · have effect := timerCause_isolates (left := left) (c := .primeFail) (by rw [priming]; decide) empty rfl _ rfl
    obtain ⟨kept, dock, causes, shut, told, recorded⟩ := effect
    obtain ⟨grant, commanded⟩ := shut (by rw [priming]; rfl)
    refine ⟨_, by simp only [exec, execPrimeTimeoutExpires, priming, timer], kept, dock.trans ?_, causes, grant, commanded, told,
      recorded⟩
    rw [priming]
    rfl
  · refine ⟨(dockTimerRunsOut b left s).updBranch b (Branch.toDraining s.params),
      by simp only [exec, execCloseTimeExpires, releasing, timer], fun c other => ?_, ?_, ?_, ?_, rfl⟩
    · rw [State.updBranch_br_ne _ _ _ other.symm, docks]
    all_goals
      rw [State.updBranch_br_same, own]
      rfl
  · have effect := timerCause_isolates (left := left) (c := .valvePassing) (by rw [draining]; decide) empty rfl _ rfl
    obtain ⟨kept, dock, causes, -, -, recorded⟩ := effect
    refine ⟨_, by simp only [exec, execDrainLimitExpires, draining, timer], kept, dock.trans ?_, causes, ?_, recorded⟩
    · rw [draining]
      rfl
    · exact isolated_dockTimer (by rw [own]; simp [empty]) false (by rw [docks, draining])
  · refine ⟨completeClose b (dockTimerRunsOut b left s), by simp only [exec, execCloseCompletes, isolating, timer],
      recordCloses_from (completeClose_record b _) (dockTimerRunsOut_record ..) docks rfl rfl, fun some => ?_,
      fun none waits => ?_⟩
    · rw [completeClose_of_causes (by rw [own]; exact some)]
      have shut : (((closeRecord (.branch b) (dockTimerRunsOut b left s)).updBranch b Branch.toIsolated).br b) =
          Branch.toIsolated ((dockTimerRunsOut b left s).br b) := by rw [State.updBranch_br_same, closeRecord_br]
      refine ⟨fun c other => ?_, ?_⟩
      · rw [State.updBranch_br_ne _ _ _ other.symm, closeRecord_br, docks]
      · rw [shut, own]
        exact ⟨rfl, rfl, rfl, rfl⟩
    · rw [completeClose_of_empty (by rw [own]; exact none), enterByContacts_dock]
      · rw [closeRecord_br, own]
        rfl
      · rw [closeRecord_br, own, closeRecord_params]
        exact waits
  · cases dock : (s.br b).dock <;> simp only [exec, execSeatSettleExpires, dock]
    exact absurd dock other
  · cases dock : (s.br b).dock <;> simp only [exec, execPrimeTimeoutExpires, dock]
    exact absurd dock other
  · cases dock : (s.br b).dock <;> simp only [exec, execCloseTimeExpires, dock]
    exact absurd dock other
  · cases dock : (s.br b).dock <;> simp only [exec, execDrainLimitExpires, dock]
    exact absurd dock other
  · cases dock : (s.br b).dock <;> simp only [exec, execCloseCompletes, dock]
    exact absurd dock other
end

end Sys2Proof.Machine
end

section
/-! PROOF. The contact events of a bay (O48). -/

namespace Sys2Proof.Machine

open Sys2Proof Sys2Proof.Safety

section
variable {s t u : State} {b : BranchNo} {c : BranchCause} {k : SlotNo}

/-! ## The mark of an opening contact (R147) -/

theorem markHotPull_of_open (has : HasOpenRecord s (.branch b) k) :
    markHotPull b s = s.updSlot k fun r => { r with hotPull := true } := by
  rw [markHotPull, openSlot_eq_some.2 has]

theorem markHotPull_of_none (none : ∀ k, ¬HasOpenRecord s (.branch b) k) : markHotPull b s = s := by
  cases open_ : openSlot s (.branch b) with
  | none => rw [markHotPull, open_]
  | some k => exact absurd (openSlot_eq_some.1 open_) (none k)

theorem hasOpenRecord_unique {g : Target} {j : SlotNo} (h : HasOpenRecord s g k) (i : HasOpenRecord s g j) : k = j :=
  Option.some.inj (h.1.symm.trans i.1)

/-- R147: the mark changes one flag of one slot. -/
theorem markHotPull_marks (b : BranchNo) (s : State) : HotPullMarked s (markHotPull b s) b ∧
    markHotPull b s = { s with ring := (markHotPull b s).ring } := by
  by_cases has : ∃ k, HasOpenRecord s (.branch b) k
  · obtain ⟨k, has⟩ := has
    rw [markHotPull_of_open has]
    refine ⟨⟨rfl, fun j => ?_⟩, rfl⟩
    rw [State.updSlot_slot]
    split
    case isTrue same =>
      subst same
      simp [has]
    case isFalse other =>
      have not : ¬HasOpenRecord s (.branch b) j := fun also => other (hasOpenRecord_unique has also)
      simp [not]
  · have none := not_exists.1 has
    rw [markHotPull_of_none none]
    exact ⟨⟨rfl, fun j => by simp [none j]⟩, rfl⟩

/-- A record that already carries the mark is not changed by it. -/
theorem markHotPull_of_marked (marked : ∀ k, HasOpenRecord s (.branch b) k → (s.slot k).hotPull = true) :
    markHotPull b s = s := by
  by_cases has : ∃ k, HasOpenRecord s (.branch b) k
  · obtain ⟨k, has⟩ := has
    have same : { s.slot k with hotPull := true } = s.slot k := by rw [← marked k has]
    rw [markHotPull_of_open has, State.updSlot, same, State.slot, Vec.put_pick_self]
  · exact markHotPull_of_none (not_exists.1 has)

/-- R145, R147: a cause by contact leaves the target's OPEN record marked. -/
theorem ringAdd_marked {g : Target} {c : Cause} (has : HasOpenRecord (ringAdd g c true s) g k) :
    ((ringAdd g c true s).slot k).hotPull = true := by
  have lost : ∀ x, (∀ j, incidentOf s g = some j → (s.slot j).state ≠ .opened) → ringAdd g c true s = loseIncident g x s →
      ((ringAdd g c true s).slot k).hotPull = true := fun x shut loses => by
    rw [loses, HasOpenRecord, incidentOf_loseIncident, loseIncident_slot] at has
    exact absurd has.2 (shut k has.1)
  cases ref : incidentOf s g with
  | some j =>
    by_cases state : (s.slot j).state = .opened
    · have joins := ringAdd_of_open ⟨ref, state⟩ c true
      have same : incidentOf (ringAdd g c true s) g = some j := by
        rw [joins, ← ref]
        cases g <;> rfl
      have here : j = k := Option.some.inj (same.symm.trans has.1)
      subst here
      rw [joins, State.updSlot_slot_same]
      exact Bool.or_true _
    · refine lost false (fun i named => ?_) (ringAdd_of_closed ref state c true)
      rwa [← Option.some.inj (ref.symm.trans named)]
  | none =>
    by_cases takes : s.ring.suspended = false ∧ (s.slot s.ring.fill).state = .free
    · have opens := ringAdd_of_free ref takes.1 takes.2 c true
      rw [opens] at has ⊢
      have here : s.ring.fill = k := Option.some.inj ((openRecord_refs g c true s).1.symm.trans has.1)
      rw [openRecord_slot, if_pos here]
    · exact lost true (fun j named => absurd (ref.symm.trans named) (by simp))
        (ringAdd_of_full ref (by simpa [imp_iff_not_or] using takes) c true)

/-- R147: a leak-class cause that a contact adds has its mark already. -/
theorem markHotPull_addCauseCore (new : c ∉ (s.br b).causes) (leak : c.leak = true) :
    markHotPull b (addCauseCore b c true s) = addCauseCore b c true s := by
  rw [addCauseCore_eq new, if_pos leak]
  exact markHotPull_of_marked fun k has => ringAdd_marked has

/-! ## What an opening contact does (R17 to R26) -/

/-- A contact that opens adds cause `c`, which takes the bay to `d`, or marks the OPEN record where the set holds it already;
`u` is the state in which the contact is taken. -/
abbrev Pulls (b : BranchNo) (c : BranchCause) (d : DockState) (s u t : State) : Prop :=
  (c ∉ (s.br b).causes → (t.br b).dock = d ∧ c ∈ (t.br b).causes ∧ OthersKept s t b ∧
    Recorded s t (.branch b) (.branch c) true ∧ t = { u with branches := t.branches, ring := t.ring, attn := t.attn }) ∧
  (c ∈ (s.br b).causes → HotPullMarked s t b ∧ t = { u with ring := t.ring })

/-- The contact of bay `b` as taken, and nothing else of a branch, the ring or the attention sets. -/
structure ContactTaken (b : BranchNo) (s u : State) : Prop where
  own : ∃ x y p q, u.br b = { s.br b with present := x, presentRun := p, latched := y, latchRun := q }
  others : OthersKept s u b
  record : ∀ g, SameRecord s u g
  meter : u.meter = s.meter
  rail : u.rail = s.rail
  loader : u.loader = s.loader
  params : u.params = s.params

theorem ContactTaken.marked (h : ContactTaken b s u) :
    HotPullMarked s (markHotPull b u) b ∧ markHotPull b u = { u with ring := (markHotPull b u).ring } := by
  obtain ⟨⟨ring, slots⟩, frame⟩ := markHotPull_marks b u
  refine ⟨⟨?_, fun k => ?_⟩, frame⟩
  · rw [ring, (h.record (.branch b)).ring]
  · have flag : decide (HasOpenRecord u (.branch b) k) = decide (HasOpenRecord s (.branch b) k) :=
      decide_eq_decide.2 ((h.record (.branch b)).hasOpenRecord k)
    rw [slots k, flag, (h.record (.branch b)).slot]

theorem ContactTaken.opened (h : ContactTaken b s u) (occupied : (s.br b).dock ≠ .vacant)
    (answers : contactCause (s.br b).dock = some c) (leak : c.leak = true) :
    Pulls b c (isolatedFrom (s.br b).dock) s u (contactOpened b u) := by
  obtain ⟨x, y, p, q, own⟩ := h.own
  have dock : (u.br b).dock = (s.br b).dock := by rw [own]
  have causes : (u.br b).causes = (s.br b).causes := by rw [own]
  have taken : contactOpened b u = markHotPull b (addBranchCause b c true u) := by rw [contactOpened, dock, answers]
  have core := addBranchCause_of_occupied (by rwa [dock]) c true
  rw [taken]
  refine ⟨fun new => ?_, fun held => ?_⟩
  · rw [← causes] at new
    have effect := addBranchCause_isolates new true
    rw [core] at effect ⊢
    rw [markHotPull_addCauseCore new leak]
    have only := effect.only
    rw [CauseOnly, effect.rail, addCauseCore_valves, addCauseCore_iso] at only
    exact ⟨by rw [effect.dock, dock], effect.held, fun d other => (effect.others (by rwa [dock]) d other).trans (h.others d other),
      recorded_from (effect.recorded leak) (h.record _) h.meter, only⟩
  · rw [addBranchCause_of_mem (by rwa [causes])]
    exact h.marked

theorem ContactTaken.unanswered (h : ContactTaken b s u) (silent : contactCause (s.br b).dock = none) :
    HotPullMarked s (contactOpened b u) b ∧ contactOpened b u = { u with ring := (contactOpened b u).ring } := by
  obtain ⟨x, y, p, q, own⟩ := h.own
  have dock : (u.br b).dock = (s.br b).dock := by rw [own]
  have taken : contactOpened b u = markHotPull b u := by rw [contactOpened, dock, silent]
  rw [taken]
  exact h.marked

theorem contactCause_closing {d : DockState} (h : d ∈ [DockState.priming, .admitted, .adopting, .releasing, .isolating]) :
    contactCause d = some .hotPull ∧ isolatedFrom d = .isolating ∧ d ≠ .vacant := by
  revert h
  cases d <;> decide

theorem contactCause_none {d : DockState} (h : d ∈ [DockState.vacant, .isolated, .seated, .held, .pullReady]) :
    contactCause d = none := by
  revert h
  cases d <;> decide

/-- R17 to R26: what a contact that opens leaves in the dock states that answer it, and in VACANT and ISOLATED. -/
abbrev ContactAnswered (b : BranchNo) (s u t : State) : Prop :=
  ((s.br b).dock ∈ [DockState.priming, .admitted, .adopting, .releasing, .isolating] → Pulls b .hotPull .isolating s u t) ∧
  ((s.br b).dock = .draining → Pulls b .earlyPull .isolated s u t) ∧
  ((s.br b).dock ∈ [DockState.vacant, .isolated] → HotPullMarked s t b ∧ t = { u with ring := t.ring })

theorem ContactTaken.answered (h : ContactTaken b s u) : ContactAnswered b s u (contactOpened b u) := by
  refine ⟨fun closing => ?_, fun draining => ?_, fun silent => ?_⟩
  · obtain ⟨cause, dock, occupied⟩ := contactCause_closing closing
    rw [← dock]
    exact h.opened occupied cause rfl
  · have effect := h.opened (c := .earlyPull) (by rw [draining]; decide) (by rw [draining]; rfl) rfl
    rwa [draining] at effect
  · exact h.unanswered (contactCause_none (by revert silent; cases (s.br b).dock <;> decide))

/-- A bay in SEATED, HELD or PULL_READY is none that answers a contact with a cause. -/
theorem contactAnswered_of_waiting (waits : (s.br b).dock ∈ [DockState.seated, .held, .pullReady]) (u t : State) :
    ContactAnswered b s u t := by
  refine ⟨fun closing => ?_, fun draining => ?_, fun silent => ?_⟩
  · exact absurd waits (by revert closing; cases (s.br b).dock <;> decide)
  · exact absurd waits (by rw [draining]; decide)
  · exact absurd waits (by revert silent; cases (s.br b).dock <;> decide)

theorem updBranch_record {f : Branch → Branch} (incident : (f (s.br b)).incident = (s.br b).incident)
    (lost : (f (s.br b)).lost = (s.br b).lost) (g : Target) : SameRecord s (s.updBranch b f) g := by
  have refs : ∀ d, ((s.updBranch b f).br d).incident = (s.br d).incident ∧ ((s.updBranch b f).br d).lost = (s.br d).lost :=
    fun d => by
      by_cases same : b = d
      · subst same
        rw [State.updBranch_br_same]
        exact ⟨incident, lost⟩
      · rw [State.updBranch_br_ne _ _ _ same]
        exact ⟨rfl, rfl⟩
  cases g with
  | branch d => exact ⟨rfl, (refs d).1, (refs d).2⟩
  | rail => exact ⟨rfl, rfl, rfl⟩

theorem updPins_record (f : Pins → Pins) (s : State) (g : Target) : SameRecord s (s.updPins f) g := by
  cases g <;> exact ⟨rfl, rfl, rfl⟩

theorem setPresent_taken (b : BranchNo) (x : Bool) (s : State) : ContactTaken b s (setPresent b x s) where
  own := ⟨x, (s.br b).latched, 0, (s.br b).latchRun, State.updBranch_br_same ..⟩
  others _ other := State.updBranch_br_ne _ _ _ other.symm
  record g := (updPins_record _ s g).trans (updBranch_record rfl rfl g)
  meter := rfl
  rail := rfl
  loader := rfl
  params := rfl

theorem setLatched_taken (b : BranchNo) (x : Bool) (s : State) : ContactTaken b s (setLatched b x s) where
  own := ⟨(s.br b).present, x, (s.br b).presentRun, 0, State.updBranch_br_same ..⟩
  others _ other := State.updBranch_br_ne _ _ _ other.symm
  record g := (updPins_record _ s g).trans (updBranch_record rfl rfl g)
  meter := rfl
  rail := rfl
  loader := rfl
  params := rfl

/-! ## The contacts stand under what they bring (R6) -/

theorem gate_wiresStand (b : BranchNo) (s : State) : WiresStand s (gate b s) := by
  obtain same | ⟨-, primes⟩ := gate_eq b s
  · rw [same]
    exact .refl s
  · rw [primes]
    exact updBranch_wiresStand rfl

theorem leftVacant_wiresStand (b : BranchNo) (s : State) : WiresStand s (leftVacant b s) := by
  unfold leftVacant
  dsimp only
  refine .trans ?_ (forBranches_wiresStand gate_wiresStand _)
  split
  · exact .refl s
  · exact addCauseCore_wiresStand ..

theorem addBranchCause_wiresStand (b : BranchNo) (c : BranchCause) (x : Bool) (s : State) :
    WiresStand s (addBranchCause b c x s) := by
  have core := addCauseCore_wiresStand b c x s
  unfold addBranchCause
  dsimp only
  split
  · exact core.trans (leftVacant_wiresStand ..)
  · exact core

theorem markHotPull_wiresStand (b : BranchNo) (s : State) : WiresStand s (markHotPull b s) :=
  wiresStand_of_branches (by rw [(markHotPull_marks b s).2])

theorem contactOpened_wiresStand (b : BranchNo) (s : State) : WiresStand s (contactOpened b s) := by
  unfold contactOpened
  split
  · exact (addBranchCause_wiresStand ..).trans (markHotPull_wiresStand ..)
  · exact markHotPull_wiresStand ..

theorem commonWet_wiresStand (n : StripNo) (s : State) : WiresStand s (commonWet n s) := by
  unfold commonWet
  dsimp only
  split
  · exact wiresStand_of_branches rfl
  · exact wiresStand_of_branches rfl
  · exact (wiresStand_of_branches rfl : WiresStand s (raiseSup .commonWet n.val s)).trans (addRailCause_wiresStand ..)

theorem enterVacant_wiresStand (b : BranchNo) (s : State) : WiresStand s (enterVacant b s) := by
  have entered : WiresStand s (s.updBranch b Branch.toVacant) := updBranch_wiresStand rfl
  unfold enterVacant
  dsimp only
  split
  · exact entered.trans (commonWet_wiresStand ..)
  · exact entered

theorem enterHeld_wiresStand (b : BranchNo) (x : Bool) (s : State) : WiresStand s (enterHeld b x s) := by
  have entered : WiresStand s (s.updBranch b (Branch.toHeld s.params.seatSettle x)) := updBranch_wiresStand rfl
  unfold enterHeld
  dsimp only
  split
  · exact entered.trans (gate_wiresStand ..)
  · exact entered

theorem enterSeated_wiresStand (b : BranchNo) (s : State) : WiresStand s (enterSeated b s) := updBranch_wiresStand rfl

theorem sledArrives_wiresStand (b : BranchNo) (s : State) : WiresStand s (sledArrives b s) := by
  unfold sledArrives
  refine .trans ?_ (leftVacant_wiresStand ..)
  split
  · exact enterHeld_wiresStand ..
  · exact enterSeated_wiresStand ..

/-! ## A sled comes into a VACANT bay (R9 to R11, R126) -/

theorem leftVacant_of_opened (opened : s.rail.state = .opened) (b : BranchNo) : leftVacant b s = gateAll s := by
  rw [leftVacant, if_pos opened]

theorem sledArrives_seated (opened : s.rail.state = .opened) (unlatched : (s.br b).latched = false) :
    ((sledArrives b s).br b).dock = .seated := by
  have seated : ((enterSeated b s).br b).dock = .seated := by
    rw [enterSeated, State.updBranch_br_same]
    rfl
  rw [sledArrives, if_neg (by simp [unlatched]), leftVacant_of_opened (s := enterSeated b s) opened,
    gateAll_br_of_not_held (by rw [seated]; decide), seated]

theorem sledArrives_held (opened : s.rail.state = .opened) (latched : (s.br b).latched = true)
    (waits : (s.br b).hold = true ∨ s.params.seatSettle ≠ 0) : ((sledArrives b s).br b).dock = .held := by
  have held : (enterHeld b false s).br b = Branch.toHeld s.params.seatSettle false (s.br b) := by
    rw [enterHeld_of_waits waits, State.updBranch_br_same]
  have waiting : (Branch.toHeld s.params.seatSettle false (s.br b)).clearance = false := by
    rcases waits with hold | settle
    · simp [Branch.toHeld, hold]
    · simp [Branch.toHeld, settle]
  rw [sledArrives, if_pos latched, leftVacant_of_opened (by rwa [enterHeld_rail]), gateAll_br, if_neg, held]
  · rfl
  · simp [gateOpen, held, waiting]

theorem enterHeld_of_shut (shut : s.rail.state ≠ .opened) (x : Bool) :
    enterHeld b x s = s.updBranch b (Branch.toHeld s.params.seatSettle x) := by
  unfold enterHeld
  dsimp only
  split
  · rw [gate, if_neg (by simp [gateOpen, shut])]
  · rfl

theorem sledArrives_isolated (shut : s.rail.state ≠ .opened) (empty : (s.br b).causes = []) :
    ((sledArrives b s).br b).dock = .isolated ∧ ((sledArrives b s).br b).causes = [.rail] := by
  obtain ⟨u, taken, dock, causes, rail⟩ : ∃ u, sledArrives b s = leftVacant b u ∧ isolatedFrom (u.br b).dock = .isolated ∧
      (u.br b).causes = [] ∧ u.rail = s.rail := by
    unfold sledArrives
    split
    · refine ⟨_, rfl, ?_⟩
      rw [enterHeld_of_shut shut, State.updBranch_br_same]
      exact ⟨rfl, empty, rfl⟩
    · refine ⟨_, rfl, ?_⟩
      rw [enterSeated, State.updBranch_br_same]
      exact ⟨rfl, empty, rfl⟩
  have new : BranchCause.rail ∉ (u.br b).causes := by simp [causes]
  have isolated := (addCauseCore_dock new false).trans dock
  rw [taken, leftVacant, if_neg (by rwa [rail]), gateAll_br_of_not_held (by rw [isolated]; decide)]
  exact ⟨isolated, by rw [addCauseCore_causes new false, causes]; rfl⟩

/-- Settles O48. -/
theorem contactsMoveTheBay : Obligations.ContactsMoveTheBay := by
  unfold Obligations.ContactsMoveTheBay
  intro s b
  have present := fun x => setPresent_taken b x s
  have latch := fun x => setLatched_taken b x s
  have presentOwn : ∀ x, (setPresent b x s).br b = { s.br b with present := x, presentRun := 0 } := fun x =>
    State.updBranch_br_same ..
  have latchOwn : ∀ x, (setLatched b x s).br b = { s.br b with latched := x, latchRun := 0 } := fun x =>
    State.updBranch_br_same ..
  refine ⟨fun loading => ⟨fun off => ?_, fun off => ?_, fun on => ?_, fun on => ?_⟩, fun on => ?_, fun off => ?_,
    fun off => ?_, fun on => ?_, fun ready => ⟨fun off => ?_, fun on => ?_, fun off => ?_, fun on => ?_⟩⟩
  · simp only [exec, execPresentCloses, off, loading]
    simp
    rfl
  · simp only [exec, execLatchCloses, off, loading]
    simp
    rfl
  · refine ⟨markHotPull b (setPresent b false s), ?_, (present false).marked⟩
    simp [exec, execPresentOpens, on, loading]
  · refine ⟨markHotPull b (setLatched b false s), ?_, (latch false).marked⟩
    simp [exec, execLatchOpens, on, loading]
  · simp [exec, execPresentCloses, on]
  · simp [exec, execPresentOpens, off]
  · simp [exec, execLatchOpens, off]
  · simp [exec, execLatchCloses, on]
  · generalize taken : setPresent b true s = u
    have own : u.br b = { s.br b with present := true, presentRun := 0 } := by rw [← taken, presentOwn]
    have same : u.rail = s.rail ∧ u.params = s.params := by rw [← taken]; exact ⟨rfl, rfl⟩
    have runs : exec (.presentCloses b) s = .next (if (s.br b).dock = .vacant then sledArrives b u else u) := by
      simp [exec, execPresentCloses, off, ready, taken]
    rw [runs]
    refine ⟨_, rfl, ?_, fun vacant opened unlatched => ?_, fun vacant opened latched settles => ?_,
      fun vacant shut empty => ?_, fun occupied => ?_⟩
    · have taken' : (u.br b).present = true := by rw [own]
      split
      · rw [wires_present ((sledArrives_wiresStand b u).br b), taken']
      · exact taken'
    · rw [if_pos vacant]
      exact sledArrives_seated (by rwa [same.1]) (by rwa [own])
    · rw [if_pos vacant]
      exact sledArrives_held (by rwa [same.1]) (by rwa [own]) (by rwa [own, same.2])
    · rw [if_pos vacant]
      exact sledArrives_isolated (by rwa [same.1]) (by rwa [own])
    · rw [if_neg occupied, ← taken]
      rfl
  · generalize taken : setPresent b false s = u
    have contact : ContactTaken b s u := taken ▸ present false
    have own : (u.br b).present = false := by rw [← taken, presentOwn]
    have runs : exec (.presentOpens b) s = .next (if leavesOnOpen (s.br b).dock then enterVacant b u else contactOpened b u) := by
      simp [exec, execPresentOpens, on, ready, taken]
    rw [runs]
    by_cases leaves : leavesOnOpen (s.br b).dock = true
    · have waits : (s.br b).dock ∈ [DockState.seated, .held, .pullReady] := by
        revert leaves
        cases (s.br b).dock <;> decide
      rw [if_pos leaves]
      exact ⟨_, rfl, by rw [wires_present ((enterVacant_wiresStand b u).br b), own], fun _ => enterVacant_dock b u,
        contactAnswered_of_waiting waits _ _⟩
    · rw [if_neg leaves]
      refine ⟨_, rfl, by rw [wires_present ((contactOpened_wiresStand b u).br b), own], fun waits => ?_, ?_⟩
      · exact absurd (by revert waits; cases (s.br b).dock <;> decide) leaves
      · have answered := contact.answered
        rw [← taken] at answered ⊢
        exact answered
  · generalize taken : setLatched b true s = u
    have own : u.br b = { s.br b with latched := true, latchRun := 0 } := by rw [← taken, latchOwn]
    have params : u.params = s.params := by rw [← taken]; rfl
    have runs : exec (.latchCloses b) s =
        .next (if (s.br b).dock = .seated ∧ (s.br b).present = true then enterHeld b false u else u) := by
      simp [exec, execLatchCloses, off, ready, taken]
    rw [runs]
    refine ⟨_, rfl, ?_, fun seated there settles => ?_, fun stays => ?_⟩
    · have taken' : (u.br b).latched = true := by rw [own]
      split
      · rw [wires_latched ((enterHeld_wiresStand b false u).br b), taken']
      · exact taken'
    · rw [if_pos ⟨seated, there⟩, enterHeld_of_waits (by rwa [own, params]), State.updBranch_br_same]
      rfl
    · rw [if_neg fun both => stays.elim (fun h => h both.1) (fun h => by simp [both.2] at h), ← taken]
      rfl
  · generalize taken : setLatched b false s = u
    have contact : ContactTaken b s u := taken ▸ latch false
    have own : (u.br b).latched = false := by rw [← taken, latchOwn]
    have runs : exec (.latchOpens b) s = .next (if (s.br b).dock = .isolating then contactOpened b u
        else if (s.br b).present = false then markHotPull b u
        else if (s.br b).dock = .held then enterSeated b u else contactOpened b u) := by
      simp [exec, execLatchOpens, on, ready, taken]
    have opened : ((contactOpened b u).br b).latched = false := by
      rw [wires_latched ((contactOpened_wiresStand b u).br b), own]
    have answered := contact.answered
    have marked := contact.marked
    have silent := fun none => contact.unanswered (contactCause_none none)
    rw [runs]
    by_cases isolating : (s.br b).dock = .isolating
    · rw [if_pos isolating]
      rw [← taken] at opened answered ⊢
      refine ⟨_, rfl, opened, fun _ => ⟨fun held => ?_, answered, fun waits => ?_⟩, fun _ => ⟨fun _ => answered, fun not => ?_⟩⟩
      · exact absurd (isolating.symm.trans held) (by decide)
      · exact absurd waits (by rw [isolating]; decide)
      · exact absurd isolating not
    · rw [if_neg isolating]
      by_cases there : (s.br b).present = false
      · rw [if_pos there]
        rw [← taken] at own marked ⊢
        refine ⟨_, rfl, ?_, fun also => ?_, fun _ => ⟨fun closing => absurd closing isolating, fun _ => marked⟩⟩
        · rw [wires_latched ((markHotPull_wiresStand b _).br b), own]
        · exact absurd (there.symm.trans also) (by decide)
      · rw [if_neg there]
        by_cases held : (s.br b).dock = .held
        · rw [if_pos held]
          refine ⟨_, rfl, ?_, fun _ => ⟨fun _ => ?_, ?_, fun waits => ?_⟩, fun away => absurd away there⟩
          · rw [wires_latched ((enterSeated_wiresStand b u).br b), own]
          · rw [enterSeated, State.updBranch_br_same]
            rfl
          · exact contactAnswered_of_waiting (by rw [held]; decide) _ _
          · exact absurd waits (by rw [held]; decide)
        · rw [if_neg held]
          rw [← taken] at opened answered silent ⊢
          exact ⟨_, rfl, opened, fun _ => ⟨fun h => absurd h held, answered, fun waits => silent (by
            revert waits
            cases (s.br b).dock <;> decide)⟩, fun away => absurd away there⟩
end

end Sys2Proof.Machine
end

section
/-! PROOF. The changes of a drip strip (O59). -/

namespace Sys2Proof.Machine

open Sys2Proof Sys2Proof.Safety

section
variable {s t u : State} {b : BranchNo} {n : StripNo} {level : StripState}

/-! ## A freeze that is over (R13, R118) -/

theorem gateOpen_iff (s : State) (b : BranchNo) : gateOpen s b = true ↔ (s.br b).dock = .held ∧ (s.br b).clearance = true ∧
    s.rail.state = .opened ∧ s.loader.loading = false ∧ (s.br b).causes = [] ∧ ¬AdmissionsFrozen s := by
  have thaw : frozen s = false ↔ ¬AdmissionsFrozen s := by rw [← frozen_iff, Bool.not_eq_true]
  simp only [gateOpen, ← thaw, Bool.and_eq_true, decide_eq_true_eq, List.isEmpty_iff, Bool.not_eq_true', and_assoc]

theorem gateAll_baysOnly (s : State) : BaysOnly s (gateAll s) :=
  forBranches_inv (BaysOnly s) gate (fun b u only => only.trans (gate_baysOnly b u)) s (.refl s)

theorem gateAll_frozen_iff (s : State) : AdmissionsFrozen (gateAll s) ↔ AdmissionsFrozen s := by
  refine admissionsFrozen_congr (fun b => ?_) fun m => by rw [State.strip, gateAll_drip]; rfl
  rw [gateAll_br]
  split
  · rename_i opens
    rw [((gateOpen_iff s b).1 opens).1]
    simp [Branch.toPriming]
  · rfl

/-! ## The strip as taken (R112, R113, R173) -/

/-- The strip with its level, in the delta set, and its pin. -/
def stripTaken (n : StripNo) (level : StripState) (s : State) : State :=
  takeStrip n level (s.updPins fun p => { p with strips := Vec.put p.strips n (StripPins.show level (Vec.pick p.strips n)) })

theorem exec_stripStateChange_of_ne (changes : (s.strip n).state ≠ level) : exec (.stripStateChange n level) s =
    .next (stripConsequences n (s.strip n).state level (stripTaken n level s)) := by
  rw [exec, execStripStateChange, if_neg changes, stripTaken]

theorem stripTaken_frame (n : StripNo) (level : StripState) (s : State) : stripTaken n level s = { s with
    drip := { s.drip with strips := (stripTaken n level s).drip.strips }
    attn := (stripTaken n level s).attn
    pins := (stripTaken n level s).pins } := rfl

theorem stripTaken_strip (n : StripNo) (level : StripState) (s : State) (m : StripNo) : (stripTaken n level s).strip m =
    if n = m then { s.strip n with state := level, candidate := none, count := 0, changed := true } else s.strip m := by
  have strips := State.updStrip_strip (s.updPins fun p => { p with
    strips := Vec.put p.strips n (StripPins.show level (Vec.pick p.strips n)) }) n
    (fun x => { x with state := level, candidate := none, count := 0, changed := true }) m
  exact strips

theorem stripTaken_record (n : StripNo) (level : StripState) (s : State) (g : Target) :
    SameRecord s (stripTaken n level s) g := by
  cases g <;> exact ⟨rfl, rfl, rfl⟩

theorem stripConsequences_of_loading (loading : s.loader.loading = true) (n : StripNo) (old level : StripState) :
    stripConsequences n old level s = s := if_pos loading

theorem stripConsequences_wet (ready : s.loader.loading = false) (n : StripNo) (old : StripState) :
    stripConsequences n old .wet s = stripEntersWet n s := by
  rw [stripConsequences, if_neg (by simp [ready]), if_pos rfl]

theorem stripConsequences_other (ready : s.loader.loading = false) (n : StripNo) (old : StripState) (other : level ≠ .wet) :
    stripConsequences n old level s = if old = .wet then gateAll s else s := by
  rw [stripConsequences, if_neg (by simp [ready]), if_neg other]

theorem stripEntersWet_common (role : CommonRole s n) : stripEntersWet n s = commonWet n s := by
  have common : actsCommon s n = true := (actsCommon_iff s n).2 role
  unfold stripEntersWet
  simp only [common, if_true, dite_eq_ite, ite_self]

theorem stripEntersWet_tray (occupied : (s.br b).dock ≠ .vacant) :
    stripEntersWet (trayStrip b) s = addBranchCause b .trayWet false s := by
  have low : (trayStrip b).val < 12 := b.isLt
  have own : actsCommon s (trayStrip b) ≠ true := fun common => by
    obtain high | ⟨d, same, vacant⟩ := (actsCommon_iff s _).1 common
    · exact absurd high (by omega)
    · have here : d = b := Fin.ext same
      exact occupied (here ▸ vacant)
  unfold stripEntersWet
  rw [dif_pos low, if_neg own]
  rfl

theorem stripEntersWet_strip (n : StripNo) (s : State) (m : StripNo) : (stripEntersWet n s).strip m = s.strip m := by
  unfold stripEntersWet
  split
  · split
    · exact commonWet_strip ..
    · rw [State.strip, addBranchCause_drip]
      rfl
  · exact commonWet_strip ..

theorem stripConsequences_strip (n : StripNo) (old level : StripState) (s : State) (m : StripNo) :
    (stripConsequences n old level s).strip m = s.strip m := by
  unfold stripConsequences
  split
  · rfl
  · split
    · exact stripEntersWet_strip ..
    · split
      · rw [State.strip, gateAll_drip]
        rfl
      · rfl

theorem stripEntersWet_grows (n : StripNo) (s : State) : AttnGrows s (stripEntersWet n s) := by
  unfold stripEntersWet
  split
  · split
    · exact commonWet_grows ..
    · exact addBranchCause_grows ..
  · exact commonWet_grows ..

theorem stripConsequences_grows (n : StripNo) (old level : StripState) (s : State) :
    AttnGrows s (stripConsequences n old level s) := by
  unfold stripConsequences
  split
  · exact .refl s
  · split
    · exact stripEntersWet_grows ..
    · split
      · exact .of_attn (gateAll_attn s)
      · exact .refl s

/-! ## A common strip enters WET (R117, R119, R141) -/

theorem commonWet_told (n : StripNo) (s : State) : isPending ((commonWet n s).attnOf supLine) (.sup .commonWet) = true := by
  have told := isPending_raiseSup .commonWet n.val s
  unfold commonWet
  dsimp only
  split
  · exact told
  · exact told
  · exact (addRailCause_grows ..).pending told

theorem commonWet_freezes (role : CommonRole s n) (wet : (s.strip n).state = .wet) : AdmissionsFrozen (commonWet n s) := by
  refine ⟨n, role.imp_right fun ⟨b, same, vacant⟩ => ⟨b, same, (commonWet_vacant_iff n s b).2 vacant⟩, ?_⟩
  rw [commonWet_strip]
  exact wet

theorem commonWet_alarm (alarm : s.params.wetAction = .alarm) : commonWet n s = raiseSup .commonWet n.val s := by
  rw [commonWet]
  simp only [raiseSup_params, alarm]

theorem commonWet_locate (locate : s.params.wetAction = .locate) :
    commonWet n s = startLocate n (raiseSup .commonWet n.val s) := by
  rw [commonWet]
  simp only [raiseSup_params, locate]

theorem commonWet_ofRail (action : s.params.wetAction = .rail) :
    commonWet n s = addRailCause .commonRail (raiseSup .commonWet n.val s) := by
  rw [commonWet]
  simp only [raiseSup_params, action]

theorem commonWet_closesRail (action : s.params.wetAction = .rail) (n : StripNo) :
    RailCause.commonRail ∈ (commonWet n s).rail.causes ∧ (TripOutLaw s → (commonWet n s).iso.tripOut = true) ∧
      (RailCause.commonRail ∉ s.rail.causes → Recorded s (commonWet n s) .rail (.rail .commonRail) false) := by
  rw [commonWet_ofRail action]
  by_cases held : RailCause.commonRail ∈ s.rail.causes
  · rw [addRailCause_of_mem (s := raiseSup .commonWet n.val s) held]
    exact ⟨held, fun law => law.2 (.inr held), absurd held⟩
  · have answers := addRailCause_answers (s := raiseSup .commonWet n.val s) held
    have there : RailCause.commonRail ∈ (addRailCause .commonRail (raiseSup .commonWet n.val s)).rail.causes := by
      rw [answers.causes]
      simp
    refine ⟨there, fun _ => ?_, fun _ => recorded_from (answers.recorded rfl) ?_ rfl⟩
    · rw [answers.iso]
      simp [tripOutOf, there]
    · exact ⟨rfl, rfl, rfl⟩

/-- R116: a leak-class cause is in the set, and new to it comes to the ring. -/
theorem addBranchCause_leak {c : BranchCause} (leak : c.leak = true) (b : BranchNo) (x : Bool) (s : State) :
    c ∈ ((addBranchCause b c x s).br b).causes ∧ (c ∉ (s.br b).causes →
      ((addBranchCause b c x s).br b).dock = isolatedFrom (s.br b).dock ∧
      Recorded s (addBranchCause b c x s) (.branch b) (.branch c) x) := by
  by_cases held : c ∈ (s.br b).causes
  · rw [addBranchCause_of_mem held]
    exact ⟨held, absurd held⟩
  · have effect := addBranchCause_isolates held x
    exact ⟨effect.held, fun _ => ⟨effect.dock, effect.recorded leak⟩⟩

/-- Settles O59. -/
theorem stripChangesReachTheirOwners : Obligations.StripChangesReachTheirOwners := by
  unfold Obligations.StripChangesReachTheirOwners
  intro s n level
  by_cases same : (s.strip n).state = level
  · have strips := State.updStrip_strip (s.updPins fun p => { p with
      strips := Vec.put p.strips n (StripPins.show level (Vec.pick p.strips n)) }) n
      (fun x => { x with candidate := none, count := 0 })
    refine ⟨_, by rw [exec, execStripStateChange, if_pos same], ?_⟩
    have own := (strips n).trans (if_pos rfl)
    beta_reduce
    rw [own]
    refine ⟨same, rfl, rfl, fun m other => (strips m).trans (if_neg other.symm), fun _ => ⟨rfl, rfl⟩,
      fun changes => absurd same changes⟩
  · rw [exec_stripStateChange_of_ne same]
    generalize taken : stripTaken n level s = v
    have frame : v = { s with
        drip := { s.drip with strips := v.drip.strips }
        attn := v.attn
        pins := v.pins } := taken ▸ stripTaken_frame n level s
    have strips : ∀ m, v.strip m = if n = m then { s.strip n with state := level, candidate := none, count := 0, changed := true }
        else s.strip m := taken ▸ stripTaken_strip n level s
    have record : ∀ g, SameRecord s v g := taken ▸ stripTaken_record n level s
    have told : isPending (v.attnOf supLine) (.sup .stripChange) = true := by
      rw [← taken]
      exact isPending_raiseSup ..
    have bays : ∀ b, v.br b = s.br b := fun b => by rw [frame]; rfl
    have roles : ∀ m, CommonRole v m ↔ CommonRole s m := fun m => by simp only [CommonRole, bays]
    have after := stripConsequences_strip n (s.strip n).state level v
    have own := (after n).trans ((strips n).trans (if_pos rfl))
    refine ⟨_, rfl, ?_⟩
    beta_reduce
    rw [own]
    refine ⟨rfl, rfl, rfl, fun m other => (after m).trans ((strips m).trans (if_neg other.symm)), fun e => absurd e same,
      fun _ => ⟨rfl, (stripConsequences_grows ..).pending told, fun loading => ?_, fun ready wet => ?_, fun ready dry => ?_⟩⟩
    · rw [stripConsequences_of_loading (by rw [frame]; exact loading)]
      exact frame
    · subst wet
      have ready' : v.loader.loading = false := by rw [frame]; exact ready
      have params : v.params = s.params := by rw [frame]
      have meter : v.meter = s.meter := by rw [frame]
      rw [stripConsequences_wet ready'] at own ⊢
      refine ⟨fun b tray occupied => ?_, fun role => ?_⟩
      · obtain ⟨there, new⟩ := addBranchCause_leak (c := .trayWet) rfl b false v
        rw [tray, stripEntersWet_tray (by rwa [bays])]
        rw [bays] at new
        exact ⟨there, fun fresh => ⟨(new fresh).1, recorded_from (new fresh).2 (record _) meter⟩⟩
      · have role' := (roles n).2 role
        rw [stripEntersWet_common role'] at own ⊢
        refine ⟨commonWet_told n v, commonWet_freezes role' ((strips n).trans (if_pos rfl) ▸ rfl), fun alarm => ?_, fun locate => ?_,
          fun action => ?_⟩
        · rw [commonWet_alarm (by rwa [params]), frame]
          exact ⟨rfl, rfl⟩
        · rw [commonWet_locate (by rwa [params]), ← params]
          exact ⟨rfl, rfl, rfl⟩
        · obtain ⟨there, out, recorded⟩ := commonWet_closesRail (by rwa [params]) n
          have rail : v.rail = s.rail := by rw [frame]
          have law : TripOutLaw s → TripOutLaw v := by rw [frame]; exact id
          exact ⟨there, fun h => out (law h), fun fresh => recorded_from (recorded (by rwa [rail])) (record _) meter⟩
    · have ready' : v.loader.loading = false := by rw [frame]; exact ready
      have rail : v.rail = s.rail := by rw [frame]
      have params : v.params = s.params := by rw [frame]
      rw [stripConsequences_other ready' n _ dry]
      by_cases wet : (s.strip n).state = .wet
      · have gate := gateAll_br v
        have opens : ∀ b, gateOpen v b = true ↔ _ := fun b => gateOpen_iff v b
        simp only [bays, rail, ready', true_and, ← gateAll_frozen_iff v] at gate opens
        rw [if_pos wet]
        refine ⟨?_, fun b thaws => ?_, fun b stays => ?_⟩
        · rw [(gateAll_baysOnly v).frame, frame]
        · obtain ⟨-, thawed, held, clear, opened, empty⟩ := thaws
          rw [EntersPriming, gate, if_pos ((opens b).2 ⟨held, clear, opened, empty, thawed⟩), params]
          exact Branch.toPriming_of_held s.params held
        · rw [gate, if_neg fun open_ => stays ?_]
          obtain ⟨held, clear, opened, empty, thawed⟩ := (opens b).1 open_
          exact ⟨wet, thawed, held, clear, opened, empty⟩
      · rw [if_neg wet]
        refine ⟨?_, fun b thaws => absurd thaws.1 wet, fun b _ => bays b⟩
        rw [frame]
end

end Sys2Proof.Machine
end

section
/-! PROOF. The Balance Monitor and the locate: what they judge and the causes they hand (O53). -/

namespace Sys2Proof.Machine

open Sys2Proof Sys2Proof.Safety

section
variable {s t u : State} {b : BranchNo}

/-! ## What is balanced (R92, R104) -/

theorem supplyHealthy_iff (s : State) (b : BranchNo) :
    supplyHealthy s b = true ↔ (s.snapChannel (supplyChannel b)).health = .healthy := decide_eq_true_iff

theorem returnHealthy_iff (s : State) (b : BranchNo) :
    returnHealthy s b = true ↔ (s.snapChannel (returnChannel b)).health = .healthy := decide_eq_true_iff

theorem metersGood_iff (s : State) (b : BranchNo) : (supplyHealthy s b && returnHealthy s b) = true ↔ MetersGood s b := by
  rw [Bool.and_eq_true, supplyHealthy_iff, returnHealthy_iff]

theorem balanced_iff (s : State) (b : BranchNo) :
    balanced s b = true ↔ ((s.br b).dock = .admitted ∨ (s.br b).dock = .adopting) ∧ MetersGood s b := by
  simp only [balanced, Bool.and_assoc, Bool.and_eq_true (_ || _), metersGood_iff, Bool.or_eq_true, decide_eq_true_eq]

theorem railMetersHealthy_iff (s : State) : railMetersHealthy s = true ↔ RailMetersGood s := by
  simp only [railMetersHealthy, Bool.and_eq_true, decide_eq_true_eq, List.all_eq_true, Bool.or_eq_true, mem_allBranches,
    forall_const, supplyHealthy_iff, returnHealthy_iff, RailMetersGood, MetersGood, and_assoc, ← or_iff_not_imp_left, ne_eq]

/-! ## What an account becomes (R94 to R96, R105, R106) -/

theorem judgeAccount_judged (threshold confirm above a : Nat) :
    AccountJudged threshold confirm above a (judgeAccount threshold confirm above a) := by
  unfold judgeAccount AccountJudged
  split
  case isTrue low => exact ⟨rfl, fun _ => ⟨rfl, rfl⟩, by omega, by omega⟩
  case isFalse =>
    split
    case isTrue => exact ⟨rfl, by omega, fun _ _ => ⟨rfl, rfl⟩, by omega⟩
    case isFalse =>
      dsimp only
      split
      · exact ⟨rfl, by omega, by omega, fun _ _ => ⟨rfl, rfl⟩⟩
      · exact ⟨rfl, by omega, by omega, fun _ _ => ⟨rfl, rfl⟩⟩

theorem tolerance_eq (deadband slip : Nat) (volume : Int) : tolerance deadband slip volume = toleranceFor deadband slip volume :=
  (Int.natCast_add ..).symm

theorem newAccount_judged (u : State) (b : BranchNo) :
    AccountJudged u.params.tripThreshold u.params.confirmCount (u.br b).account.above
      (integratorAfter u.params.decayShift (u.br b).account.integrator
        (lossOf u b - toleranceFor u.params.deadband u.params.slip (u.snapChannel (supplyChannel b)).volume))
      (newAccount u b) := by
  rw [← tolerance_eq]
  exact judgeAccount_judged ..

theorem newRailAccount_judged (u : State) :
    AccountJudged u.params.railThreshold u.params.confirmCount u.rail.account.above
      (integratorAfter u.params.decayShift u.rail.account.integrator
        (railLossOf u - toleranceFor u.params.railDeadband u.params.railSlip (u.snapChannel 24).volume))
      (newRailAccount u) := by
  rw [← tolerance_eq]
  exact judgeAccount_judged ..

theorem balanceCauses_eq (u : State) (b : BranchNo) (x : Account) : balanceCauses u b x = handedBy u b x := by
  simp only [balanceCauses, handedBy, imbalance, supplyVolume, returnVolume, lossOf, ge_iff_le, Bool.or_eq_true,
    Bool.and_eq_true, decide_eq_true_eq, trayWet_iff]
  congr

/-! ## The parts of the Balance Monitor and of the locate (R97 to R102, R106, R119) -/

theorem balanceBranch_of_balanced (h : ((u.br b).dock = .admitted ∨ (u.br b).dock = .adopting) ∧ MetersGood u b) :
    balanceBranch b u = (handedBy u b (newAccount u b)).foldl (fun y c => addBranchCause b c false y)
      (u.updBranch b fun br => { br with account := newAccount u b }) := by
  rw [balanceBranch, if_pos ((balanced_iff u b).2 h)]
  dsimp only
  rw [balanceCauses_eq]
  rfl

theorem balanceBranch_of_not (h : ¬(((u.br b).dock = .admitted ∨ (u.br b).dock = .adopting) ∧ MetersGood u b)) :
    balanceBranch b u = u := by
  rw [balanceBranch, if_neg (mt (balanced_iff u b).1 h)]

theorem balanceRail_of_opened (opened : u.rail.state = .opened) (good : RailMetersGood u) : balanceRail u =
    if (newRailAccount u).state = .confirmed then
      addRailCause .railBalance { u with rail := { u.rail with account := newRailAccount u } }
    else { u with rail := { u.rail with account := newRailAccount u } } := by
  rw [balanceRail, if_pos (by simp [opened, (railMetersHealthy_iff u).2 good])]
  rfl

theorem balanceRail_of_not (h : u.rail.state ≠ .opened ∨ ¬RailMetersGood u) : balanceRail u = u := by
  rw [balanceRail, if_neg]
  simpa [railMetersHealthy_iff, imp_iff_not_or] using h

theorem balance_hands (u : State) (b : BranchNo) : BalanceHands u (balanceBranch b u) (balanceRail u) b := by
  refine ⟨fun balanced _ => ⟨newAccount u b, newAccount_judged u b, balanceBranch_of_balanced balanced⟩,
    balanceBranch_of_not, fun opened good => ⟨newRailAccount u, newRailAccount_judged u, balanceRail_of_opened opened good⟩,
    balanceRail_of_not⟩

theorem atWatch_iff (x : BalanceState) : x.atWatch = true ↔ x ≠ .clear := by cases x <;> decide

theorem qualifies_iff (s : State) (b : BranchNo) : qualifies s b = true ↔ Suspected s b := by
  rw [qualifies, Bool.and_eq_true, atWatch_iff, participating_iff]
  simp only [Suspected, List.mem_cons, List.not_mem_nil, or_false]

theorem qualifies_eq (s : State) : qualifies s = fun b => decide (Suspected s b) := by
  funext b
  rw [Bool.eq_iff_iff, qualifies_iff, decide_eq_true_iff]

/-- R119: the branches that the locate finds, in rising number. -/
theorem found_eq_nil (s : State) : allBranches.filter (fun b => decide (Suspected s b)) = [] ↔ ∀ b, ¬Suspected s b := by
  simp only [List.filter_eq_nil_iff, mem_allBranches, forall_const, decide_eq_true_iff]

theorem foldl_addBranchCause_drip {α : Type} (bs : List α) (f : α → BranchNo) (c : α → BranchCause) (s : State) :
    (bs.foldl (fun y a => addBranchCause (f a) (c a) false y) s).drip = s.drip := by
  induction bs generalizing s with
  | nil => rfl
  | cons a bs ih => rw [List.foldl_cons, ih, addBranchCause_drip]

theorem closeLocate_of_suspected (running : u.drip.running = true) (some : ∃ b, Suspected u b) : closeLocate u =
    { (allBranches.filter fun b => decide (Suspected u b)).foldl (fun y b => addBranchCause b .located false y) u with
      drip := { u.drip with running := false, windowsLeft := 0, outcome := .branches } } := by
  have found : ¬allBranches.filter (fun b => decide (Suspected u b)) = [] := fun none =>
    some.elim fun b suspected => (found_eq_nil u).1 none b suspected
  rw [closeLocate, if_pos running]
  dsimp only
  rw [qualifies_eq, if_pos (by simpa only [Bool.not_eq_true', ← Bool.not_eq_true, List.isEmpty_iff] using found), endLocate,
    State.updDrip, foldl_addBranchCause_drip]

theorem closeLocate_of_none (running : u.drip.running = true) (none : ∀ b, ¬Suspected u b) : closeLocate u =
    if u.rail.account.state ≠ .clear then endLocate .rail (addRailCause .commonRail u)
    else if u.drip.windowsLeft ≤ 1 then endLocate .alarmOnly u
    else u.updDrip fun d => { d with windowsLeft := d.windowsLeft - 1 } := by
  rw [closeLocate, if_pos running]
  dsimp only
  rw [qualifies_eq, (found_eq_nil u).2 none]
  simp only [List.isEmpty_nil, Bool.not_true, Bool.false_eq_true, if_false, atWatch_iff]

theorem locate_hands (u : State) : LocateHands u (takePart u .locate) := by
  refine fun running => ⟨closeLocate_of_suspected running, fun none watched => ?_⟩
  rw [takePart, closeLocate_of_none running none, if_pos watched, endLocate, State.updDrip, addRailCause_drip]

/-! ## The threshold events (log 8) -/

theorem balanceReaches_of (balanced : ((s.br b).dock = .admitted ∨ (s.br b).dock = .adopting) ∧ MetersGood s b)
    (threshold : s.params.tripThreshold ≤ (s.br b).account.integrator)
    (count : s.params.confirmCount ≤ (s.br b).account.above + 1) : balanceReaches s b = true := by
  simp [balanceReaches, (balanced_iff s b).2 balanced, threshold, count]

theorem railBalanceReaches_of (opened : s.rail.state = .opened) (healthy : railMetersHealthy s = true)
    (threshold : s.params.railThreshold ≤ s.rail.account.integrator)
    (count : s.params.confirmCount ≤ s.rail.account.above + 1) : railBalanceReaches s = true := by
  simp [railBalanceReaches, opened, healthy, threshold, count]

theorem locateHoldReaches_of (running : s.drip.running = true) (last : s.drip.windowsLeft ≤ 1)
    (clear : s.rail.account.state = .clear) (none : ∀ b, ¬Suspected s b) : locateHoldReaches s = true := by
  have quiet : allBranches.any (qualifies s) = false := by
    rw [List.any_eq_false]
    exact fun b _ => mt (qualifies_iff s b).1 (none b)
  simp [locateHoldReaches, running, last, clear, quiet, BalanceState.atWatch]

theorem Branch.respond_account_of_participating {close : Option Nat} {br : Branch} (h : br.dock.participating = true) :
    (br.respond close).account = br.account := by
  unfold Branch.respond
  cases dock : br.dock <;> simp [dock, DockState.participating] at h ⊢ <;> rfl

/-- Settles O53. -/
theorem leakIsConfirmedAtTheCount : Obligations.LeakIsConfirmedAtTheCount := by
  unfold Obligations.LeakIsConfirmedAtTheCount
  refine fun s u b c d byContact => ⟨fun docked supply ret empty threshold count => ?_,
    fun opened empty healthy threshold count => ?_, fun running last clear quiet => ?_, rfl, balance_hands u b, locate_hands u,
    fun own rail new => ?_, fun leak new => ?_⟩
  · have balanced : ((s.br b).dock = .admitted ∨ (s.br b).dock = .adopting) ∧ MetersGood s b :=
      ⟨by simpa using docked, supply, ret⟩
    have participates : (s.br b).dock.participating = true := by
      rcases balanced.1 with dock | dock <;> rw [dock] <;> rfl
    have occupied : (s.br b).dock ≠ .vacant := fun vacant => by rw [vacant] at participates; exact absurd participates (by decide)
    generalize stepped : (s.updBranch b fun br => { br with account := br.account.confirm }) = v
    have own : v.br b = { s.br b with account := (s.br b).account.confirm } := by rw [← stepped, State.updBranch_br_same]
    have others : OthersKept s v b := fun d other => by rw [← stepped, State.updBranch_br_ne _ _ _ other.symm]
    have record : SameRecord s v (.branch b) := by rw [← stepped]; exact updBranch_record rfl rfl _
    have meter : v.meter = s.meter := by rw [← stepped]; rfl
    have new : BranchCause.balance ∉ (v.br b).causes := by simp [own, empty]
    have effect := addBranchCause_isolates new false
    obtain ⟨grant, commanded, -⟩ := effect.shut (by rwa [own])
    have account : ((addBranchCause b .balance false v).br b).account = (v.br b).account := by
      rw [addBranchCause_of_occupied (by rwa [own]), addCauseCore_br_same b _ _ _ new]
      exact Branch.respond_account_of_participating (by rw [own]; exact participates)
    refine ⟨addBranchCause b .balance false v, ?_, ?_, ?_, grant, commanded, ?_, ?_, fun o owner => effect.told o (by rwa [own]),
      recorded_from (effect.recorded rfl) record meter, fun d other => ?_⟩
    · exact (congrArg Host.Outcome.next (if_pos (balanceReaches_of balanced threshold count))).trans (by rw [stepped])
    · rw [effect.causes (by rwa [own]), own]
      simp [empty]
    · rw [effect.dock, own]
      rcases balanced.1 with dock | dock <;> rw [dock] <;> rfl
    · rw [account, own]
      rfl
    · rw [account, own]
      rfl
    · rw [effect.others (by rwa [own]) d other, others d other]
  · have answers := addRailCause_answers (s := s.updRail fun r => { r with account := r.account.confirm }) (c := .railBalance)
      (by simp [empty])
    have causes := answers.causes
    rw [State.updRail_rail, empty] at causes
    refine ⟨_, congrArg Host.Outcome.next (if_pos (railBalanceReaches_of opened healthy threshold count)), causes, ?_, ?_, ?_,
      recorded_from (answers.recorded rfl) ⟨rfl, rfl, rfl⟩ rfl, answers.holds opened⟩
    · rw [answers.state, State.updRail_rail, opened]
      rfl
    · exact congrArg ValveUnit.railCommanded (answers.closing (.inl opened)).1
    · rw [answers.iso, causes]
      rfl
  · refine congrArg Host.Outcome.next (if_pos (locateHoldReaches_of running last clear fun b suspected => ?_))
    exact suspected.2 (quiet b ((participating_iff _).2 (by simpa using suspected.1)))
  · exact ((addBranchCause_leak ((branchLeak_iff c).2 ⟨own, rail⟩) b byContact u).2 new).2
  · refine (addRailCause_answers new).recorded ?_
    rcases leak with rfl | rfl | rfl <;> rfl
end

end Sys2Proof.Machine
end

section
/-! PROOF. The stored settings and the beginning of a warm restart (O40, O41). -/

namespace Sys2Proof.Machine

open Sys2Proof Sys2Proof.Safety

section
variable {s t u : State} {tag : Byte} {block half : Nat}

/-! ## STORE_READ and STORE_WRITE (R177, R178) -/

theorem halfOf_beyond (h : 3 < block ∨ 1 < half) : halfOf block half = none := dif_neg (by omega)

theorem halfOf_val (k : Fin 4) (h : Fin 2) : halfOf k.val h.val = some (k, h) := dif_pos ⟨k.isLt, h.isLt⟩

theorem readAll_eq (m : Memory) (i n : Nat) : Memory.readAll m i n = (List.range n).map fun j => Memory.read m (i + j) := by
  induction n generalizing i with
  | zero => rfl
  | succ n ih =>
    rw [Memory.readAll, ih, List.range_succ_eq_map, List.map_cons, List.map_map]
    congr 1
    exact List.map_congr_left fun j _ => by rw [Function.comp, Nat.add_assoc, Nat.add_comm 1 j]

theorem exec_storeRead_of_handed (h : Handed s supLine tag (.storeRead block half)) (acked : Bool) :
    exec (.storeRead acked) s = .next (startReply supLine Kind.storeRead.code tag (storeReadResult s block half acked).1
      (loadReport s ++ (storeReadResult s block half acked).2) s) := by
  simp only [exec, execStoreRead, h]

theorem exec_storeWrite_of_handed {octets : List Byte} (h : Handed s supLine tag (.storeWrite block half octets)) :
    exec .storeWrite s = .next (serveStoreWrite tag block half octets s) := by
  simp only [exec, execStoreWrite, h]

theorem loadReport_eq (s : State) : loadReport s = [octet s.loader.blocksTaken, octet s.loader.endReason.code,
    if s.loader.defaulted = true then 1 else 0, octet s.loader.lastWrite.code] := by
  rw [loadReport]
  cases s.loader.defaulted <;> rfl

theorem storeReadResult_busy (busy : s.loader.store ≠ none) (acked : Bool) :
    storeReadResult s block half acked = (.busy, []) := if_pos (Option.isSome_iff_ne_none.2 busy)

theorem storeReadResult_beyond (idle : s.loader.store = none) (beyond : 3 < block ∨ 1 < half) (acked : Bool) :
    storeReadResult s block half acked = (.noTarget, []) := by
  rw [storeReadResult, if_neg (by simp [idle]), halfOf_beyond beyond]

theorem storeReadResult_half (idle : s.loader.store = none) (k : Fin 4) (h : Fin 2) (acked : Bool) :
    storeReadResult s k.val h.val acked = if acked then (.ok, storedHalf s k h) else (.notServed, []) := by
  rw [storeReadResult, if_neg (by simp [idle]), halfOf_val]

theorem storeHalf_frame (s : State) (k : Fin 4) (h : Fin 2) (f : Nat → Byte) :
    ∃ m, s.storeHalf k h f = { s with eeprom := m } :=
  ⟨Memory.writeAll s.eeprom (halfAddress k h) ((List.range 32).map f), by
    unfold State.storeHalf
    with_reducible rfl⟩

/-- R178: the end of a write changes the memory and the count of the free choices alone. -/
theorem finishWrite_frame (w : StoreWrite) (acked : Bool) (s : State) :
    ∃ m n, finishWrite w acked s = { s with eeprom := m, freeCount := n } := by
  unfold finishWrite
  split
  · obtain ⟨m, frame⟩ := storeHalf_frame s w.block w.half fun i => w.octets.getD i 0
    exact ⟨m, s.freeCount, frame⟩
  · obtain ⟨m, frame⟩ := storeHalf_frame s w.block w.half (Config.failedWriteOctet s.freeCount)
    rw [frame]
    exact ⟨m, s.freeCount + 1, rfl⟩

theorem finishWrite_read_outside (w : StoreWrite) (acked : Bool) (s : State) {i : Nat}
    (outside : i < halfAddress w.block w.half ∨ halfAddress w.block w.half + 32 ≤ i) :
    Memory.read (finishWrite w acked s).eeprom i = Memory.read s.eeprom i := by
  unfold finishWrite
  split
  · rw [State.storeHalf_read_outside _ _ _ _ _ outside]
  · dsimp only
    rw [State.storeHalf_read_outside _ _ _ _ _ outside]

/-- Settles O40. -/
theorem storeReadsAndWrites : Obligations.StoreReadsAndWrites := by
  unfold Obligations.StoreReadsAndWrites
  intro s tag block half octets acked report
  have same : loadReport s = report := loadReport_eq s
  refine ⟨fun handed => ?_, fun handed => ⟨fun busy => ?_, fun idle beyond => ?_, fun k h hk hh idle => ?_⟩, fun idle => ?_,
    fun w writing law => ?_⟩
  · intro answers
    have run := exec_storeRead_of_handed handed acked
    rw [startReply_eq_replied, same] at run
    refine ⟨fun busy => ?_, fun idle beyond => ?_, fun idle hk hh nack => ?_, fun idle hk hh ack => ?_⟩
    · rw [storeReadResult_busy busy] at run
      exact run
    · rw [storeReadResult_beyond idle beyond] at run
      exact run
    · subst nack
      rw [storeReadResult_half idle ⟨block, by omega⟩ ⟨half, by omega⟩, if_neg (by decide)] at run
      exact run
    · subst ack
      rw [storeReadResult_half idle ⟨block, by omega⟩ ⟨half, by omega⟩, if_pos rfl, storedHalf, readAll_eq] at run
      exact run
  · rw [exec_storeWrite_of_handed handed, serveStoreWrite, if_pos (Option.isSome_iff_ne_none.2 busy), startReply_eq_replied]
    rfl
  · rw [exec_storeWrite_of_handed handed, serveStoreWrite, if_neg (by simp [idle]), halfOf_beyond beyond]
    exact congrArg _ (startReply_eq_replied ..)
  · subst hk hh
    rw [exec_storeWrite_of_handed handed, serveStoreWrite, if_neg (by simp [idle]), halfOf_val]
    exact congrArg _ (startReply_eq_replied ..)
  · simp only [exec, execStoreWriteCompletes, idle]
  · have run : exec (.storeWriteCompletes acked) s = .next (raiseSup .settingsDone 1 ((finishWrite w acked s).updLoader fun d =>
        { d with store := none, lastWrite := if acked then .done else .failed })) := by
      simp only [exec, execStoreWriteCompletes, writing]
    have frame := finishWrite_frame w acked s
    have outside := fun i => finishWrite_read_outside w acked s (i := i)
    have inside : acked = true → ∀ i, i < 32 →
        Memory.read (finishWrite w acked s).eeprom (halfAddress w.block w.half + i) = w.octets.getD i 0 := fun ack i below => by
      rw [finishWrite, if_pos ack]
      exact State.storeHalf_read_inside _ _ _ _ i below law
    rw [run]
    obtain ⟨m, n, frame⟩ := frame
    rw [frame] at outside inside ⊢
    exact ⟨_, rfl, rfl, supEntry_raiseSup .., outside, inside, fun l other => raise_attnOf_ne _ _ _ other.symm, rfl⟩

/-! ## The warm restart (R179) -/

/-- The state at the beginning of a warm restart, but for TRIP_LINE. -/
def warmBase (s : State) : State := { s with
  branches := Vec.map Branch.warm s.branches
  rail := s.rail.warm
  meter := s.meter.warm
  alloc := s.alloc.warm
  drip := DripUnit.reset
  lines := Vec.map Line.break s.lines
  attn := Vec.map (fun a => { a with entries := [] }) s.attn
  loader := s.loader.warm }

theorem warmRestart_eq (s : State) :
    warmRestart s = if s.iso.tripAsserted = true then raiseSup .tripLine 0 (warmBase s) else warmBase s := rfl

theorem warmRestart_frame (s : State) : warmRestart s = { warmBase s with attn := (warmRestart s).attn } := by
  rw [warmRestart_eq]
  split <;> rfl

theorem warmRestart_pending (s : State) (l : LineNo) (c : AttnCause) : isPending ((warmRestart s).attnOf l) c = true ↔
    l = supLine ∧ c = .sup .tripLine ∧ s.iso.tripAsserted = true := by
  have emptied : isPending ((warmBase s).attnOf l) c = false := isPending_emptied s l c
  rw [warmRestart_eq]
  by_cases trip : s.iso.tripAsserted = true
  · rw [if_pos trip, raiseSup, isPending_raise, emptied]
    simp only [Bool.false_or, Bool.and_eq_true, decide_eq_true_eq, trip, and_true, AttnEntry.of]
    exact and_congr eq_comm (decide_eq_true_iff.trans eq_comm)
  · rw [if_neg trip, emptied]
    simp [trip]

theorem warmRestart_mask (s : State) (l : LineNo) : ((warmRestart s).attnOf l).mask = (s.attnOf l).mask := by
  have emptied : ((warmBase s).attnOf l).mask = (s.attnOf l).mask := by simp [warmBase, State.attnOf]
  rw [warmRestart_eq]
  split
  · rw [raiseSup, raise_mask, emptied]
  · exact emptied

/-- R179: a warm restart does what begins one. -/
theorem warmRestart_begins (s : State) : WarmBegins s (warmRestart s) := by
  have pending := warmRestart_pending s
  have mask := warmRestart_mask s
  rw [warmRestart_frame] at pending mask ⊢
  refine ⟨rfl, rfl, rfl, rfl, rfl, fun l => ?_, pending, mask, rfl, rfl, fun c => ⟨?_, ?_⟩, fun b => ?_, rfl, fun n => ?_,
    rfl, rfl, rfl, rfl, rfl, rfl, rfl, rfl, rfl, rfl⟩
  · simp [State.line, warmBase, Line.break]
  · exact pick_channelTable _ c
  · exact pick_replicate SnapChannel.zero c
  · exact Vec.pick_map Branch.warm s.branches b
  · exact pick_replicate Strip.reset n

/-- Settles O41. -/
theorem warmRestartBeginsAtItsThreeEvents : Obligations.WarmRestartBeginsAtItsThreeEvents := by
  unfold Obligations.WarmRestartBeginsAtItsThreeEvents
  refine fun s l tag r => ⟨fun handed => ?_, fun sending begins => ⟨⟨warmRestart s, ?_, warmRestart_begins s⟩,
    ⟨warmRestart (s.updLine l Line.break), ?_, ?_⟩⟩, fun negated => ⟨_, congrArg Host.Outcome.next (if_neg (by simp [negated])),
      ?_, ?_⟩, fun asserted => ?_, fun asserted => ?_, fun negated => ?_⟩
  · simp only [exec, execRestart, handed]
    rfl
  · simp [exec, execReplySent, sending, begins]
  · simp [exec, execLineBreak, cutsRestart, sending, begins]
  · exact warmRestart_begins (s.updLine l Line.break)
  · exact warmRestart_begins ((s.updPins fun p => { p with warm := true }).updLoader fun d =>
      { d with warmAsserted := true, warmCandidate := 0 })
  · rw [warmRestart_frame]
    exact ⟨rfl, rfl⟩
  · exact congrArg Host.Outcome.next (if_pos asserted)
  · exact congrArg Host.Outcome.next (if_pos asserted)
  · exact congrArg Host.Outcome.next (if_neg (by simp [negated]))
end

end Sys2Proof.Machine
end

section
/-! PROOF. The reception of octets and frames, discards and breaks (O44, O45). -/

namespace Sys2Proof.Machine

open Sys2Proof Sys2Proof.Safety

section
variable {s t u : State} {l : LineNo} {kind tag x : Byte} {body xs : List Byte} {check : BitVec 16}

/-! ## Discards (R158, R159) -/

theorem noteOctet_self (l : LineNo) (s : State) : noteOctet l (s.line l).awaitIdle s = s := by
  rw [noteOctet, State.updLine, State.line, Vec.put_pick_self]

/-- What a discard leaves of a line that waits for the idle level as `waits` says. -/
abbrev Discarded (l : LineNo) (waits : Bool) (s t : State) : Prop :=
  (t.line l).rx = .hunting ∧ (t.line l).awaitIdle = waits ∧ (t.line l).badCount = min 8 ((s.line l).badCount + 1) ∧
    (t.line l).service = (s.line l).service ∧ (t.line l).waiting = (s.line l).waiting ∧
    (∀ k, k ≠ l → t.line k = s.line k) ∧
    ((s.line l).badCount = 7 → ∃ e ∈ (t.attnOf supLine).entries, e.cause = .sup .lineFault ∧ e.key = l.val) ∧
    ((s.line l).badCount ≠ 7 → t.attn = s.attn) ∧ t = { s with lines := t.lines, attn := t.attn }

theorem raise_line (l m : LineNo) (e : AttnEntry) (s : State) : (raise m e s).line l = s.line l := rfl

theorem discardFrame_discards (l : LineNo) (waits : Bool) (s : State) :
    Discarded l waits s (discardFrame l (noteOctet l waits s)) := by
  have counts : ((noteOctet l waits s).line l).badCount = (s.line l).badCount := by rw [noteOctet_line]
  generalize counted : ((noteOctet l waits s).updLine l fun ln =>
    { ln with rx := .hunting, badCount := min 8 (ln.badCount + 1) }) = v
  have own : v.line l = { s.line l with rx := .hunting, awaitIdle := waits, badCount := min 8 ((s.line l).badCount + 1) } := by
    rw [← counted, State.updLine_line_same, noteOctet_line]
  have others : ∀ k, k ≠ l → v.line k = s.line k := fun k other => by
    rw [← counted, State.updLine_line_ne _ _ _ other.symm, noteOctet_line_ne _ _ _ other.symm]
  have frame : v = { s with lines := v.lines } := by rw [← counted]; rfl
  have discards : discardFrame l (noteOctet l waits s) = if (s.line l).badCount = 7 then raiseLineFault l false v else v := by
    rw [discardFrame, counted, counts]
  rw [discards]
  by_cases eighth : (s.line l).badCount = 7
  · rw [if_pos eighth]
    have same : ∀ k, (raiseLineFault l false v).line k = v.line k := fun k => rfl
    refine ⟨?_, ?_, ?_, ?_, ?_, fun k other => (same k).trans (others k other), fun _ => ?_, fun no => absurd eighth no, ?_⟩
    iterate 5 rw [same, own]
    · exact (noted_raise ..).2 (.inr ⟨rfl, rfl, rfl⟩)
    · rw [frame]
      rfl
  · rw [if_neg eighth]
    refine ⟨?_, ?_, ?_, ?_, ?_, others, fun yes => absurd yes eighth, fun _ => ?_, ?_⟩
    iterate 5 rw [own]
    · rw [frame]
    · rw [frame]

/-! ## Octets (R156, R158) -/

/-- The line with its receiver in a state, and the wait for the idle level begun or ended by the octet. -/
def receiving (l : LineNo) (e : Bool) (rx : Rx) (s : State) : State :=
  { s with lines := Vec.put s.lines l { s.line l with rx := rx, awaitIdle := e } }

theorem noteOctet_rx (l : LineNo) (e : Bool) (s : State) : ((noteOctet l e s).line l).rx = (s.line l).rx := by
  rw [noteOctet_line]

theorem noteOctet_updRx (l : LineNo) (e : Bool) (rx : Rx) (s : State) :
    (noteOctet l e s).updLine l (fun ln => { ln with rx := rx }) = receiving l e rx s := by
  rw [noteOctet, State.updLine_updLine]
  rfl

theorem noteOctet_eq (l : LineNo) (e : Bool) (s : State) : noteOctet l e s = receiving l e (s.line l).rx s := rfl

theorem exec_octetReceived_sync (hunting : (s.line l).rx = .hunting) :
    exec (.octetReceived l 0xC3 false) s = .next (receiving l false (.inFrame []) s) := by
  simp only [exec, execOctetReceived, receiveOctet, noteOctet_rx, hunting]
  exact congrArg _ (noteOctet_updRx ..)

theorem exec_octetReceived_idle (hunting : (s.line l).rx = .hunting) {e : Bool} (other : x ≠ 0xC3 ∨ e = true) :
    exec (.octetReceived l x e) s = .next (receiving l e .hunting s) := by
  have quiet : ¬(decide (x = 0xC3) && !e) = true := by
    rw [Bool.and_eq_true, decide_eq_true_eq, Bool.not_eq_true']
    rintro ⟨sync, clean⟩
    exact other.elim (fun h => h sync) fun h => by simp [h] at clean
  simp only [exec, execOctetReceived, receiveOctet, noteOctet_rx, hunting, if_neg quiet]
  rw [noteOctet_eq, hunting]

theorem exec_octetReceived_inFrame (inside : (s.line l).rx = .inFrame xs) (x : Byte) :
    exec (.octetReceived l x false) s = .next (collectOctet l (xs ++ [x]) (noteOctet l false s)) := by
  simp only [exec, execOctetReceived, receiveOctet, noteOctet_rx, inside]
  rfl

theorem collectOctet_more (low : 2 ≤ octetAt xs 0) (high : octetAt xs 0 ≤ 50) (more : xs.length < octetAt xs 0 + 3) :
    collectOctet l xs s = s.updLine l fun ln => { ln with rx := .inFrame xs } := by
  have whole : ¬(octetAt xs 0 < 2 ∨ 50 < octetAt xs 0) := by omega
  simp only [collectOctet, Bool.or_eq_true, decide_eq_true_eq, if_neg whole, if_pos more]

theorem collectOctet_last (low : 2 ≤ octetAt xs 0) (high : octetAt xs 0 ≤ 50) (last : octetAt xs 0 + 3 ≤ xs.length) :
    collectOctet l xs s = completeFrame l (frameOf xs).1 (frameOf xs).2 s := by
  have whole : ¬(octetAt xs 0 < 2 ∨ 50 < octetAt xs 0) := by omega
  simp only [collectOctet, Bool.or_eq_true, decide_eq_true_eq, if_neg whole, if_neg (Nat.not_lt.mpr last)]

theorem exec_frameReceived_of_fits (fits : body.length ≤ 48) : exec (.frameReceived l kind tag body check) s =
    .next (completeFrame l ⟨kind, tag, body⟩ check (noteOctet l false s)) := by
  simp only [exec, execFrameReceived, if_pos fits]

/-- R158: the last octet of a frame is the frame. -/
theorem exec_octetReceived_last (inside : (s.line l).rx = .inFrame xs) (low : 2 ≤ octetAt (xs ++ [x]) 0)
    (high : octetAt (xs ++ [x]) 0 ≤ 50) (last : octetAt (xs ++ [x]) 0 + 3 ≤ (xs ++ [x]).length) :
    exec (.octetReceived l x false) s = exec (.frameReceived l ((xs ++ [x]).getD 1 0) ((xs ++ [x]).getD 2 0)
      (((xs ++ [x]).drop 3).take (octetAt (xs ++ [x]) 0 - 2))
      (BitVec.ofNat 16 (numberAt (xs ++ [x]) (octetAt (xs ++ [x]) 0 + 1) 2))) s := by
  rw [exec_octetReceived_inFrame inside, collectOctet_last low high last, exec_frameReceived_of_fits]
  · rfl
  · rw [List.length_take]
    omega

/-- Settles O45: octets by the three collections, discards by `discardFrame_discards`. -/
theorem discardsAndBreaksActOnTheirLine : Obligations.DiscardsAndBreaksActOnTheirLine := by
  unfold Obligations.DiscardsAndBreaksActOnTheirLine
  intro s l kind tag x body xs check receives
  refine ⟨fun hunting sync => ?_, fun hunting other => ?_, fun hunting => ?_, fun inside => ?_, ?_⟩
  · subst sync
    exact exec_octetReceived_sync hunting
  · exact exec_octetReceived_idle hunting (.inl other)
  · exact exec_octetReceived_idle hunting (.inr rfl)
  · intro ys len low high
    refine ⟨fun more => ?_, fun last => exec_octetReceived_last inside low high last⟩
    refine (exec_octetReceived_inFrame inside x).trans (congrArg _ ?_)
    rw [collectOctet_more low high more]
    exact noteOctet_updRx ..
  · intro counted
    refine ⟨fun fits bad => ?_, fun inside => ?_, fun inside => ?_, fun inside short => ?_, fun hunting => ?_, fun eighth => ?_,
      fun other => ?_, fun keeps => ?_⟩
    · rw [exec_frameReceived_of_fits fits, completeFrame, if_neg bad]
      exact ⟨_, rfl, discardFrame_discards l false s⟩
    · have discards := discardFrame_discards l (s.line l).awaitIdle s
      rw [noteOctet_self] at discards
      exact ⟨_, by simp only [exec, execInterOctetTimeout, inside], discards⟩
    · refine ⟨discardFrame l (noteOctet l true s), ?_, discardFrame_discards l true s⟩
      simp only [exec, execOctetReceived, receiveOctet, noteOctet_rx, inside, if_true]
    · refine ⟨_, exec_octetReceived_inFrame inside x, ?_⟩
      rw [collectOctet, if_pos (by simpa [octetAt] using short)]
      exact discardFrame_discards l false s
    · simp only [exec, execInterOctetTimeout, hunting]
    · have discards := discardFrame_discards l (s.line l).awaitIdle s
      rw [noteOctet_self] at discards
      exact ⟨_, congrArg Host.Outcome.next (if_pos eighth), discards⟩
    · exact congrArg Host.Outcome.next (if_neg other)
    · refine congrArg Host.Outcome.next (if_neg ?_)
      unfold cutsRestart
      split
      · rename_i r sending
        simp [keeps r sending]
      · decide
      · decide

/-! ## A frame octet by octet (log 6) -/

/-- An octet after what has gone before, with a fault or a refusal kept. -/
def octetThen (l : LineNo) (o : Host.Outcome State Fault Refusal) (x : Byte) : Host.Outcome State Fault Refusal :=
  match o with
  | .next u => exec (.octetReceived l x false) u
  | .fault f => .fault f
  | .refused r => .refused r

theorem receiving_line (l : LineNo) (e : Bool) (rx : Rx) (s : State) :
    (receiving l e rx s).line l = { s.line l with rx := rx, awaitIdle := e } := Vec.pick_put_same ..

theorem receiving_receiving (l : LineNo) (e d : Bool) (rx ry : Rx) (s : State) :
    receiving l d ry (receiving l e rx s) = receiving l d ry s := by
  have twice := State.updLine_updLine s l (fun ln => { ln with rx := rx, awaitIdle := e })
    fun ln => { ln with rx := ry, awaitIdle := d }
  exact twice

theorem receiving_updLine (l : LineNo) (e : Bool) (rx : Rx) (s : State) (f : Line → Line) :
    (receiving l e rx s).updLine l f = s.updLine l fun ln => f { ln with rx := rx, awaitIdle := e } :=
  State.updLine_updLine s l (fun ln => { ln with rx := rx, awaitIdle := e }) f

/-- R158: the octets after LEN are collected while one is still to come. -/
theorem foldl_octetThen (head : Byte) (low : 2 ≤ head.toNat) (high : head.toNat ≤ 50) (xs ys : List Byte)
    (more : xs.length + ys.length < head.toNat + 2) :
    ys.foldl (octetThen l) (.next (receiving l false (.inFrame (head :: xs)) s)) =
      .next (receiving l false (.inFrame (head :: (xs ++ ys))) s) := by
  induction ys generalizing xs with
  | nil => rw [List.append_nil, List.foldl_nil]
  | cons y ys ih =>
    have step : octetThen l (.next (receiving l false (.inFrame (head :: xs)) s)) y =
        .next (receiving l false (.inFrame (head :: (xs ++ [y]))) s) := by
      refine (exec_octetReceived_inFrame (xs := head :: xs) (by rw [receiving_line]) y).trans (congrArg _ ?_)
      rw [List.length_cons] at more
      have more' : (head :: (xs ++ [y])).length < head.toNat + 3 := by
        simp only [List.length_cons, List.length_append, List.length_nil]
        omega
      rw [List.cons_append, collectOctet_more (xs := head :: (xs ++ [y])) low high more', noteOctet_updRx, receiving_receiving]
    rw [List.foldl_cons, step, ih (xs ++ [y]), List.append_assoc, List.singleton_append]
    simp only [List.length_append, List.length_cons, List.length_nil] at more ⊢
    omega

/-- R158: where a frame completes, what its line was receiving is gone. -/
theorem completeFrame_of_rx (l : LineNo) (f : Frame) (check : BitVec 16) (rx : Rx) (s : State) :
    completeFrame l f check (receiving l false rx s) = completeFrame l f check (noteOctet l false s) := by
  have same : ((receiving l false rx s).line l).service = ((noteOctet l false s).line l).service ∧
      ((receiving l false rx s).line l).badCount = ((noteOctet l false s).line l).badCount := by
    rw [receiving_line, noteOctet_line]
    exact ⟨rfl, rfl⟩
  have discards : discardFrame l (receiving l false rx s) = discardFrame l (noteOctet l false s) := by
    simp only [discardFrame, same.2, receiving_updLine, noteOctet_eq]
  have places : placeFrame l f (receiving l false rx s) = placeFrame l f (noteOctet l false s) := by
    simp only [placeFrame, receiving_updLine, noteOctet_eq]
  rw [completeFrame, completeFrame, discards, places]

/-- R158: the octets after SYNC, as the frame that they are. -/
theorem frameOf_octets (head : Byte) (len : head.toNat = body.length + 2) :
    frameOf (head :: ([kind, tag] ++ body ++ toOctets 2 check.toNat)) = (⟨kind, tag, body⟩, check) := by
  have checked : numberAt (head :: ([kind, tag] ++ body ++ toOctets 2 check.toNat)) (head.toNat + 1) 2 = check.toNat := by
    have past : ([kind, tag] ++ body).length ≤ head.toNat := by simp [len]
    rw [numberAt_cons_succ, numberAt_append_past past, List.length_append, List.length_cons, List.length_singleton,
      show head.toNat - (1 + 1 + body.length) = 0 by omega, numberAt_toOctets_last]
    exact Nat.mod_eq_of_lt check.isLt
  simp only [frameOf, octetAt_cons_zero, checked, BitVec.ofNat_toNat, BitVec.setWidth_eq]
  simp [len]

/-- Settles O44. -/
theorem octetsOfAFrameAreThatFrame : Obligations.OctetsOfAFrameAreThatFrame := by
  unfold Obligations.OctetsOfAFrameAreThatFrame
  intro s l kind tag body check hunting fits
  generalize length : body.length + 2 = len
  have octetLen : (octet len).toNat = len := by
    rw [octet_toNat]
    omega
  have checkOctets : toOctets 2 check.toNat = [octet (check.toNat / 256)] ++ [octet check.toNat] := by
    simp [toOctets]
  generalize hi : octet (check.toNat / 256) = high at checkOctets
  generalize lo : octet check.toNat = low at checkOctets
  have splits : [0xC3, octet len, kind, tag] ++ body ++ toOctets 2 check.toNat =
      0xC3 :: octet len :: (([kind, tag] ++ body ++ [high]) ++ [low]) := by
    rw [checkOctets]
    simp
  have sync : octetThen l (.next s) 0xC3 = .next (receiving l false (.inFrame []) s) := exec_octetReceived_sync hunting
  have lengthOctet : octetThen l (.next (receiving l false (.inFrame []) s)) (octet len) =
      .next (receiving l false (.inFrame [octet len]) s) := by
    have more : [octet len].length < octetAt [octet len] 0 + 3 := by simp
    refine (exec_octetReceived_inFrame (xs := []) (by rw [receiving_line]) (octet len)).trans (congrArg _ ?_)
    rw [List.nil_append, collectOctet_more (by rw [octetAt_cons_zero]; omega) (by rw [octetAt_cons_zero]; omega) more,
      noteOctet_updRx, receiving_receiving]
  have collected := foldl_octetThen (l := l) (s := s) (octet len) (by omega) (by omega) [] ([kind, tag] ++ body ++ [high])
    (by simp; omega)
  have last : octetThen l (.next (receiving l false (.inFrame (octet len :: ([kind, tag] ++ body ++ [high]))) s)) low =
      exec (.frameReceived l kind tag body check) s := by
    have whole : octet len :: ([kind, tag] ++ body ++ [high]) ++ [low] =
        octet len :: ([kind, tag] ++ body ++ toOctets 2 check.toNat) := by
      rw [checkOctets]
      simp
    refine (exec_octetReceived_inFrame (by rw [receiving_line]) low).trans ?_
    rw [whole, collectOctet_last (by rw [octetAt_cons_zero]; omega) (by rw [octetAt_cons_zero]; omega)
      (by simp [octetLen]; omega), frameOf_octets _ (octetLen.trans length.symm), exec_frameReceived_of_fits fits,
      noteOctet_eq, receiving_receiving, completeFrame_of_rx]
  calc _ = (0xC3 :: octet len :: (([kind, tag] ++ body ++ [high]) ++ [low])).foldl (octetThen l) (.next s) := by
        rw [← splits]
        rfl
    _ = octetThen l (.next (receiving l false (.inFrame (octet len :: ([kind, tag] ++ body ++ [high]))) s)) low := by
        rw [List.foldl_cons, List.foldl_cons, sync, lengthOctet, List.foldl_append, collected]
        rfl
    _ = _ := last
end

end Sys2Proof.Machine
end

section
/-! PROOF. The taking of a request from the service place (O43), SET_WINDOW (O46) and READ_BRANCH (O47). -/

namespace Sys2Proof.Machine

open Sys2Proof Sys2Proof.Safety

section
variable {s t u : State} {l : LineNo} {kind tag x : Byte} {body xs : List Byte}

/-! ## The taking of a frame (R160, R162) -/

theorem arrived_eq (l : LineNo) (s : State) : arrived l s = receiving l false .hunting s := noteOctet_updRx ..

/-- R162: after loading, a KIND that the line takes with a long enough BODY is handed on. -/
theorem takeForService_handRequest {k : Kind} (known : Kind.ofOctet kind = some k) (taken : k.takenOn (lineClass l) = true)
    (loaded : s.loader.loading = false ∨ k = .readAttn) (long : k.bodyLength ≤ body.length) :
    takeForService l ⟨kind, tag, body⟩ s = handRequest l k ⟨kind, tag, body⟩ s := by
  have ready : ¬(s.loader.loading && k != .readAttn) = true := by
    rcases loaded with loaded | rfl
    · simp [loaded]
    · simp
  have checked : checkRequest s l ⟨kind, tag, body⟩ = .ok k := by
    simp only [checkRequest, known, taken, Bool.not_true, Bool.false_eq_true, if_false, if_neg ready,
      if_neg (Nat.not_lt.mpr long)]
  rw [takeForService, checked]

/-- R160, R162: a good frame of such a KIND that finds the service place empty is handed on at once. -/
theorem exec_frameReceived_handRequest {k : Kind} (empty : (s.line l).service = .empty)
    (known : Kind.ofOctet kind = some k) (taken : k.takenOn (lineClass l) = true)
    (loaded : s.loader.loading = false ∨ k = .readAttn) (long : k.bodyLength ≤ body.length) (fits : body.length ≤ 48) :
    exec (.frameReceived l kind tag body (frameCheck kind tag body)) s =
      .next (handRequest l k ⟨kind, tag, body⟩ (receiving l false .hunting s)) := by
  rw [exec_frameReceived_of_empty kind tag fits empty, arrived_eq,
    takeForService_handRequest (s := receiving l false .hunting s) known taken loaded long]

/-! ## SET_WINDOW (R166, R167) -/

theorem octet_self (x : Byte) : octet x.toNat = x := by simp [octet]

theorem windowStatus_of_unfit {n : BranchNo} {w : Window} (unfit : w.inRange = false) : windowStatus s n w = .notServed := by
  rw [windowStatus, unfit, Bool.not_false, if_pos rfl]

theorem overlapsOther_iff (n : BranchNo) (w : Window) : overlapsOther s n w = true ↔
    ∃ m b, m ≠ n ∧ w.includes b = true ∧ (s.window m).includes b = true := by
  simp [overlapsOther, mem_allBranches]

theorem windowStatus_of_clash {n : BranchNo} {w : Window} (fits : w.inRange = true) (clash : overlapsOther s n w = true) :
    windowStatus s n w = .overlap := by
  rw [windowStatus, fits, Bool.not_true, if_neg Bool.false_ne_true, if_pos clash]

theorem windowStatus_of_free {n : BranchNo} {w : Window} (fits : w.inRange = true) (free : ¬overlapsOther s n w = true) :
    windowStatus s n w = .ok := by
  rw [windowStatus, fits, Bool.not_true, if_neg Bool.false_ne_true, if_neg free]

theorem inRange_iff (w : Window) : w.inRange = true ↔ w.base ≤ 11 ∧ w.span ≤ 12 ∧ w.base + w.span ≤ 12 := by
  simp [Window.inRange, and_assoc]

theorem windowOfLine_val (k : BranchNo) : windowOfLine s k.val = s.window k := dif_pos k.isLt

theorem setWindowResult_beyond {n : Nat} (beyond : 11 < n) (w : Window) : setWindowResult s n w = (s, .noTarget) :=
  dif_neg (by omega)

theorem setWindowResult_val (k : BranchNo) (w : Window) : setWindowResult s k.val w =
    if windowStatus s k w = .ok then (replaceWindow k w s, .ok) else (s, windowStatus s k w) := by
  rw [setWindowResult, dif_pos k.isLt]
  split
  case h_1 ok => rw [if_pos ok]
  case h_2 other => rw [if_neg other]

theorem replaceWindow_window (n m : BranchNo) (w : Window) :
    (replaceWindow n w s).window m = if n = m then w else s.window m := by
  simp [replaceWindow, State.setWindow, State.window, Vec.pick_put]

theorem replaceWindow_br (n : BranchNo) (w : Window) (b : BranchNo) :
    (replaceWindow n w s).br b = { s.br b with owner := ownerAfter n w b (s.br b).owner } := by
  simp [replaceWindow, State.br]

/-- What a refused SET_WINDOW leaves: the reply with the window that the line has. -/
theorem serveSetWindow_refused {st : Status} {n : Byte} {base span : Byte}
    (refused : setWindowResult s n.toNat ⟨base.toNat, span.toNat⟩ = (s, st)) :
    serveSetWindow l tag [n, base, span] s = startReply l 0x10 tag st
      [octet (windowOfLine s n.toNat).base, octet (windowOfLine s n.toNat).span] s := by
  have result : setWindowResult s (octetAt [n, base, span] 0) ⟨octetAt [n, base, span] 1, octetAt [n, base, span] 2⟩ =
    (s, st) := refused
  simp only [serveSetWindow, result]
  rfl

/-- Settles O46. -/
theorem setWindowMakesItsTests : Obligations.SetWindowMakesItsTests := by
  unfold Obligations.SetWindowMakesItsTests
  intro s tag n base span law empty loaded w taken refused
  generalize arrival : receiving supLine false .hunting s = h
  have windows : ∀ m, h.window m = s.window m := fun m => by rw [← arrival]; rfl
  have frame : h = { s with lines := h.lines } := by rw [← arrival]; rfl
  have run : taken = .next (serveSetWindow supLine tag [n, base, span] h) := by
    rw [← arrival]
    exact exec_frameReceived_handRequest (k := .setWindow) empty rfl rfl (.inl loaded) (by simp [Kind.bodyLength]) (by simp)
  have refuses : ∀ {st x}, setWindowResult h n.toNat w = (h, st) → windowOfLine h n.toNat = x → refused st.code x := by
    intro st x result window
    refine ⟨_, run, ?_⟩
    rw [serveSetWindow_refused result, window]
    refine ⟨startReply_service .., ?_⟩
    rw [frame]
    rfl
  refine ⟨fun beyond => ?_, fun k same => ?_⟩
  · refine refuses (setWindowResult_beyond beyond w) ?_
    rw [windowOfLine, dif_neg (by omega)]
  · intro fits clash
    have fitting : w.inRange = true ↔ fits := inRange_iff w
    have clashing : overlapsOther h k w = true ↔ clash := by
      rw [overlapsOther_iff]
      simp only [windows, clash]
    have window : windowOfLine h n.toNat = s.window k := by rw [← same, windowOfLine_val, windows]
    refine ⟨fun unfit => ?_, fun fit clashes => ?_, fun fit free => ?_⟩
    · have status := windowStatus_of_unfit (s := h) (n := k) (Bool.eq_false_iff.2 fun fit => unfit (fitting.1 fit))
      refine refuses (st := .notServed) ?_ window
      rw [← same, setWindowResult_val, status, if_neg (by decide)]
    · have status := windowStatus_of_clash (fitting.2 fit) (clashing.2 clashes)
      refine refuses (st := .overlap) ?_ window
      rw [← same, setWindowResult_val, status, if_neg (by decide)]
    · have status := windowStatus_of_free (fitting.2 fit) fun clashes => free (clashing.1 clashes)
      have result : setWindowResult h (octetAt [n, base, span] 0) ⟨octetAt [n, base, span] 1, octetAt [n, base, span] 2⟩ =
          (replaceWindow k w h, .ok) := by
        have val := setWindowResult_val (s := h) k w
        rw [if_pos status, same] at val
        exact val
      refine ⟨_, run, ?_⟩
      have line : windowOfLine (replaceWindow k w h) (octetAt [n, base, span] 0) = w := by
        rw [show octetAt [n, base, span] 0 = k.val from same.symm, windowOfLine_val, replaceWindow_window, if_pos rfl]
      simp only [serveSetWindow, result, line]
      refine ⟨?_, ?_, fun m other => ?_, fun b => ?_, ?_⟩
      · rw [startReply_service]
        simp only [w, octet_self]
        rfl
      · exact (replaceWindow_window k k w).trans (if_pos rfl)
      · exact (replaceWindow_window k m w).trans ((if_neg other.symm).trans (windows m))
      · refine (replaceWindow_br k w b).trans ?_
        have owner : ((h.br b).owner = some k) ↔ (s.window k).includes b = true := by
          rw [frame]
          exact law.2 b k
        simp only [ownerAfter, owner]
        rw [frame]
        rfl
      · rw [frame]
        rfl

/-! ## READ_BRANCH (R3, R4, 9.7) -/

theorem translate_eq_outside (s : State) (l : LineNo) (i : Nat) : translate s l i = .outside ↔ ∀ g, ¬Names s l i g := by
  constructor
  · rintro outside (b | _) named
    · cases outside.symm.trans ((translate_eq_branch s l i b).2 named)
    · cases outside.symm.trans ((translate_eq_rail s l i).2 named)
  · intro unnamed
    cases found : translate s l i with
    | branch b => exact absurd ((translate_eq_branch s l i b).1 found) (unnamed _)
    | rail => exact absurd ((translate_eq_rail s l i).1 found) (unnamed _)
    | outside => rfl

theorem dockStateCode_mod (d : DockState) : d.code % 256 = d.code := by cases d <;> rfl

theorem balanceStateCode_le (b : BalanceState) : b.code ≤ 3 := by cases b <;> decide

theorem ledCode_le (p : LedPattern) : p.code ≤ 3 := by cases p <;> decide

theorem stripCode_le (x : StripState) : stripCode x ≤ 2 := by cases x <;> decide

theorem flagBit_le (b : Bool) (n : Nat) : flagBit b n ≤ 2 ^ n := by
  unfold flagBit
  split <;> simp

theorem branchFlags_mod (s : State) (b : BranchNo) : branchFlags s b % 256 = branchFlags s b := by
  refine Nat.mod_eq_of_lt ?_
  unfold branchFlags
  have := flagBit_le (s.br b).present 0
  have := flagBit_le (s.br b).latched 1
  have := flagBit_le (s.br b).hold 2
  have := flagBit_le (s.br b).clearance 3
  have := flagBit_le (s.br b).enable 4
  have := flagBit_le (s.br b).lost 5
  have := flagBit_le (!supplyHealthy s b) 6
  have := flagBit_le (!returnHealthy s b) 7
  omega

theorem branchModes_mod (s : State) (b : BranchNo) : branchModes s b % 256 = branchModes s b := by
  refine Nat.mod_eq_of_lt ?_
  unfold branchModes
  have := ledCode_le (s.br b).led
  have := stripCode_le (trayState s b)
  have := balanceStateCode_le (s.br b).account.state
  have := flagBit_le ((s.br b).tier != 0) 6
  have := flagBit_le (s.br b).restricted.isSome 7
  omega

/-- A number that may be absent, in one octet. -/
theorem orCode_branch (o : Option BranchNo) : orCode (o.map (·.val)) 0xFF % 256 =
    match o with | none => 0xFF | some n => n.val := by
  obtain _ | n := o
  · rfl
  · exact branchNo_mod n

theorem orCode_slot (o : Option SlotNo) : orCode (o.map (·.val)) 0xFF % 256 =
    match o with | none => 0xFF | some k => k.val := by
  obtain _ | k := o
  · rfl
  · exact slotNo_mod k

/-- The fields of a record of READ_BRANCH from octet 7 of what follows the status on. -/
theorem RecordNumbers.fields (r : RecordNumbers) {x : List Byte} {head : List Byte} (seven : head.length = 7)
    (split : x = head ++ r.octets) : x.length = 45 ∧
    numberAt x 7 2 = r.floor % 65536 ∧ numberAt x 9 2 = r.cap % 65536 ∧ numberAt x 11 2 = r.request % 65536 ∧
    numberAt x 13 2 = r.grant % 65536 ∧ numberAt x 15 2 = r.restricted % 65536 ∧ numberAt x 17 2 = r.fopen % 65536 ∧
    numberAt x 19 2 = r.commanded % 65536 ∧ numberAt x 21 2 = r.applied % 65536 ∧
    (numberAt x 23 2 : Int) = r.trim % 65536 ∧ (numberAt x 25 4 : Int) = r.supply % 4294967296 ∧
    (numberAt x 29 4 : Int) = r.returned % 4294967296 ∧ (numberAt x 33 2 : Int) = r.rate % 65536 ∧
    numberAt x 35 2 = r.integrator % 65536 ∧ numberAt x 37 1 = r.above % 256 ∧ numberAt x 38 1 = r.takeUp % 256 ∧
    numberAt x 39 1 = r.counts % 256 ∧ numberAt x 40 3 = r.timer % 16777216 ∧ numberAt x 43 2 = r.causes % 65536 := by
  subst split
  simp [RecordNumbers.octets, seven, numberAt_append_past, numberAt_toOctets, numberAt_toOctets_last, numberAt_cons_succ,
    numberAt_octet, numberAt_toOctetsInt]

/-! The causes of a set by their bits. -/

theorem foldl_codeBits_getLsbD {α : Type} (code : α → Nat) (cs : List α) (acc : BitVec 16) {i : Nat} (within : i < 16) :
    (cs.foldl (fun acc c => acc ||| causeBit (code c)) acc).getLsbD i =
      (acc.getLsbD i || decide (∃ c ∈ cs, code c = i)) := by
  induction cs generalizing acc with
  | nil => simp
  | cons c cs ih => simp [ih, causeBit_getLsbD _ within, Bool.or_assoc]

theorem branchSetBits_testBit (cs : List BranchCause) (c : BranchCause) :
    (branchSetBits cs % 65536).testBit c.code = decide (c ∈ cs) := by
  have within : c.code < 16 := by cases c <;> decide
  have apart : ∀ d : BranchCause, d.code = c.code ↔ d = c := fun d => by cases d <;> cases c <;> decide
  rw [branchSetBits, wordToNat_mod, ← BitVec.getLsbD, foldl_codeBits_getLsbD _ _ _ within]
  simp [apart]

theorem railSetBits_testBit (cs : List RailCause) (c : RailCause) :
    (railSetBits cs % 65536).testBit c.code = decide (c ∈ cs) := by
  have within : c.code < 16 := by cases c <;> decide
  have apart : ∀ d : RailCause, d.code = c.code ↔ d = c := fun d => by cases d <;> cases c <;> decide
  rw [railSetBits, wordToNat_mod, ← BitVec.getLsbD, foldl_codeBits_getLsbD _ _ _ within]
  simp [apart]

theorem degraded_iff (h : Health) : h ≠ .healthy ↔ h = .degraded := by
  cases h <;> simp

theorem branchFlags_octet (s : State) (b : BranchNo) : branchFlags s b % 256 =
    (if (s.br b).present = true then 2 ^ 0 else 0) + (if (s.br b).latched = true then 2 ^ 1 else 0) +
      (if (s.br b).hold = true then 2 ^ 2 else 0) + (if (s.br b).clearance = true then 2 ^ 3 else 0) +
      (if (s.br b).enable = true then 2 ^ 4 else 0) + (if (s.br b).lost = true then 2 ^ 5 else 0) +
      (if (s.snapChannel (supplyChannel b)).health = .degraded then 2 ^ 6 else 0) +
      (if (s.snapChannel (returnChannel b)).health = .degraded then 2 ^ 7 else 0) := by
  rw [branchFlags_mod]
  simp only [branchFlags, flagBit, supplyHealthy, returnHealthy, ← degraded_iff, Bool.not_eq_true', decide_eq_false_iff_not, ne_eq]

theorem branchModes_octet (s : State) (b : BranchNo) : branchModes s b % 256 =
    (s.br b).led.code + 4 * stripCode (s.strip (trayStrip b)).state + 16 * (s.br b).account.state.code +
      (if (s.br b).tier ≠ 0 then 2 ^ 6 else 0) + (if (s.br b).restricted ≠ none then 2 ^ 7 else 0) := by
  rw [branchModes_mod]
  simp only [branchModes, flagBit, trayState, bne_iff_ne, Option.isSome_iff_ne_none]

/-- The record of a branch, field by field. -/
theorem branchReply_record (s : State) (b : BranchNo) (index : Byte) : BranchRecord s b index (index :: branchReply s b) := by
  obtain ⟨length, floor, cap, request, grant, restricted, fopen, commanded, applied, trim, supply, returned, rate, integrator,
    above, takeUp, counts, timer, causes⟩ := RecordNumbers.fields _ (head := index :: [octet b.val, octet (s.br b).dock.code,
      octet (branchFlags s b), octet (branchModes s b), octet (orCode ((s.br b).owner.map (·.val)) 0xFF),
      octet (orCode ((s.br b).incident.map (·.val)) 0xFF)]) rfl (show index :: branchReply s b = _ from rfl)
  refine ⟨length, ?_, ?_, ?_, .trans ?_ (branchFlags_octet s b), .trans ?_ (branchModes_octet s b), .trans ?_ (orCode_branch _), .trans ?_ (orCode_slot _), floor, cap, request, grant,
    restricted, fopen, commanded, applied, trim, supply, returned, rate, integrator, above, takeUp, counts, timer, fun c => ?_⟩
  · simp [numberAt]
  · simp [branchReply, numberAt_cons_succ, numberAt_octet, branchNo_mod]
  · simp [branchReply, numberAt_cons_succ, numberAt_octet, dockStateCode_mod]
  iterate 4 simp only [branchReply, numberAt_cons_succ, numberAt_octet, List.cons_append]
  · rw [causes]
    exact branchSetBits_testBit ..

theorem railFlags_octet (s : State) : railFlags s % 256 = (if s.rail.lost = true then 2 ^ 5 else 0) +
    (if (s.snapChannel 24).health = .degraded then 2 ^ 6 else 0) +
      (if (s.snapChannel 25).health = .degraded then 2 ^ 7 else 0) := by
  simp only [railFlags, flagBit, decide_eq_true_eq]
  split <;> split <;> split <;> rfl

/-- A number of two octets that is 0 has both octets 0. -/
theorem octets_of_pair {x : List Byte} {i : Nat} (zero : numberAt x i 2 = 0) :
    numberAt x i 1 = 0 ∧ numberAt x (i + 1) 1 = 0 := by
  simp only [numberAt] at zero ⊢
  omega

theorem pair_of_octets {x : List Byte} {i : Nat} (first : numberAt x i 1 = 0) (second : numberAt x (i + 1) 1 = 0) :
    numberAt x i 2 = 0 := by
  simp only [numberAt] at first second ⊢
  omega

theorem octets_zero_of_pairs {x : List Byte} {i k n : Nat} (pairs : ∀ j < n, numberAt x (k + 2 * j) 2 = 0)
    (within : i < 2 * n) : numberAt x (k + i) 1 = 0 := by
  obtain ⟨even, odd⟩ := octets_of_pair (pairs (i / 2) (by omega))
  obtain at_ | at_ : k + i = k + 2 * (i / 2) ∨ k + i = k + 2 * (i / 2) + 1 := by omega
  · rw [at_, even]
  · rw [at_, odd]

/-- The record of the rail, field by field. -/
theorem railReply_record (s : State) : RailRecord s (0xFF :: railReply s) := by
  obtain ⟨length, floor, cap, request, grant, restricted, fopen, commanded, applied, trim, supply, returned, rate, integrator,
    above, takeUp, counts, timer, causes⟩ :=
    RecordNumbers.fields _ (head := 0xFF :: [0xFF, octet s.rail.state.code, octet (railFlags s),
      octet (16 * s.rail.account.state.code), 0, octet (orCode (s.rail.incident.map (·.val)) 0xFF)]) rfl
      (show 0xFF :: railReply s = _ from rfl)
  dsimp only at *
  rw [Nat.zero_mod] at floor cap request grant restricted fopen commanded applied takeUp counts
  rw [Int.zero_emod, Int.natCast_eq_zero] at trim rate
  have := balanceStateCode_le s.rail.account.state
  refine ⟨length, by rfl, by rfl, ?_, .trans ?_ (railFlags_octet s), ?_, ?_, .trans ?_ (orCode_slot _), fun i within => ?_, supply, returned, ?_, integrator,
    above, ?_, timer, fun c => ?_⟩
  · simp [railReply, numberAt_cons_succ, numberAt_octet, railStateCode_mod]
  · simp only [railReply, numberAt_cons_succ, numberAt_octet, List.cons_append]
  · simp only [railReply, numberAt_cons_succ, numberAt_octet, List.cons_append]
    omega
  · simp only [railReply, numberAt_cons_succ, List.cons_append]
    rfl
  · simp only [railReply, numberAt_cons_succ, numberAt_octet, List.cons_append]
  · refine octets_zero_of_pairs (n := 9) (fun j below => ?_) within
    interval_cases j
    exacts [floor, cap, request, grant, restricted, fopen, commanded, applied, trim]
  · exact rate
  · exact pair_of_octets takeUp counts
  · rw [causes]
    exact railSetBits_testBit ..

/-- READ_BRANCH by what the index names. -/
theorem serveReadBranch_of_branch {index : Byte} {b : BranchNo} (named : translate s l index.toNat = .branch b) :
    serveReadBranch l tag [index] s = replied s l 0x81 tag (0x00 :: index :: branchReply s b) := by
  simp only [serveReadBranch, named, octetAt_cons_zero, octet_self]
  rfl

theorem serveReadBranch_of_rail {index : Byte} (named : translate s l index.toNat = .rail) :
    serveReadBranch l tag [index] s = replied s l 0x81 tag (0x00 :: index :: railReply s) := by
  simp only [serveReadBranch, named, octetAt_cons_zero, octet_self]
  rfl

theorem serveReadBranch_of_outside {index : Byte} (unnamed : translate s l index.toNat = .outside) :
    serveReadBranch l tag [index] s = if l = plantLine then replied s l 0x81 tag [0x02]
      else replied s l 0x81 tag (0x00 :: index :: nullReply) := by
  simp only [serveReadBranch, unnamed, octetAt_cons_zero, octet_self]
  rfl

/-- Settles O47. -/
theorem readBranchReturnsTheRecord : Obligations.ReadBranchReturnsTheRecord := by
  unfold Obligations.ReadBranchReturnsTheRecord
  intro s l tag index empty loaded h taken
  have run : taken = .next (serveReadBranch l tag [index] h) :=
    exec_frameReceived_handRequest (k := .readBranch) empty rfl rfl (.inl loaded) (by simp [Kind.bodyLength]) (by simp)
  refine ⟨fun b named => ?_, fun named => ?_, fun unnamed => ?_⟩
  · have found : translate h l index.toNat = .branch b := (translate_eq_branch s l _ b).2 named
    rw [run, serveReadBranch_of_branch found]
    exact ⟨_, rfl, branchReply_record h b index⟩
  · have found : translate h l index.toNat = .rail := (translate_eq_rail s l _).2 named
    have rail : index = 0xFF := BitVec.eq_of_toNat_eq named.2
    rw [run, serveReadBranch_of_rail found, rail]
    exact ⟨_, rfl, railReply_record h⟩
  · have found : translate h l index.toNat = .outside := (translate_eq_outside s l _).2 unnamed
    rw [run, serveReadBranch_of_outside found]
    refine ⟨fun other => ?_, fun plant => ?_⟩
    · rw [if_neg other]
      rfl
    · rw [if_pos plant]

/-! ## The KINDs (R161) -/

theorem kind_of_octet {k : Kind} (known : Kind.ofOctet x = some k) : x = k.code := by
  unfold Kind.ofOctet at known
  split at known <;> cases known
  all_goals
    rename_i number
    exact BitVec.eq_of_toNat_eq number

theorem kindTable_complete (k : Kind) : ∃ y ∈ kindTable, y.1 = k.code := by cases k <;> decide

/-! ## Waiting and overruns (R160) -/

theorem exec_frameReceived_placed (fits : body.length ≤ 48) :
    exec (.frameReceived l kind tag body (frameCheck kind tag body)) s =
      .next (placeFrame l ⟨kind, tag, body⟩ (noteOctet l false s)) := by
  rw [exec_frameReceived_of_fits fits, completeFrame, if_pos rfl]

theorem placeFrame_of_used (used : (s.line l).service ≠ .empty) (f : Frame) :
    placeFrame l f (noteOctet l false s) = if (s.line l).waiting.length < 2
      then (receiving l false .hunting s).updLine l fun ln => { ln with waiting := ln.waiting ++ [f] }
      else raiseLineFault l true (receiving l false .hunting s) := by
  have line := receiving_line l false .hunting s
  simp only [placeFrame, noteOctet_updRx, line, if_neg used]

/-! ## The hand-over (R162) -/

theorem handRequest_of_parsed {k : Kind} {r : Request} (parsed : parseRequest s l k body = some r) :
    handRequest l k ⟨kind, tag, body⟩ s = s.updLine l fun ln => { ln with service := .handed tag r } := by
  unfold handRequest
  split
  case h_1 => cases parsed
  case h_2 => cases parsed
  case h_3 => rw [parsed]

theorem handRequest_of_none {k : Kind} (other : k ≠ .readBranch ∧ k ≠ .setWindow) (parsed : parseRequest s l k body = none) :
    handRequest l k ⟨kind, tag, body⟩ s = startReply l kind tag .noTarget [] s := by
  unfold handRequest
  split
  case h_1 => exact absurd rfl other.1
  case h_2 => exact absurd rfl other.2
  case h_3 => rw [parsed]

theorem forBranch_of_names {i : Nat} {b : BranchNo} (named : Names s l i (.branch b)) (f : BranchNo → Request) :
    forBranch (translate s l i) f = some (f b) := by
  rw [(translate_eq_branch s l i b).2 named, forBranch]

theorem forBranch_of_unnamed {i : Nat} (unnamed : ∀ b, ¬Names s l i (.branch b)) (f : BranchNo → Request) :
    forBranch (translate s l i) f = none := by
  cases found : translate s l i with
  | branch b => exact absurd ((translate_eq_branch s l i b).1 found) (unnamed b)
  | rail => rfl
  | outside => rfl

theorem forTarget_of_names {i : Nat} {g : Target} (named : Names s l i g) (f : Target → Request) :
    forTarget (translate s l i) f = some (f g) := by
  cases g with
  | branch b => rw [(translate_eq_branch s l i b).2 named, forTarget]
  | rail => rw [(translate_eq_rail s l i).2 named, forTarget]

theorem forTarget_of_unnamed {i : Nat} (unnamed : ∀ g, ¬Names s l i g) (f : Target → Request) :
    forTarget (translate s l i) f = none := by
  rw [(translate_eq_outside s l i).2 unnamed, forTarget]

theorem parseRequest_transfer {b c : BranchNo} (first : Names s l (octetAt body 0) (.branch b))
    (second : Names s l (octetAt body 1) (.branch c)) :
    parseRequest s l .transfer body = some (.transfer b c (numberAt body 2 2)) := by
  simp only [parseRequest, (translate_eq_branch s l _ _).2 first, (translate_eq_branch s l _ _).2 second]

theorem parseRequest_transfer_none (unnamed : (∀ b, ¬Names s l (octetAt body 0) (.branch b)) ∨
    ∀ b, ¬Names s l (octetAt body 1) (.branch b)) : parseRequest s l .transfer body = none := by
  simp only [parseRequest]
  split
  case h_1 b c first second => exact absurd unnamed (not_or.2
    ⟨fun none => none b ((translate_eq_branch s l _ b).1 first), fun none => none c ((translate_eq_branch s l _ c).1 second)⟩)
  case h_2 => rfl

/-- The hand-over of each KIND, given what a parsed and an unparsed request lead to. -/
theorem handsOn {k : Kind} {handed : Request → Prop} {refused : Prop}
    (hands : ∀ r, parseRequest s l k body = some r → handed r)
    (refuses : k ≠ .readBranch ∧ k ≠ .setWindow → parseRequest s l k body = none → refused) :
    HandsOn s l k body handed refused := by
  refine ⟨?flow, ?transfer, ?release, ?setBranch, ?admitBay, ?isolate, ?clear, ?noBranch, ?noSecond, ?noTarget, ?_, ?_, ?_, ?_, ?_,
    ?_, ?_, ?_, ?_, ?_, ?_, ?_, ?_, ?_, ?_, ?_, ?_⟩
  case transfer =>
    rintro rfl b c second first
    exact hands _ (parseRequest_transfer first second)
  case isolate =>
    rintro rfl g named
    exact hands _ (forTarget_of_names named .isolate)
  case clear =>
    rintro rfl g named
    exact hands _ (forTarget_of_names named fun g => .clearCause g (octetAt body 1))
  case setBranch =>
    rintro rfl b named
    refine hands _ ((forBranch_of_names named _).trans ?_)
    simp only [bne, decide_not]
    rfl
  case flow | release | admitBay =>
    rintro rfl b named
    exact hands _ (forBranch_of_names named _)
  case noSecond =>
    rintro rfl unnamed
    exact refuses (by decide) (parseRequest_transfer_none (.inr unnamed))
  case noTarget =>
    intro kinds unnamed
    rw [List.mem_pair] at kinds
    obtain rfl | rfl := kinds
    · exact refuses (by decide) (forTarget_of_unnamed unnamed .isolate)
    · exact refuses (by decide) (forTarget_of_unnamed unnamed fun g => .clearCause g (octetAt body 1))
  case noBranch =>
    intro kinds unnamed
    simp only [List.mem_cons, List.not_mem_nil, or_false] at kinds
    obtain rfl | rfl | rfl | rfl | rfl := kinds
    case inr.inl => exact refuses (by decide) (parseRequest_transfer_none (.inl unnamed))
    all_goals exact refuses (by decide) (forBranch_of_unnamed unnamed _)
  all_goals
    rintro rfl
    exact hands _ rfl

/-! ## What the reception of a line leaves of a service (R163) -/

theorem updLine_receiving (f : Line → Line) (e : Bool) (rx : Rx) (apart : ∀ ln : Line,
    f { ln with rx := rx, awaitIdle := e } = { f ln with rx := rx, awaitIdle := e }) :
    (receiving l e rx s).updLine l f = receiving l e rx (s.updLine l f) := by
  have after : receiving l e rx (s.updLine l f) = (s.updLine l f).updLine l fun ln => { ln with rx := rx, awaitIdle := e } := rfl
  rw [receiving_updLine, after, State.updLine_updLine]
  simp only [apart]

theorem startReply_receiving (k : Byte) (st : Status) (xs : List Byte) (e : Bool) (rx : Rx) (s : State) :
    startReply l k tag st xs (receiving l e rx s) = receiving l e rx (startReply l k tag st xs s) :=
  updLine_receiving _ e rx fun _ => rfl

theorem serveReadBranch_receiving (e : Bool) (rx : Rx) (s : State) :
    serveReadBranch l tag body (receiving l e rx s) = receiving l e rx (serveReadBranch l tag body s) := by
  have same : ∀ i, translate (receiving l e rx s) l i = translate s l i := fun i => rfl
  simp only [serveReadBranch, same, startReply_receiving]
  split
  · rfl
  · rfl
  · split <;> rfl

theorem setWindowResult_receiving (n : Nat) (w : Window) (e : Bool) (rx : Rx) (s : State) :
    setWindowResult (receiving l e rx s) n w = (receiving l e rx (setWindowResult s n w).1, (setWindowResult s n w).2) := by
  by_cases beyond : 11 < n
  · rw [setWindowResult_beyond beyond, setWindowResult_beyond beyond]
  · have same := setWindowResult_val (s := s) ⟨n, by omega⟩ w
    rw [setWindowResult_val (s := receiving l e rx s) ⟨n, by omega⟩ w, same]
    have status : windowStatus (receiving l e rx s) ⟨n, by omega⟩ w = windowStatus s ⟨n, by omega⟩ w := rfl
    rw [status]
    split <;> rfl

theorem serveSetWindow_receiving (e : Bool) (rx : Rx) (s : State) :
    serveSetWindow l tag body (receiving l e rx s) = receiving l e rx (serveSetWindow l tag body s) := by
  simp only [serveSetWindow, setWindowResult_receiving, startReply_receiving]
  rfl

/-- R162: the taking of a request does not look at the reception of its line, and leaves it. -/
theorem takeForService_receiving (f : Frame) (e : Bool) (rx : Rx) (s : State) :
    takeForService l f (receiving l e rx s) = receiving l e rx (takeForService l f s) := by
  have checks : checkRequest (receiving l e rx s) l f = checkRequest s l f := rfl
  have parses : ∀ k, parseRequest (receiving l e rx s) l k f.body = parseRequest s l k f.body := fun k => rfl
  rw [takeForService, checks, takeForService]
  split
  · exact startReply_receiving ..
  · unfold handRequest
    split
    · exact serveReadBranch_receiving ..
    · exact serveSetWindow_receiving ..
    · rw [parses]
      split
      · exact updLine_receiving _ e rx fun _ => rfl
      · exact startReply_receiving ..

/-- R163: a request that waited is taken as a frame received into the empty place, but for the reception of the line. -/
theorem serviceNext_received {f : Frame} {rest : List Frame} (waits : (s.line l).waiting = f :: rest) :
    serviceNext l s = receiving l (s.line l).awaitIdle (s.line l).rx
      (takeForService l f (arrived l (s.updLine l fun ln => { ln with service := .empty, waiting := rest }))) := by
  generalize vacated : (s.updLine l fun ln => { ln with service := .empty, waiting := rest }) = v
  have line : v.line l = { s.line l with service := .empty, waiting := rest } := by
    rw [← vacated, State.updLine_line_same]
  have back : receiving l (s.line l).awaitIdle (s.line l).rx (receiving l false .hunting v) = v := by
    have same : { v.line l with rx := (s.line l).rx, awaitIdle := (s.line l).awaitIdle } = v.line l := by rw [line]
    rw [receiving_receiving, receiving, same, State.line, Vec.put_pick_self]
  rw [serviceNext, waits]
  simp only [vacated]
  rw [arrived_eq, ← takeForService_receiving, back]

theorem serviceNext_of_none (none : (s.line l).waiting = []) :
    serviceNext l s = s.updLine l fun ln => { ln with service := .empty } := by
  simp only [serviceNext, none]

theorem exec_replySent_next {r : Reply} (sending : (s.line l).service = .sending r) (plain : r.beginsRestart = false) :
    exec (.replySent l) s = .next (serviceNext l s) := by
  simp only [exec, execReplySent, sending, plain, Bool.false_eq_true, if_false]

/-- R162: a request refused at the tests 1 to 4. -/
theorem exec_frameReceived_refused {st : Status} (fits : body.length ≤ 48) (empty : (s.line l).service = .empty)
    (refused : checkRequest s l ⟨kind, tag, body⟩ = .error st) :
    exec (.frameReceived l kind tag body (frameCheck kind tag body)) s =
      .next (replied (receiving l false .hunting s) l (kind ||| 0x80) tag [st.code]) := by
  have checks : checkRequest (receiving l false .hunting s) l ⟨kind, tag, body⟩ = .error st := refused
  rw [exec_frameReceived_of_empty kind tag fits empty, arrived_eq, takeForService, checks]
  rfl

/-- Settles O43. -/
theorem receivedFrameIsPlacedAndTaken : Obligations.ReceivedFrameIsPlacedAndTaken := by
  unfold Obligations.ReceivedFrameIsPlacedAndTaken
  intro s l kind tag body
  refine ⟨by decide, fun x undefined => ?undefined, fun fits => ?frame⟩
  case undefined =>
    cases known : Kind.ofOctet x with
    | none => rfl
    | some k =>
      obtain ⟨y, listed, code⟩ := kindTable_complete k
      exact absurd (code.trans (kind_of_octet known).symm) (undefined y listed)
  intro received h refused
  refine ⟨fun used few => ?_, fun used many => ?_, fun empty => ⟨fun unknown => ?_, fun k known => ⟨fun wrong => ?_,
    fun taken loading other => ?_, fun taken loaded short => ?_, fun taken loaded long => ?_⟩⟩,
    fun r sending plain => ⟨fun none => ?_, fun rest waits => ?_⟩⟩
  · refine (exec_frameReceived_placed fits).trans (congrArg _ ?_)
    rw [placeFrame_of_used used, if_pos few, receiving_updLine]
    rfl
  · refine ⟨_, exec_frameReceived_placed fits, ?_⟩
    rw [placeFrame_of_used used, if_neg (Nat.not_lt.2 many)]
    obtain ⟨e, held, cause, key, -, overrun⟩ := raise_entry supLine ⟨.sup .lineFault, l.val, [], true⟩ (receiving l false .hunting s)
    exact ⟨⟨e, held, cause, key, overrun rfl⟩, rfl⟩
  · exact exec_frameReceived_refused (st := .unknownKind) fits empty (by simp only [checkRequest, unknown])
  · exact exec_frameReceived_refused (st := .wrongLine) fits empty (by simp [checkRequest, known, wrong])
  · exact exec_frameReceived_refused (st := .notReady) fits empty (by simp [checkRequest, known, taken, loading, other])
  · exact exec_frameReceived_refused (st := .notServed) fits empty (by simp [checkRequest, known, taken, loaded, short])
  · intro handed
    have run : received = .next (handRequest l k ⟨kind, tag, body⟩ h) :=
      exec_frameReceived_handRequest empty known taken loaded long fits
    have hands : HandsOn h l k body handed (refused 0x02) :=
      handsOn (fun r parsed => run.trans (congrArg _ (handRequest_of_parsed parsed)))
        fun other unparsed => run.trans (congrArg _ (handRequest_of_none other unparsed))
    exact hands
  · exact (exec_replySent_next sending plain).trans (congrArg _ (serviceNext_of_none none))
  · refine ⟨_, exec_frameReceived_of_empty kind tag fits (by rw [State.line, Vec.pick_put_same]), ?_⟩
    exact (exec_replySent_next sending plain).trans (congrArg _ (serviceNext_received waits))
end

end Sys2Proof.Machine
end

section
/-! PROOF. The health of the meter channels at a window close and at its threshold events (O51). -/

namespace Sys2Proof.Machine

open Sys2Proof Sys2Proof.Safety

section
variable {s t u : State} {b : BranchNo} {c : ChannelNo}

/-! ## What the blocks leave to the Meter Unit at a window close -/

/-- The Meter Unit, the lines and the channels told of by METER_DEGRADED are as before. -/
structure MeterKept (s t : State) : Prop where
  meter : t.meter = s.meter
  lines : t.lines = s.lines
  alarms : ∀ k, SupEntry t .meterDegraded k ↔ SupEntry s .meterDegraded k

theorem MeterKept.refl (s : State) : MeterKept s s := ⟨rfl, rfl, fun _ => .rfl⟩

theorem MeterKept.trans (h : MeterKept s t) (k : MeterKept t u) : MeterKept s u :=
  ⟨k.meter.trans h.meter, k.lines.trans h.lines, fun x => (k.alarms x).trans (h.alarms x)⟩

theorem MeterKept.of_attn (meter : t.meter = s.meter) (lines : t.lines = s.lines) (attn : t.attn = s.attn) : MeterKept s t :=
  ⟨meter, lines, fun k => by simp only [SupEntry, State.attnOf, attn]⟩

theorem raise_meterKept (l : LineNo) {e : AttnEntry} (other : e.cause ≠ .sup .meterDegraded) (s : State) :
    MeterKept s (raise l e s) :=
  ⟨rfl, rfl, fun _ => (noted_raise ..).trans (or_iff_left fun ⟨_, cause, _⟩ => other cause)⟩

theorem raiseSup_meterKept {c : SupCause} (other : c ≠ .meterDegraded) (key : Nat) (s : State) : MeterKept s (raiseSup c key s) :=
  raise_meterKept _ (fun e => other (AttnCause.sup.inj e)) s

theorem raiseOwner_meterKept (b : BranchNo) (c : SledCause) (xs : List BranchCause) (s : State) :
    MeterKept s (raiseOwner b c xs s) := by
  unfold raiseOwner
  split
  · exact .refl s
  · refine raise_meterKept _ (fun same => ?_) s
    cases same

theorem forBranches_meterKept {f : BranchNo → State → State} (turn : ∀ b u, MeterKept u (f b u)) (s : State) :
    MeterKept s (forBranches f s) :=
  forBranches_inv (MeterKept s) f (fun b u kept => kept.trans (turn b u)) s (.refl s)

theorem closeRecord_meterKept (g : Target) (s : State) : MeterKept s (closeRecord g s) := by
  unfold closeRecord
  split
  · exact .refl s
  · refine .trans ?_ (raiseSup_meterKept (by decide) _ _)
    exact .of_attn rfl rfl rfl

theorem ringAdd_meterKept (g : Target) (c : Cause) (x : Bool) (s : State) : MeterKept s (ringAdd g c x s) := by
  have lost : ∀ y, MeterKept s (loseIncident g y s) := fun y => by
    refine .trans ?_ (raiseSup_meterKept (by decide) _ _)
    cases g <;> exact .of_attn rfl rfl rfl
  have placed : MeterKept s (recordPlaced g c x s) := by cases g <;> exact .of_attn rfl rfl rfl
  unfold ringAdd
  split
  · split
    · exact .of_attn rfl rfl rfl
    all_goals exact lost _
  · split
    · rw [openRecord_eq]
      split
      · exact placed.trans (closeRecord_meterKept ..)
      · exact placed
    · exact lost _

theorem addCauseCore_meterKept (b : BranchNo) (c : BranchCause) (x : Bool) (s : State) :
    MeterKept s (addCauseCore b c x s) := by
  by_cases held : c ∈ (s.br b).causes
  · rw [addCauseCore_of_mem b c x s held]
    exact .refl s
  · have taken : MeterKept s (causeTaken b c s) := by
      refine .trans ?_ (raiseOwner_meterKept _ _ _ _)
      exact .of_attn rfl rfl rfl
    rw [addCauseCore_eq held]
    split
    · exact taken.trans (ringAdd_meterKept ..)
    · exact taken

theorem addBranchCause_meterKept (b : BranchNo) (c : BranchCause) (x : Bool) (s : State) :
    MeterKept s (addBranchCause b c x s) := by
  have gates : ∀ u, MeterKept u (gateAll u) := fun u => .of_attn (gateAll_meter u) (gateAll_lines u) (gateAll_attn u)
  unfold addBranchCause leftVacant
  dsimp only
  split
  · refine .trans (addCauseCore_meterKept b c x s) (.trans ?_ (gates _))
    split
    · exact .refl _
    · exact addCauseCore_meterKept ..
  · exact addCauseCore_meterKept ..

theorem addRailCause_meterKept (c : RailCause) (s : State) : MeterKept s (addRailCause c s) := by
  by_cases held : c ∈ s.rail.causes
  · rw [addRailCause_of_mem held]
    exact .refl s
  · have answered : MeterKept s (railAnswered c s) := by
      have taken : MeterKept s (railTakes c s) := by
        unfold railTakes
        split <;> exact .of_attn rfl rfl rfl
      have driven : ∀ u, MeterKept u (driveTripOut u) := fun u => .of_attn rfl rfl rfl
      unfold railAnswered
      refine .trans ?_ (driven _)
      split
      · refine taken.trans (forBranches_meterKept (fun b u => ?_) _)
        split
        · exact .refl u
        · exact addCauseCore_meterKept ..
      · exact taken
    rw [addRailCause_eq held]
    split
    · exact answered.trans (ringAdd_meterKept ..)
    · exact answered

/-! ## The parts -/

theorem closeBalance_meterKept (s : State) : MeterKept s (closeBalance s) := by
  have handed : ∀ b cs u, MeterKept u (addBranchCauses b cs u) := fun b cs u => by
    induction cs generalizing u with
    | nil => exact .refl u
    | cons c cs ih => exact (addBranchCause_meterKept b c false u).trans (ih _)
  have branches : MeterKept s (forBranches balanceBranch s) := by
    refine forBranches_meterKept (fun b u => ?_) s
    unfold balanceBranch
    split
    · refine .trans ?_ (handed _ _ _)
      exact .of_attn rfl rfl rfl
    · exact .refl u
  have rail : ∀ u, MeterKept u (balanceRail u) := fun u => by
    unfold balanceRail
    split
    · dsimp only
      split
      · refine .trans ?_ (addRailCause_meterKept _ _)
        exact .of_attn rfl rfl rfl
      · exact .of_attn rfl rfl rfl
    · exact .refl u
  have loss : ∀ g d u, MeterKept u (addLoss g d u) := fun g d u => by
    unfold addLoss
    split
    · exact .refl u
    · exact .of_attn rfl rfl rfl
  have losses : ∀ u, MeterKept u (handLosses u) := fun u => by
    have each : MeterKept u (forBranches (fun b s =>
        if supplyHealthy s b && returnHealthy s b then addLoss (.branch b) (imbalance s b) s else s) u) := by
      refine forBranches_meterKept (fun b v => ?_) u
      split
      · exact loss ..
      · exact .refl v
    unfold handLosses
    dsimp only
    split
    · exact each.trans (loss ..)
    · exact each
  exact (branches.trans (rail _)).trans (losses _)

theorem closeLocate_meterKept (s : State) : MeterKept s (closeLocate s) := by
  have ends : ∀ o u, MeterKept u (endLocate o u) := fun o u => .of_attn rfl rfl rfl
  have located : ∀ (bs : List BranchNo) (u : State),
      MeterKept u (bs.foldl (fun s b => addBranchCause b .located false s) u) := fun bs u => by
    induction bs generalizing u with
    | nil => exact .refl u
    | cons b bs ih => exact (addBranchCause_meterKept b .located false u).trans (ih _)
  unfold closeLocate
  split
  · dsimp only
    split
    · exact (located ..).trans (ends ..)
    · split
      · exact (addRailCause_meterKept ..).trans (ends ..)
      · split <;> exact .of_attn rfl rfl rfl
  · exact .refl s

theorem closeValves_meterKept (s : State) : MeterKept s (closeValves s) := by
  refine forBranches_meterKept (fun b u => ?_) s
  unfold trimBranch
  split
  · exact .of_attn rfl rfl rfl
  · exact .refl u

theorem enterAdmitted_meterKept (b : BranchNo) (s : State) : MeterKept s (enterAdmitted b s) := by
  refine .trans ?_ (raiseOwner_meterKept _ _ _ _)
  exact .of_attn rfl rfl rfl

theorem closeDock_meterKept (b : BranchNo) (s : State) : MeterKept s (closeDock b s) := by
  have counts : ∀ f : Branch → Branch, MeterKept s (s.updBranch b f) := fun f => .of_attn rfl rfl rfl
  unfold closeDock
  split
  · unfold primingCheck
    split
    · split
      · split
        · exact enterAdmitted_meterKept ..
        · exact counts _
      · exact counts _
    · exact .refl s
  · unfold adoptionCheck
    split
    · split
      · split
        · exact enterAdmitted_meterKept ..
        · exact counts _
      · split
        · split <;> exact counts _
        · exact counts _
    · exact .refl s
  · unfold drainCheck
    split
    · refine .trans ?_ (raiseOwner_meterKept _ _ _ _)
      exact counts _
    · exact .refl s
  all_goals exact .refl s

theorem runRound_meterKept (s : State) : MeterKept s (runRound s) := by
  have tells : ∀ (rs : List (LineNo × AttnEntry)) (u : State), (∀ r ∈ rs, r.2.cause ≠ .sup .meterDegraded) →
      MeterKept u (tell rs u) := fun rs u others => by
    induction rs generalizing u with
    | nil => exact .refl u
    | cons r rs ih =>
      exact (raise_meterKept r.1 (others r List.mem_cons_self) u).trans (ih _ fun q there => others q (List.mem_cons_of_mem r there))
  rw [runRound_eq_tell]
  have taken : MeterKept s (roundTaken s) := .of_attn rfl rfl rfl
  refine taken.trans (tells _ _ fun r told => ?_)
  obtain ⟨-, rfl | rfl⟩ | ⟨b, -, o, -, rfl⟩ | ⟨-, rfl⟩ := mem_roundTells.1 told
  all_goals
    intro same
    cases same

theorem closeAllocator_meterKept (s : State) : MeterKept s (closeAllocator s) := by
  refine .trans (forBranches_meterKept (fun b u => ?_) s) (runRound_meterKept _)
  have takes : ∀ f : Branch → Branch, MeterKept u (u.updBranch b f) := fun f => .of_attn rfl rfl rfl
  unfold takeUpCheck
  split
  · split
    · split
      · unfold restrict
        dsimp only
        split
        · exact takes _
        · exact ((takes _).trans (raiseOwner_meterKept ..)).trans (raiseSup_meterKept (by decide) ..)
      · exact takes _
    · exact takes _
  · exact .refl u

theorem takePart_meterKept (p : ClosePart) (s : State) : MeterKept s (takePart s p) := by
  cases p with
  | dock b => exact closeDock_meterKept b s
  | allocator => exact closeAllocator_meterKept s
  | valves => exact closeValves_meterKept s
  | balance => exact closeBalance_meterKept s
  | locate => exact closeLocate_meterKept s

theorem takeParts_meterKept (ps : List ClosePart) (s : State) : MeterKept s (ps.foldl takePart s) := by
  induction ps generalizing s with
  | nil => exact .refl s
  | cons p ps ih => exact (takePart_meterKept p s).trans (ih _)

/-! ## The Meter Unit's part (R34 to R40) -/

/-- METER_DEGRADED with the number of each channel that enters DEGRADED. -/
def degradedTells (cs : List ChannelNo) : List (LineNo × AttnEntry) :=
  cs.map fun c => (supLine, .of (.sup .meterDegraded) c.val)

theorem raiseDegraded_eq_tell (cs : List ChannelNo) (s : State) : raiseDegraded cs s = tell (degradedTells cs) s := by
  rw [tell, degradedTells, List.foldl_map]
  rfl

/-- The state in which the window is published and nothing yet told. -/
def metersClosed (s : State) : State := { s with
  meter :=
    { channels := channelTable fun c => (s.channel c).close
      snap :=
        { seq := s.meter.snap.seq + 1
          channels := channelTable fun c => (s.channel c).capture s.params.windowLength }
      windowTimer := some s.params.windowLength }
  lines := Vec.map (fun ln => { ln with badCount := 0 }) s.lines }

theorem closeMeters_eq (s : State) : closeMeters s =
    tell (degradedTells (allChannels.filter fun c => (s.channel c).degrades)) (metersClosed s) := by
  rw [← raiseDegraded_eq_tell]
  rfl

theorem closeMeters_frame (s : State) : closeMeters s = { metersClosed s with attn := (closeMeters s).attn } := by
  rw [closeMeters_eq]
  exact tell_eq ..

theorem closeMeters_channel (s : State) (c : ChannelNo) : (closeMeters s).channel c = (s.channel c).close := by
  rw [closeMeters_frame]
  exact pick_channelTable ..

theorem closeMeters_snapChannel (s : State) (c : ChannelNo) :
    (closeMeters s).snapChannel c = (s.channel c).capture s.params.windowLength := by
  rw [closeMeters_frame]
  exact pick_channelTable ..

theorem degrades_iff (ch : MeterChannel) : ch.degrades = true ↔ ch.health = .healthy ∧ ch.close.health = .degraded := by
  simp [MeterChannel.degrades, MeterChannel.close]

/-- R40: only a channel that enters DEGRADED is told. -/
theorem closeMeters_alarm (s : State) (c : ChannelNo) : SupEntry (closeMeters s) .meterDegraded c.val ↔
    SupEntry s .meterDegraded c.val ∨ (s.channel c).health = .healthy ∧ (s.channel c).close.health = .degraded := by
  have told : (∃ r ∈ degradedTells (allChannels.filter fun c => (s.channel c).degrades),
      r.1 = supLine ∧ r.2.cause = .sup .meterDegraded ∧ r.2.key = c.val) ↔ (s.channel c).degrades = true := by
    have all : ∀ d : ChannelNo, d ∈ allChannels := by decide
    simp [degradedTells, AttnEntry.of, all, Fin.val_inj]
  rw [← degrades_iff, ← told, closeMeters_eq]
  exact noted_tell ..

/-! ## Health (R38, R39) -/

theorem close_judged (ch : MeterChannel) : HealthJudged ch ch.close := by
  refine ⟨fun healthy => ⟨fun beyond => ?_, fun fine qerr third => ?_, fun fine qerr early => ?_, fun fine clean => ?_⟩,
    fun degraded => ⟨fun flagged => ?_, fun clean fine early => ?_, fun clean fine tenth => ?_⟩⟩
  · simp [MeterChannel.close, MeterChannel.judge, MeterChannel.degrade, healthy, beyond]
  · simp [MeterChannel.close, MeterChannel.judge, MeterChannel.degrade, healthy, fine, qerr, third]
  · simp [MeterChannel.close, MeterChannel.judge, healthy, fine, qerr, Nat.not_le.2 early]
  · simp [MeterChannel.close, MeterChannel.judge, healthy, fine, clean]
  · simp [MeterChannel.close, MeterChannel.judge, degraded, flagged]
  · simp [MeterChannel.close, MeterChannel.judge, degraded, clean, fine, Nat.not_le.2 early]
  · simp [MeterChannel.close, MeterChannel.judge, MeterChannel.heal, degraded, clean, fine, tenth]

theorem exec_windowClose {left : Nat} (runs : s.meter.windowTimer = some left) (order : List ClosePart) :
    exec (.windowClose order) s = .next ((closeOrder order).foldl takePart (closeMeters (elapse left s))) := by
  simp only [exec, execWindowClose, runs]
  rfl

theorem qerrRunReaches_iff : qerrRunReaches s c = true ↔
    (s.channel c).health = .healthy ∧ (s.snapChannel c).qerr = true ∧ 2 ≤ (s.channel c).qerrRun := by
  simp [qerrRunReaches, and_assoc]

theorem cleanRunReaches_iff : cleanRunReaches s c = true ↔ (s.channel c).health = .degraded ∧
    (s.snapChannel c).qerr = false ∧ (s.snapChannel c).overrange = false ∧ 9 ≤ (s.channel c).cleanRun := by
  simp [cleanRunReaches, and_assoc]

/-- The channel `c` and its place in the snapshot take a health, and no other. -/
structure HealthSet (c : ChannelNo) (f : MeterChannel → MeterChannel) (s t : State) : Prop where
  channel : t.channel c = f (s.channel c)
  snap : t.snapChannel c = { s.snapChannel c with health := (f (s.channel c)).health }
  others : ∀ d, d ≠ c → t.channel d = s.channel d ∧ t.snapChannel d = s.snapChannel d
  frame : t = { s with meter := t.meter }

theorem setHealth_sets (c : ChannelNo) (f : MeterChannel → MeterChannel) (s : State) : HealthSet c f s (setHealth c f s) where
  channel := Vec.pick_put_same ..
  snap := by
    have own : (s.updChannel c f).channel c = f (s.channel c) := Vec.pick_put_same ..
    refine (Vec.pick_put_same ..).trans ?_
    rw [own]
    rfl
  others d other := ⟨Vec.pick_put_ne _ _ other.symm, Vec.pick_put_ne _ _ other.symm⟩
  frame := rfl

/-- Settles O51. -/
theorem meterHealthThresholds : Obligations.MeterHealthThresholds := by
  unfold Obligations.MeterHealthThresholds
  intro s c ch order left reaches heals becomes
  refine ⟨fun reached => ?_, fun not => ?_, fun healed => ?_, fun not => ?_, fun healthy => ⟨?_, ?_⟩, fun runs => ?_⟩
  · obtain ⟨channel, snap, others, frame⟩ := setHealth_sets c MeterChannel.degrade s
    refine ⟨_, congrArg Host.Outcome.next (if_pos (qerrRunReaches_iff.2 reached)), ⟨channel, snap, others⟩,
      supEntry_raiseSup .., ?_⟩
    rw [frame]
    rfl
  · exact congrArg Host.Outcome.next (if_neg fun reached => not (qerrRunReaches_iff.1 reached))
  · obtain ⟨channel, snap, others, frame⟩ := setHealth_sets c MeterChannel.heal s
    exact ⟨_, congrArg Host.Outcome.next (if_pos (cleanRunReaches_iff.2 healed)), ⟨channel, snap, others⟩, frame⟩
  · exact congrArg Host.Outcome.next (if_neg fun healed => not (cleanRunReaches_iff.1 healed))
  · simp [MeterChannel.judge, MeterChannel.degrade, healthy]
  · by_cases third : 2 ≤ ch.qerrRun <;> simp [MeterChannel.judge, MeterChannel.degrade, healthy, third]
  · refine ⟨_, exec_windowClose runs order, ?_⟩
    have kept := takeParts_meterKept (closeOrder order) (closeMeters (elapse left s))
    generalize (closeOrder order).foldl takePart (closeMeters (elapse left s)) = t at kept
    have channel : t.channel c = (s.channel c).close := by
      rw [State.channel, kept.meter]
      exact closeMeters_channel ..
    have snap : t.snapChannel c = (s.channel c).capture s.params.windowLength := by
      rw [State.snapChannel, kept.meter]
      exact closeMeters_snapChannel ..
    beta_reduce
    rw [channel, snap]
    refine ⟨close_judged _, rfl, (kept.alarms _).trans ?_⟩
    exact closeMeters_alarm (elapse left s) c
end

end Sys2Proof.Machine
end

section
/-! SUPPORT. The parts of a window close: the Balance Monitor, the locate, the trims, the checks of the Dock Controllers and
the take-up check, each from any state. -/

namespace Sys2Proof.Machine

open Sys2Proof Sys2Proof.Safety

section
variable {s t u v w : State} {b d : BranchNo} {c : BranchCause}

/-! ## A loop over the branches that reads what the loop keeps -/

/-- What the turn of a branch brings while it is fresh, as it is until its turn, stands after the loop when the later turns
leave it. -/
theorem forBranches_turn {Q fresh : BranchNo → State → Prop} {f : BranchNo → State → State} (keeps : State → Prop)
    (start : keeps s) (kept : ∀ b u, keeps u → keeps (f b u)) (starts : ∀ b, fresh b s)
    (waits : ∀ b u {d}, keeps u → b ≠ d → fresh d u → fresh d (f b u)) (turn : ∀ b u, keeps u → fresh b u → Q b (f b u))
    (stays : ∀ b u {d}, keeps u → b ≠ d → Q d u → Q d (f b u)) (b : BranchNo) : Q b (forBranches f s) := by
  have loop : ∀ (bs : List BranchNo) (u : State), keeps u → (b ∈ bs → bs.Nodup ∧ fresh b u) → (b ∉ bs → Q b u) →
      Q b (bs.foldl (fun u b => f b u) u) := by
    intro bs
    induction bs with
    | nil => exact fun u _ _ done => done nofun
    | cons i bs ih =>
      intro u keep coming done
      refine ih _ (kept i u keep) (fun later => ?_) fun past => ?_
      · obtain ⟨nodup, waiting⟩ := coming (List.mem_cons_of_mem i later)
        obtain ⟨once, nodup⟩ := List.nodup_cons.1 nodup
        exact ⟨nodup, waits i u keep (fun here => once (here ▸ later)) waiting⟩
      · by_cases here : i = b
        · subst here
          exact turn i u keep (coming List.mem_cons_self).2
        · exact stays i u keep here (done fun there => past ((List.mem_cons.1 there).resolve_left (Ne.symm here)))
  exact loop allBranches s start (fun _ => ⟨allBranches_nodup, starts b⟩) fun none => absurd (mem_allBranches b) none

/-! ## Causes handed for a bay that participates (R25, R124) -/

/-- The bay is shut, in ISOLATING, with no grant and its valve commanded to 0. -/
def Branch.Shut (br : Branch) : Prop := br.dock = .isolating ∧ br.grant = 0 ∧ br.commanded = 0

theorem Branch.respond_shut (close : Option Nat) {br : Branch} (h : br.dock.participating = true ∨ br.Shut) :
    (br.respond close).Shut ∧ (br.respond close).account = br.account := by
  rcases h with participates | ⟨dock, grant, commanded⟩
  · have shut := Branch.respond_of_participating (close := close) participates
    refine ⟨⟨?_, shut.1, shut.2.1⟩, Branch.respond_account_of_participating participates⟩
    rw [Branch.respond_dock_eq]
    cases dock : br.dock <;> first | rfl | (rw [dock] at participates; cases participates)
  · have same : br.respond close = br := by
      unfold Branch.respond
      rw [dock]
    rw [same]
    exact ⟨⟨dock, grant, commanded⟩, rfl⟩

theorem occupied_of_bay (bay : (s.br b).dock.participating = true ∨ (s.br b).Shut) : (s.br b).dock ≠ .vacant := by
  rintro vacant
  rcases bay with participates | ⟨isolating, -⟩
  · rw [vacant] at participates
    cases participates
  · rw [vacant] at isolating
    cases isolating

/-- What causes for an occupied bay leave of the other bays and of the other units. -/
structure WithinBay (b : BranchNo) (s t : State) : Prop where
  occupied : (t.br b).dock ≠ .vacant
  others : OthersKept s t b
  rail : t.rail = s.rail
  only : CauseOnly s t
  grows : AttnGrows s t

theorem WithinBay.refl (occupied : (s.br b).dock ≠ .vacant) : WithinBay b s s :=
  ⟨occupied, fun _ _ => rfl, rfl, .refl s, .refl s⟩

theorem WithinBay.trans (h : WithinBay b s t) (k : WithinBay b t u) : WithinBay b s u :=
  ⟨k.occupied, fun d other => (k.others d other).trans (h.others d other), k.rail.trans h.rail, h.only.trans k.only,
    h.grows.trans k.grows⟩

theorem addBranchCause_within (occupied : (s.br b).dock ≠ .vacant) (c : BranchCause) (x : Bool) :
    WithinBay b s (addBranchCause b c x s) := by
  by_cases held : c ∈ (s.br b).causes
  · rw [addBranchCause_of_mem held]
    exact .refl occupied
  · have effect := addBranchCause_isolates held x
    refine ⟨?_, effect.others occupied, effect.rail, effect.only, effect.grows⟩
    rw [effect.dock]
    cases (s.br b).dock <;> decide

theorem foldl_addBranchCause_within (cs : List BranchCause) (occupied : (s.br b).dock ≠ .vacant) :
    WithinBay b s (cs.foldl (fun y c => addBranchCause b c false y) s) := by
  induction cs generalizing s with
  | nil => exact .refl occupied
  | cons c cs ih =>
    have first := addBranchCause_within occupied c false
    exact first.trans (ih first.occupied)

/-- What a cause new to the set of such a bay, or several one after the other, do to it. -/
structure HandsCauses (b : BranchNo) (cs : List BranchCause) (s t : State) : Prop where
  causes : (t.br b).causes = (s.br b).causes ++ cs
  account : (t.br b).account = (s.br b).account
  shut : cs ≠ [] → (t.br b).Shut
  told : cs ≠ [] → ToldOwner s t b .isolated
  none : cs = [] → t = s

theorem addBranchCause_hands (bay : (s.br b).dock.participating = true ∨ (s.br b).Shut) (new : c ∉ (s.br b).causes) :
    HandsCauses b [c] s (addBranchCause b c false s) := by
  have occupied := occupied_of_bay bay
  have effect := addBranchCause_isolates new false
  have own := addCauseCore_br_same b c false s new
  have shut := Branch.respond_shut (closeTimer s) (br := { s.br b with causes := (s.br b).causes ++ [c] }) bay
  refine ⟨effect.causes occupied, ?_, fun _ => ?_, fun _ => effect.told, nofun⟩
  all_goals rw [addBranchCause_of_occupied occupied, own]
  · exact shut.2
  · exact shut.1

theorem foldl_addBranchCause_hands (cs : List BranchCause) (bay : (s.br b).dock.participating = true ∨ (s.br b).Shut)
    (nodup : cs.Nodup) (new : ∀ c ∈ cs, c ∉ (s.br b).causes) :
    HandsCauses b cs s (cs.foldl (fun y c => addBranchCause b c false y) s) := by
  induction cs generalizing s with
  | nil => exact ⟨(List.append_nil _).symm, rfl, fun h => absurd rfl h, fun h => absurd rfl h, fun _ => rfl⟩
  | cons c cs ih =>
    obtain ⟨fresh, nodup⟩ := List.nodup_cons.1 nodup
    have first := addBranchCause_hands bay (new c List.mem_cons_self)
    have rest := ih (s := addBranchCause b c false s) (.inr (first.shut nofun)) nodup fun d later => by
      rw [first.causes, List.mem_append, List.mem_singleton]
      rintro (held | same)
      · exact new d (List.mem_cons_of_mem c later) held
      · exact fresh (same ▸ later)
    have within := foldl_addBranchCause_within cs (occupied_of_bay (.inr (first.shut nofun)))
    exact
      { causes := by rw [List.foldl_cons, rest.causes, first.causes, List.append_assoc, List.singleton_append]
        account := rest.account.trans first.account
        shut := fun _ => by
          by_cases last : cs = []
          · subst last
            exact first.shut nofun
          · exact rest.shut last
        told := fun _ o owner => within.grows.pending (first.told nofun o owner)
        none := nofun }

/-! ## The branches in the Balance Monitor's part (R92 to R101) -/

theorem handedBy_nodup (u : State) (b : BranchNo) (x : Account) : (handedBy u b x).Nodup ∧ BranchCause.rail ∉ handedBy u b x := by
  unfold handedBy
  split <;> split <;> split <;> decide

/-- R92: the branch is one that the Balance Monitor balances. -/
def Balanced (u : State) (b : BranchNo) : Prop := ((u.br b).dock = .admitted ∨ (u.br b).dock = .adopting) ∧ MetersGood u b

/-- The branch `b` once the Balance Monitor has taken it, from `u`. -/
structure BranchJudged (u v : State) (b : BranchNo) : Prop where
  plain : ¬Balanced u b → v.br b = u.br b
  account : Balanced u b → (u.br b).causes = [] → (v.br b).account = newAccount u b
  causes : Balanced u b → (u.br b).causes = [] → (v.br b).causes = handedBy u b (newAccount u b)
  shut : Balanced u b → (u.br b).causes = [] → handedBy u b (newAccount u b) ≠ [] →
    (v.br b).Shut ∧ ToldOwner u v b .isolated
  none : Balanced u b → (u.br b).causes = [] → handedBy u b (newAccount u b) = [] →
    v.br b = { u.br b with account := newAccount u b }

theorem BranchJudged.congr (same : w.br b = u.br b) (meter : w.meter = u.meter) (params : w.params = u.params)
    (drip : w.drip = u.drip) (h : BranchJudged w v b) : BranchJudged u v b := by
  have snap : ∀ c, w.snapChannel c = u.snapChannel c := fun c => by rw [State.snapChannel, meter]; rfl
  have strip : w.strip (trayStrip b) = u.strip (trayStrip b) := by rw [State.strip, drip]; rfl
  have good : MetersGood w b ↔ MetersGood u b := by rw [MetersGood, snap, snap]
  have balanced : Balanced w b ↔ Balanced u b := by rw [Balanced, Balanced, same, good]
  have account : newAccount w b = newAccount u b := by
    simp only [newAccount, excess, imbalance, supplyVolume, returnVolume, snap, same, params]
  have handed : ∀ x, handedBy w b x = handedBy u b x := fun x => by
    unfold handedBy lossOf
    rw [snap, snap, params, strip]
  obtain ⟨h1, h2, h3, h4, h5⟩ := h
  simp only [balanced, same, account, handed, ToldOwner] at h1 h2 h3 h4 h5
  exact ⟨h1, h2, h3, h4, h5⟩

/-- A state in which the Balance Monitor would judge and tell as in `u` what it has not yet taken. -/
structure LooksAs (u w : State) : Prop where
  only : CauseOnly u w
  rail : w.rail = u.rail
  grows : AttnGrows u w
  vacant : ∀ b, (w.br b).dock = .vacant ↔ (u.br b).dock = .vacant

theorem CauseOnly.meter (h : CauseOnly s t) : t.meter = s.meter := by rw [h]

theorem CauseOnly.params (h : CauseOnly s t) : t.params = s.params := by rw [h]

theorem CauseOnly.drip (h : CauseOnly s t) : t.drip = s.drip := by rw [h]

/-- R97 to R101: one branch of the Balance Monitor's part. -/
theorem balanceBranch_judges (b : BranchNo) (w : State) :
    BranchJudged w (balanceBranch b w) b ∧ LooksAs w (balanceBranch b w) ∧ OthersKept w (balanceBranch b w) b := by
  by_cases balanced : Balanced w b
  · have run := balanceBranch_of_balanced balanced
    have participates : (w.br b).dock.participating = true := by
      rcases balanced.1 with dock | dock <;> rw [dock] <;> rfl
    generalize judged : (w.updBranch b fun br => { br with account := newAccount w b }) = v at run
    have own : v.br b = { w.br b with account := newAccount w b } := by rw [← judged, State.updBranch_br_same]
    have step : WithinBay b w v := by
      rw [← judged]
      refine ⟨?_, fun d other => State.updBranch_br_ne _ _ _ other.symm, rfl, rfl, .of_attn rfl⟩
      rw [State.updBranch_br_same]
      exact occupied_of_bay (.inl participates)
    have within := step.trans (foldl_addBranchCause_within (handedBy w b (newAccount w b)) step.occupied)
    obtain ⟨nodup, -⟩ := handedBy_nodup w b (newAccount w b)
    have hands := fun empty : (w.br b).causes = [] => foldl_addBranchCause_hands (handedBy w b (newAccount w b))
      (s := v) (b := b) (.inl (by rwa [own])) nodup (by simp [own, empty])
    rw [run]
    refine ⟨⟨(absurd balanced ·), fun _ empty => ?_, fun _ empty => ?_, fun _ empty some => ⟨(hands empty).shut some, ?_⟩,
      fun _ empty none => ?_⟩, ⟨within.only, within.rail, within.grows, fun d => ?_⟩, within.others⟩
    · rw [(hands empty).account, own]
    · rw [(hands empty).causes, own, empty, List.nil_append]
    · have told := (hands empty).told some
      rwa [ToldOwner, own] at told
    · rw [(hands empty).none none, own]
    · by_cases here : d = b
      · subst here
        exact iff_of_false within.occupied (occupied_of_bay (.inl participates))
      · rw [within.others d here]
  · rw [balanceBranch_of_not balanced]
    exact ⟨⟨fun _ => rfl, (absurd · balanced), (absurd · balanced), (absurd · balanced), (absurd · balanced)⟩,
      ⟨.refl w, rfl, .refl w, fun _ => .rfl⟩, fun _ _ => rfl⟩

theorem LooksAs.refl (u : State) : LooksAs u u := ⟨.refl u, rfl, .refl u, fun _ => .rfl⟩

theorem LooksAs.trans (h : LooksAs u v) (k : LooksAs v w) : LooksAs u w :=
  ⟨h.only.trans k.only, k.rail.trans h.rail, h.grows.trans k.grows, fun b => (k.vacant b).trans (h.vacant b)⟩

theorem BranchJudged.later (h : BranchJudged u v b) (same : w.br b = v.br b) (grows : AttnGrows v w) : BranchJudged u w b := by
  obtain ⟨plain, account, causes, shut, none⟩ := h
  rw [← same] at plain account causes none
  refine ⟨plain, account, causes, fun balanced empty some => ?_, none⟩
  obtain ⟨shut, told⟩ := shut balanced empty some
  rw [← same] at shut
  exact ⟨shut, fun o owner => grows.pending (told o owner)⟩

/-- R92 to R101: the branches of the Balance Monitor's part. -/
theorem balanceBranches_judges (u : State) (b : BranchNo) :
    BranchJudged u (forBranches balanceBranch u) b ∧ LooksAs u (forBranches balanceBranch u) := by
  have turns := fun b w => balanceBranch_judges b w
  have looks : LooksAs u (forBranches balanceBranch u) :=
    forBranches_inv (LooksAs u) balanceBranch (fun b w looks => looks.trans (turns b w).2.1) u (.refl u)
  refine ⟨forBranches_turn (Q := fun b v => BranchJudged u v b) (fresh := fun b w => w.br b = u.br b) (LooksAs u) (.refl u)
    (fun b w looks => looks.trans (turns b w).2.1) (fun _ => rfl)
    (fun b w d _ apart same => ((turns b w).2.2 d apart.symm).trans same) (fun b w looks same => ?_) (fun b w d _ apart judged => ?_) b, looks⟩
  · exact (turns b w).1.congr same looks.only.meter looks.only.params looks.only.drip
  · exact judged.later ((turns b w).2.2 d apart.symm) (turns b w).2.1.grows

/-! ## The rail in the Balance Monitor's part (R104 to R106) -/

/-- RAIL reaches a bay that participates or is shut, and leaves it shut. -/
theorem addRailToOccupied_hands (bay : (s.br b).dock.participating = true ∨ (s.br b).Shut)
    (new : BranchCause.rail ∉ (s.br b).causes) : ((addRailToOccupied s).br b).Shut ∧
      ((addRailToOccupied s).br b).causes = (s.br b).causes ++ [.rail] ∧
      ((addRailToOccupied s).br b).account = (s.br b).account := by
  have apart : ∀ (b : BranchNo) (w : State) {d}, b ≠ d →
      (if (w.br b).dock = .vacant then w else addCauseCore b .rail false w).br d = w.br d := fun b w d apart => by
    split
    · rfl
    · exact addCauseCore_br_ne b .rail false w apart
  refine forBranches_turn (Q := fun b v => ((s.br b).dock.participating = true ∨ (s.br b).Shut) →
      BranchCause.rail ∉ (s.br b).causes → (v.br b).Shut ∧ (v.br b).causes = (s.br b).causes ++ [.rail] ∧
      (v.br b).account = (s.br b).account) (fresh := fun b w => w.br b = s.br b) (fun _ => True) trivial (fun _ _ _ => trivial)
    (fun _ => rfl) (fun b w d _ far same => (apart b w far).trans same) (fun b w _ same bay new => ?_) (fun b w d _ far done => ?_) b bay new
  · have hands := addBranchCause_hands (s := w) (b := b) (c := .rail) (by rwa [same]) (by rwa [same])
    have occupied := occupied_of_bay bay
    rw [← same] at occupied
    rw [addBranchCause_of_occupied occupied] at hands
    rw [if_neg occupied]
    refine ⟨hands.shut nofun, ?_, ?_⟩
    · rw [hands.causes, same]
    · rw [hands.account, same]
  · rw [apart b w far]
    exact done

/-- The rail's record with the account of this window. -/
def railJudged (w : State) : State := { w with rail := { w.rail with account := newRailAccount w } }

/-- R106: the rail adds RAIL_BALANCE, or takes its account at the most. -/
theorem balanceRail_cases (w : State) :
    balanceRail w = w ∧ (w.rail.state ≠ .opened ∨ ¬RailMetersGood w) ∨
    (w.rail.state = .opened ∧ RailMetersGood w ∧ balanceRail w = railJudged w ∧
      ((newRailAccount w).state ≠ .confirmed ∨ RailCause.railBalance ∈ w.rail.causes)) ∨
    (w.rail.state = .opened ∧ RailMetersGood w ∧ balanceRail w = addRailCause .railBalance (railJudged w) ∧
      (newRailAccount w).state = .confirmed ∧ RailCause.railBalance ∉ w.rail.causes) := by
  by_cases open_ : w.rail.state = .opened ∧ RailMetersGood w
  · obtain ⟨opened, good⟩ := open_
    refine .inr ?_
    have run := balanceRail_of_opened opened good
    by_cases confirmed : (newRailAccount w).state = .confirmed
    · rw [if_pos confirmed] at run
      by_cases held : RailCause.railBalance ∈ w.rail.causes
      · exact .inl ⟨opened, good, run.trans (addRailCause_of_mem (s := railJudged w) held), .inr held⟩
      · exact .inr ⟨opened, good, run, confirmed, held⟩
    · rw [if_neg confirmed] at run
      exact .inl ⟨opened, good, run, .inl confirmed⟩
  · have shut := not_and_or.1 open_
    exact .inl ⟨balanceRail_of_not shut, shut⟩

/-- What RAIL_BALANCE, new to the set of an OPEN rail, does to the bays. -/
theorem addRailCause_bay (opened : s.rail.state = .opened) (new : RailCause.railBalance ∉ s.rail.causes)
    (bay : (s.br b).dock.participating = true ∨ (s.br b).Shut) (plain : BranchCause.rail ∉ (s.br b).causes) :
    ((addRailCause .railBalance s).br b).Shut ∧
      ((addRailCause .railBalance s).br b).causes = (s.br b).causes ++ [.rail] ∧
      ((addRailCause .railBalance s).br b).account = (s.br b).account := by
  have same : (addRailCause .railBalance s).br b = (addRailToOccupied (railTakes .railBalance s)).br b := by
    rw [addRailCause_eq new, State.br, if_pos (show RailCause.railBalance.leak = true from rfl), ringAdd_rail_branches, railAnswered, if_pos opened, driveTripOut_branches]
    rfl
  have hands := addRailToOccupied_hands (s := railTakes .railBalance s) (b := b) (by rwa [railTakes_br]) (by rwa [railTakes_br])
  rw [railTakes_br] at hands
  rwa [same]

/-! ## The losses (R103, R148) -/

theorem addLoss_frame (g : Target) (x : Int) (s : State) :
    addLoss g x s = { s with ring := { s.ring with slots := (addLoss g x s).ring.slots } } := by
  unfold addLoss
  split <;> rfl

theorem handLosses_frame (s : State) :
    handLosses s = { s with ring := { s.ring with slots := (handLosses s).ring.slots } } := by
  have loop : ∀ u, u = { s with ring := { s.ring with slots := u.ring.slots } } → ∀ g x, addLoss g x u =
      { s with ring := { s.ring with slots := (addLoss g x u).ring.slots } } := fun u h g x => by
    rw [addLoss_frame, h]
  have each := forBranches_inv (fun u => u = { s with ring := { s.ring with slots := u.ring.slots } })
    (fun b s => if supplyHealthy s b && returnHealthy s b then addLoss (.branch b) (imbalance s b) s else s)
    (fun b u h => by
      dsimp only
      split
      · exact loop u h ..
      · exact h) s rfl
  unfold handLosses
  dsimp only
  split
  · exact loop _ each ..
  · exact each

/-! ## The Balance Monitor's part as a whole -/

theorem closeBalance_frame (u : State) : ∃ slots, closeBalance u =
    (balanceRail (forBranches balanceBranch u)).updRing fun g => { g with slots := slots } :=
  ⟨_, handLosses_frame _⟩

theorem branchBalanced_updRing (f : Ring → Ring) (h : BranchBalanced u v b) : BranchBalanced u (v.updRing f) b := h

theorem railBalanced_updRing (f : Ring → Ring) (h : RailBalanced u v) : RailBalanced u (v.updRing f) := h

theorem LooksAs.snap (h : LooksAs u w) (c : ChannelNo) : w.snapChannel c = u.snapChannel c := by
  rw [State.snapChannel, h.only.meter]
  rfl

theorem LooksAs.railMetersGood (h : LooksAs u w) : RailMetersGood w ↔ RailMetersGood u := by
  simp only [RailMetersGood, MetersGood, h.snap, ne_eq, h.vacant]

theorem LooksAs.newRailAccount (h : LooksAs u w) : newRailAccount w = newRailAccount u := by
  have losses : imbalance w = imbalance u := funext fun b => by simp only [imbalance, supplyVolume, returnVolume, h.snap]
  simp only [Machine.newRailAccount, railExcess, railImbalance, inletVolume, outletVolume, h.snap, h.rail, h.only.params, losses]

/-- R92 to R101: a branch after the Balance Monitor's part. -/
theorem closeBalance_branch (u : State) (b : BranchNo) : BranchBalanced u (takePart u .balance) b := by
  obtain ⟨judged, looks⟩ := balanceBranches_judges u b
  obtain ⟨slots, part⟩ := closeBalance_frame u
  rw [takePart, part]
  refine branchBalanced_updRing _ ?_
  generalize forBranches balanceBranch u = w at judged looks ⊢
  have judgedAccount := newAccount_judged u b
  obtain ⟨plain, account, causes, shut, none⟩ := judged
  have untouched : ∀ v : State, v.br b = w.br b → v.attn = w.attn → BranchBalanced u v b := fun v own attn => by
    refine ⟨fun docked good empty => ?_, fun not _ => own.trans (plain not)⟩
    have balanced : Balanced u b := ⟨docked, good⟩
    rw [own, account balanced empty, causes balanced empty]
    refine ⟨judgedAccount, .inl rfl, fun some => ?_, fun clear => ?_⟩
    · obtain ⟨⟨isolating, grant, commanded⟩, told⟩ := shut balanced empty some
      refine ⟨isolating, grant, commanded, fun o owner => ?_⟩
      rw [State.attnOf, attn]
      exact told o owner
    · exact none balanced empty clear
  rcases balanceRail_cases w with ⟨same, -⟩ | ⟨-, -, same, -⟩ | ⟨opened, good, adds, confirmed, new⟩
  · rw [same]
    exact untouched _ rfl rfl
  · rw [same]
    exact untouched _ rfl rfl
  · rw [adds]
    have answers := addRailCause_answers (s := railJudged w) new
    generalize added : addRailCause .railBalance (railJudged w) = v at answers
    refine ⟨fun docked good empty => ?_, fun not causes' => ?_⟩
    · have balanced : Balanced u b := ⟨docked, good⟩
      have bay : (w.br b).dock.participating = true ∨ (w.br b).Shut := by
        by_cases some : handedBy u b (newAccount u b) = []
        · rw [none balanced empty some]
          refine .inl ?_
          rcases docked with dock | dock <;> simp only [dock] <;> rfl
        · exact .inr (shut balanced empty some).1
      have plain : BranchCause.rail ∉ (w.br b).causes := by
        rw [causes balanced empty]
        exact (handedBy_nodup ..).2
      have reached := addRailCause_bay (s := railJudged w) opened new bay plain
      rw [added] at reached
      obtain ⟨⟨isolating, grant, commanded⟩, held, kept⟩ := reached
      have kept' : (v.br b).account = newAccount u b := kept.trans (account balanced empty)
      have held' : (v.br b).causes = handedBy u b (newAccount u b) ++ [.rail] := by rw [held]; exact congrArg (· ++ _) (causes balanced empty)
      have closing : v.rail.state ≠ .opened := by
        rw [answers.state]
        simp only [railJudged, opened]
        decide
      refine ⟨?_, .inr ⟨?_, closing⟩, fun some => ⟨isolating, grant, commanded, fun o owner => ?_⟩, fun clear => ?_⟩
      · exact kept' ▸ judgedAccount
      · exact kept' ▸ held'
      · rw [show (v.br b).account = newAccount u b from kept'] at some
        exact answers.grows.pending ((shut balanced empty some).2 o owner)
      · exact absurd (held'.symm.trans clear) (by simp)
    · have more := answers.causes.symm.trans causes'
      rw [railJudged, looks.rail] at more
      simp at more

/-- R104 to R106: the rail after the Balance Monitor's part. -/
theorem closeBalance_rail (u : State) : RailBalanced u (takePart u .balance) := by
  obtain ⟨-, looks⟩ := balanceBranches_judges u 0
  obtain ⟨slots, part⟩ := closeBalance_frame u
  rw [takePart, part]
  refine railBalanced_updRing _ ?_
  generalize forBranches balanceBranch u = w at looks ⊢
  have judged := newRailAccount_judged u
  have account := looks.newRailAccount
  have good := looks.railMetersGood
  have rail := looks.rail
  rcases balanceRail_cases w with ⟨same, shut⟩ | ⟨opened, metersGood, same, held⟩ | ⟨opened, metersGood, adds, confirmed, new⟩
  · rw [same]
    rw [good, rail] at shut
    exact ⟨fun opened _ good => absurd shut (not_or.2 ⟨not_not.2 opened, not_not.2 good⟩), fun _ => rail⟩
  · rw [same]
    rw [account, rail] at held
    rw [rail] at opened
    have open_ := not_or.2 ⟨not_not.2 opened, not_not.2 (good.1 metersGood)⟩
    refine ⟨fun opened empty _ => ?_, fun shut => absurd shut open_⟩
    have alarm : (newRailAccount u).state ≠ .confirmed := held.resolve_right (by simp [empty])
    rw [show (railJudged w).rail = { u.rail with account := newRailAccount u } by rw [railJudged, account, rail]]
    exact ⟨judged, fun confirmed => absurd confirmed alarm, fun _ => rfl⟩
  · rw [adds]
    have answers := addRailCause_answers (s := railJudged w) new
    rw [rail] at new opened
    have open_ := not_or.2 ⟨not_not.2 opened, not_not.2 (good.1 metersGood)⟩
    refine ⟨fun opened empty _ => ?_, fun shut => absurd shut open_⟩
    have kept : (addRailCause .railBalance (railJudged w)).rail.account = newRailAccount u := answers.account.trans account
    have causes : (addRailCause .railBalance (railJudged w)).rail.causes = [.railBalance] := by
      rw [answers.causes, railJudged, rail, empty]
      rfl
    have opened' : (railJudged w).rail.state = .opened := by rw [railJudged, rail, opened]
    rw [kept]
    refine ⟨judged, fun _ => ⟨causes, ?_, ?_, ?_⟩, fun alarm => absurd (account ▸ confirmed) alarm⟩
    · rw [answers.state, opened']
      rfl
    · rw [answers.iso, causes]
      rfl
    · rw [(answers.closing (.inl opened')).1]

end

end Sys2Proof.Machine
end

section
/-! SUPPORT. The losses that the Balance Monitor's part of a window close adds to the OPEN records (R103, R148). -/

namespace Sys2Proof.Machine

open Sys2Proof Sys2Proof.Safety

section
variable {s t u v w : State} {b : BranchNo} {g : Target} {k : SlotNo}

/-! ## The records while causes come to the ring -/

/-- An OPEN record is one that was OPEN, with its loss, or a new one in a FREE slot, with none. -/
structure LossesKept (s t : State) : Prop where
  opened : ∀ k, (t.slot k).state = .opened →
    (s.slot k).state = .opened ∧ (t.slot k).loss = (s.slot k).loss ∨ (s.slot k).state = .free ∧ (t.slot k).loss = 0
  used : ∀ k, (s.slot k).state ≠ .free → (t.slot k).state ≠ .free

theorem LossesKept.of_slots (same : ∀ k, (t.slot k).state = (s.slot k).state ∧ (t.slot k).loss = (s.slot k).loss) :
    LossesKept s t :=
  ⟨fun k open_ => .inl ⟨(same k).1 ▸ open_, (same k).2⟩, fun k used => (same k).1 ▸ used⟩

theorem LossesKept.of_ring (same : t.ring = s.ring) : LossesKept s t :=
  .of_slots fun k => by rw [State.slot, same]; exact ⟨rfl, rfl⟩

theorem LossesKept.refl (s : State) : LossesKept s s := .of_ring rfl

theorem LossesKept.trans (h : LossesKept s t) (j : LossesKept t u) : LossesKept s u := by
  refine ⟨fun k open_ => ?_, fun k used => j.used k (h.used k used)⟩
  rcases j.opened k open_ with ⟨before, loss⟩ | ⟨free, none⟩
  · rw [loss]
    exact h.opened k before
  · by_cases was : (s.slot k).state = .free
    · exact .inr ⟨was, none⟩
    · exact absurd free (h.used k was)

theorem ringAdd_lossesKept (g : Target) (c : Cause) (x : Bool) (s : State) : LossesKept s (ringAdd g c x s) := by
  have lost : ∀ y, LossesKept s (loseIncident g y s) := fun y => .of_slots fun k => by
    rw [loseIncident_slot]
    exact ⟨rfl, rfl⟩
  cases ref : incidentOf s g with
  | some j =>
    by_cases open_ : (s.slot j).state = .opened
    · rw [ringAdd_of_open ⟨ref, open_⟩]
      refine .of_slots fun k => ?_
      by_cases here : j = k
      · subst here
        rw [State.updSlot_slot_same]
        exact ⟨rfl, rfl⟩
      · rw [State.updSlot_slot_ne _ _ _ here]
        exact ⟨rfl, rfl⟩
    · rw [ringAdd_of_closed ref open_]
      exact lost _
  | none =>
    by_cases takes : s.ring.suspended = false ∧ (s.slot s.ring.fill).state = .free
    · rw [ringAdd_of_free ref takes.1 takes.2]
      refine ⟨fun k open_ => ?_, fun k used => ?_⟩
      · rw [openRecord_slot] at open_ ⊢
        by_cases here : s.ring.fill = k
        · subst here
          rw [if_pos rfl]
          exact .inr ⟨takes.2, rfl⟩
        · rw [if_neg here] at open_ ⊢
          exact .inl ⟨open_, rfl⟩
      · rw [openRecord_slot]
        by_cases here : s.ring.fill = k
        · exact absurd (here ▸ takes.2) used
        · rwa [if_neg here]
    · rw [ringAdd_of_full ref (by simpa [imp_iff_not_or] using takes)]
      exact lost _

theorem addCauseCore_lossesKept (b : BranchNo) (c : BranchCause) (x : Bool) (s : State) :
    LossesKept s (addCauseCore b c x s) := by
  by_cases held : c ∈ (s.br b).causes
  · rw [addCauseCore_of_mem b c x s held]
    exact .refl s
  · have taken : LossesKept s (causeTaken b c s) := .of_ring (causeTaken_record b c s .rail).ring
    rw [addCauseCore_eq held]
    split
    · exact taken.trans (ringAdd_lossesKept ..)
    · exact taken

theorem foldl_addBranchCause_lossesKept (cs : List BranchCause) (occupied : (s.br b).dock ≠ .vacant) :
    LossesKept s (cs.foldl (fun y c => addBranchCause b c false y) s) := by
  induction cs generalizing s with
  | nil => exact .refl s
  | cons c cs ih =>
    refine .trans ?_ (ih (addBranchCause_within occupied c false).occupied)
    beta_reduce
    rw [addBranchCause_of_occupied occupied]
    exact addCauseCore_lossesKept ..

theorem balanceBranch_lossesKept (b : BranchNo) (s : State) : LossesKept s (balanceBranch b s) := by
  by_cases balanced : Balanced s b
  · rw [balanceBranch_of_balanced balanced]
    refine .trans (t := s.updBranch b fun br => { br with account := newAccount s b }) (.of_ring rfl)
      (foldl_addBranchCause_lossesKept _ ?_)
    rw [State.updBranch_br_same]
    rcases balanced.1 with dock | dock <;> rw [dock] <;> decide
  · rw [balanceBranch_of_not balanced]
    exact .refl s

theorem addRailCause_lossesKept (c : RailCause) (s : State) : LossesKept s (addRailCause c s) := by
  by_cases held : c ∈ s.rail.causes
  · rw [addRailCause_of_mem held]
    exact .refl s
  · have answered : LossesKept s (railAnswered c s) := .of_ring (railAnswered_record c s .rail).ring
    rw [addRailCause_eq held]
    split
    · exact answered.trans (ringAdd_lossesKept ..)
    · exact answered

theorem balanceRail_lossesKept (s : State) : LossesKept s (balanceRail s) := by
  have judged : LossesKept s (railJudged s) := .of_ring rfl
  rcases balanceRail_cases s with ⟨same, -⟩ | ⟨-, -, same, -⟩ | ⟨-, -, adds, -⟩
  · rw [same]
    exact .refl s
  · rw [same]
    exact judged
  · rw [adds]
    exact judged.trans (addRailCause_lossesKept ..)

theorem balanceRail_kept (s : State) : (balanceRail s).meter = s.meter ∧
    ∀ b, ((balanceRail s).br b).dock = .vacant ↔ (s.br b).dock = .vacant := by
  rcases balanceRail_cases s with ⟨same, -⟩ | ⟨-, -, same, -⟩ | ⟨-, -, adds, -⟩
  · rw [same]
    exact ⟨rfl, fun _ => .rfl⟩
  · rw [same]
    exact ⟨rfl, fun _ => .rfl⟩
  · rw [adds]
    exact ⟨addRailCause_meter .., fun b => addRailCause_vacant_iff ..⟩

/-! ## The losses handed -/

theorem Runs.ringLaw {keep : Bool} (run : Runs keep s t) (h : RingLaw s) : RingLaw t := by
  induction run with
  | refl => exact h
  | tail _ act ih => exact act.ringLaw ih

/-- Two targets with the ring in order have no record in common. -/
theorem RingLaw.target_eq {d : Target} (law : RingLaw s) (one : HasOpenRecord s g k) (other : HasOpenRecord s d k) : g = d :=
  Option.some.inj ((law.2.1 g k one.1).2.symm.trans (law.2.1 d k other.1).2)

/-- From `s` to `t` only the losses of records have grown. -/
structure LossesOnly (s t : State) : Prop where
  frame : t = { s with ring := t.ring }
  records : ∀ g k, HasOpenRecord t g k ↔ HasOpenRecord s g k

theorem LossesOnly.refl (s : State) : LossesOnly s s := ⟨rfl, fun _ _ => .rfl⟩

theorem LossesOnly.trans (h : LossesOnly s t) (j : LossesOnly t u) : LossesOnly s u :=
  ⟨by rw [j.frame, h.frame], fun g k => (j.records g k).trans (h.records g k)⟩

theorem addLoss_only (g : Target) (x : Int) (s : State) : LossesOnly s (addLoss g x s) := by
  unfold addLoss
  split
  · exact .refl s
  case h_2 j has =>
    refine ⟨rfl, fun d k => ?_⟩
    have refs : incidentOf (s.updSlot j fun r => { r with loss := min 16777215 (r.loss + x.toNat) }) d = incidentOf s d := by
      cases d <;> rfl
    rw [HasOpenRecord, HasOpenRecord, refs]
    by_cases here : j = k
    · subst here
      rw [State.updSlot_slot_same]
    · rw [State.updSlot_slot_ne _ _ _ here]

/-- R148: the loss of the target's own record. -/
theorem addLoss_own (has : HasOpenRecord s g k) (x : Int) :
    ((addLoss g x s).slot k).loss = min 16777215 ((s.slot k).loss + x.toNat) := by
  rw [addLoss, openSlot_eq_some.2 has]
  simp only [State.updSlot_slot_same]

theorem addLoss_other {d : Target} (law : RingLaw s) (has : HasOpenRecord s d k) (apart : g ≠ d) (x : Int) :
    (addLoss g x s).slot k = s.slot k := by
  unfold addLoss
  split
  · rfl
  case h_2 j found =>
    refine State.updSlot_slot_ne _ _ _ fun here => apart ?_
    exact RingLaw.target_eq law (openSlot_eq_some.1 (here ▸ found)) has

theorem LossesOnly.snap (h : LossesOnly s u) (c : ChannelNo) : u.snapChannel c = s.snapChannel c := by rw [h.frame]; rfl

theorem LossesOnly.br (h : LossesOnly s u) (b : BranchNo) : u.br b = s.br b := by rw [h.frame]; rfl

/-- R103: the loss of one branch is handed. -/
def handLoss (b : BranchNo) (s : State) : State :=
  if supplyHealthy s b && returnHealthy s b then addLoss (.branch b) (imbalance s b) s else s

theorem handLoss_only (b : BranchNo) (s : State) (law : RingLaw s) :
    LossesOnly s (handLoss b s) ∧ RingLaw (handLoss b s) := by
  unfold handLoss
  split
  · exact ⟨addLoss_only .., (addLoss_runs (keep := true) ..).ringLaw law⟩
  · exact ⟨.refl s, law⟩

/-- The loss of a record after an imbalance is handed, where its meters are good. -/
def lossAfter (good : Prop) [Decidable good] (loss : Nat) (x : Int) : Nat :=
  if good then min 16777215 (loss + x.toNat) else loss

theorem handLoss_own (has : HasOpenRecord s (.branch b) k) :
    ((handLoss b s).slot k).loss = lossAfter (MetersGood s b) (s.slot k).loss (lossOf s b) := by
  unfold handLoss lossAfter
  by_cases good : MetersGood s b
  · rw [if_pos ((metersGood_iff s b).2 good), if_pos good]
    exact addLoss_own has _
  · rw [if_neg (mt (metersGood_iff s b).1 good), if_neg good]

theorem handLoss_other (law : RingLaw s) (has : HasOpenRecord s g k) (apart : .branch b ≠ g) :
    (handLoss b s).slot k = s.slot k := by
  unfold handLoss
  split
  · exact addLoss_other law has apart _
  · rfl

theorem handLosses_eq (s : State) : handLosses s =
    if railMetersHealthy (forBranches handLoss s) then addLoss .rail (railImbalance (forBranches handLoss s)) (forBranches handLoss s)
    else forBranches handLoss s := rfl

/-- R103, R148: the losses of the branches' records. -/
theorem handBranchLosses (law : RingLaw s) : LossesOnly s (forBranches handLoss s) ∧ RingLaw (forBranches handLoss s) ∧
    (∀ b k, HasOpenRecord s (.branch b) k →
      ((forBranches handLoss s).slot k).loss = lossAfter (MetersGood s b) (s.slot k).loss (lossOf s b)) ∧
    ∀ k, HasOpenRecord s .rail k → (forBranches handLoss s).slot k = s.slot k := by
  have kept : ∀ b u, LossesOnly s u ∧ RingLaw u → LossesOnly s (handLoss b u) ∧ RingLaw (handLoss b u) := fun b u keep =>
    ⟨keep.1.trans (handLoss_only b u keep.2).1, (handLoss_only b u keep.2).2⟩
  obtain ⟨only, law'⟩ := forBranches_inv (fun u => LossesOnly s u ∧ RingLaw u) handLoss kept s ⟨.refl s, law⟩
  refine ⟨only, law', fun b => ?_, fun k has => ?_⟩
  · refine forBranches_turn (Q := fun b u => ∀ k, HasOpenRecord s (.branch b) k →
        (u.slot k).loss = lossAfter (MetersGood s b) (s.slot k).loss (lossOf s b))
      (fresh := fun b u => ∀ k, HasOpenRecord s (.branch b) k → u.slot k = s.slot k) _ ⟨.refl s, law⟩ kept (fun _ _ _ => rfl)
      (fun b u d keep apart waits k has => ?_) (fun b u keep waits k has => ?_) (fun b u d keep apart done k has => ?_) b
    · exact (handLoss_other keep.2 ((keep.1.records _ k).2 has) fun same => apart (Target.branch.inj same)).trans (waits k has)
    · rw [handLoss_own ((keep.1.records _ k).2 has), waits k has]
      simp only [MetersGood, lossOf, keep.1.snap]
    · rw [handLoss_other keep.2 ((keep.1.records _ k).2 has) fun same => apart (Target.branch.inj same)]
      exact done k has
  · refine (forBranches_inv (fun u => (LossesOnly s u ∧ RingLaw u) ∧ u.slot k = s.slot k) handLoss (fun b u keep => ?_) s
      ⟨⟨.refl s, law⟩, rfl⟩).2
    exact ⟨kept b u keep.1, (handLoss_other keep.1.2 ((keep.1.1.records _ k).2 has) nofun).trans keep.2⟩

/-- R103, R148: the losses of all records. -/
theorem handLosses_losses (law : RingLaw s) : (∀ g k, HasOpenRecord (handLosses s) g k ↔ HasOpenRecord s g k) ∧
    (∀ b k, HasOpenRecord s (.branch b) k →
      ((handLosses s).slot k).loss = lossAfter (MetersGood s b) (s.slot k).loss (lossOf s b)) ∧
    ∀ k, HasOpenRecord s .rail k →
      ((handLosses s).slot k).loss = lossAfter (RailMetersGood s) (s.slot k).loss (railLossOf s) := by
  obtain ⟨only, law', branches, rail⟩ := handBranchLosses law
  rw [handLosses_eq]
  generalize forBranches handLoss s = u at only law' branches rail ⊢
  have good : RailMetersGood u ↔ RailMetersGood s := by simp only [RailMetersGood, MetersGood, only.snap, only.br]
  have loss : railImbalance u = railLossOf s := by
    have losses : imbalance u = lossOf s := funext fun b => by simp only [imbalance, supplyVolume, returnVolume, lossOf, only.snap]
    simp only [railImbalance, railLossOf, inletVolume, outletVolume, losses, only.snap]
  by_cases healthy : RailMetersGood s
  · rw [if_pos ((railMetersHealthy_iff u).2 (good.2 healthy)), loss]
    refine ⟨fun g k => ((addLoss_only ..).records g k).trans (only.records g k), fun b k has => ?_, fun k has => ?_⟩
    · rw [addLoss_other (g := .rail) (d := .branch b) law' ((only.records _ k).2 has) (by simp)]
      exact branches b k has
    · rw [addLoss_own ((only.records _ k).2 has), rail k has, lossAfter, if_pos healthy]
  · rw [if_neg (mt (railMetersHealthy_iff u).1 (mt good.1 healthy))]
    refine ⟨only.records, branches, fun k has => ?_⟩
    rw [rail k has, lossAfter, if_neg healthy]

/-- R103, R148: the losses of the Balance Monitor's part. -/
theorem closeBalance_losses (law : RingLaw u) : LossesAdded u (takePart u .balance) := by
  obtain ⟨-, looks⟩ := balanceBranches_judges u 0
  have kept : LossesKept u (balanceRail (forBranches balanceBranch u)) :=
    (forBranches_inv (LossesKept u) balanceBranch (fun b w kept => kept.trans (balanceBranch_lossesKept b w)) u (.refl u)).trans
      (balanceRail_lossesKept _)
  have law' : RingLaw (balanceRail (forBranches balanceBranch u)) :=
    (Moves.acts ((forBranches_reaches balanceBranch_moves u).trans (balanceRail_moves _))).ringLaw law
  have same : ∀ c, (balanceRail (forBranches balanceBranch u)).snapChannel c = u.snapChannel c := fun c => by
    rw [State.snapChannel, (balanceRail_kept _).1]
    exact looks.snap c
  have vacant : ∀ b, ((balanceRail (forBranches balanceBranch u)).br b).dock = .vacant ↔ (u.br b).dock = .vacant := fun b =>
    ((balanceRail_kept _).2 b).trans (looks.vacant b)
  rw [takePart, closeBalance]
  generalize balanceRail (forBranches balanceBranch u) = w at kept law' same vacant ⊢
  obtain ⟨records, branches, rail⟩ := handLosses_losses law'
  have before : ∀ g k, HasOpenRecord w g k → (w.slot k).loss = if (u.slot k).state = .opened then (u.slot k).loss else 0 :=
    fun g k has => by
      rcases kept.opened k has.2 with ⟨open_, loss⟩ | ⟨free, none⟩
      · rw [if_pos open_, loss]
      · rw [if_neg (by rw [free]; decide), none]
  refine ⟨fun b k has => ?_, fun k has => ?_⟩
  · have has' := (records _ k).1 has
    rw [branches b k has', before _ k has']
    simp only [lossAfter, MetersGood, lossOf, same]
  · have has' := (records _ k).1 has
    rw [rail k has', before _ k has']
    have losses : lossOf w = lossOf u := funext fun b => by simp only [lossOf, same]
    simp only [lossAfter, RailMetersGood, MetersGood, railLossOf, losses, same, ne_eq, vacant]
end

end Sys2Proof.Machine
end

section
/-! PROOF. The locate, the trims and the checks of a window close, and the close as a whole (O50). -/

namespace Sys2Proof.Machine

open Sys2Proof Sys2Proof.Safety

section
variable {s t u v w : State} {b : BranchNo}

/-! ## The locate (R119) -/

/-- R119: LOCATED for a branch that was suspected. -/
def locateBranch (u : State) (b : BranchNo) (w : State) : State :=
  if Suspected u b then addBranchCause b .located false w else w

theorem foldl_located (u w : State) : (allBranches.filter fun b => decide (Suspected u b)).foldl
    (fun y b => addBranchCause b .located false y) w = forBranches (locateBranch u) w := by
  rw [List.foldl_filter, forBranches]
  simp only [decide_eq_true_eq, locateBranch]

/-- The suspected bays are still occupied, and the rail is as it was. -/
structure LocateKept (u w : State) : Prop where
  rail : w.rail = u.rail
  occupied : ∀ b, Suspected u b → (w.br b).dock ≠ .vacant

theorem locateBranch_turn (keep : LocateKept u w) (b : BranchNo) :
    LocateKept u (locateBranch u b w) ∧ ∀ d, b ≠ d → (locateBranch u b w).br d = w.br d := by
  unfold locateBranch
  split
  case isTrue suspected =>
    have within := addBranchCause_within (keep.occupied b suspected) .located false
    refine ⟨⟨within.rail.trans keep.rail, fun d other => ?_⟩, fun d apart => within.others d apart.symm⟩
    by_cases here : d = b
    · subst here
      exact within.occupied
    · rw [within.others d here]
      exact keep.occupied d other
  case isFalse => exact ⟨keep, fun _ _ => rfl⟩

/-- What the locate does to a bay. -/
def LocatedAs (u : State) (b : BranchNo) (v : State) : Prop :=
  (Suspected u b → BranchCause.located ∈ (v.br b).causes ∧ ((u.br b).causes = [] →
    (v.br b).dock = .isolating ∧ (v.br b).causes = [.located] ∧ (v.br b).grant = 0 ∧ (v.br b).commanded = 0)) ∧
  (¬Suspected u b → v.br b = u.br b)

theorem suspected_participating (suspected : Suspected u b) : (u.br b).dock.participating = true := by
  rcases suspected.1 with dock | dock | dock <;> rw [dock] <;> rfl

theorem locateBranch_located (same : w.br b = u.br b) : LocatedAs u b (locateBranch u b w) := by
  unfold LocatedAs locateBranch
  refine ⟨fun suspected => ?_, fun clear => by rw [if_neg clear, same]⟩
  rw [if_pos suspected]
  have bay : (w.br b).dock.participating = true ∨ (w.br b).Shut := .inl (by rw [same]; exact suspected_participating suspected)
  by_cases held : BranchCause.located ∈ (w.br b).causes
  · rw [addBranchCause_of_mem held]
    refine ⟨held, fun empty => ?_⟩
    rw [same, empty] at held
    cases held
  · have hands := addBranchCause_hands bay held
    obtain ⟨isolating, grant, commanded⟩ := hands.shut nofun
    refine ⟨by simp [hands.causes], fun empty => ⟨isolating, ?_, grant, commanded⟩⟩
    rw [hands.causes, same, empty, List.nil_append]

theorem forBranches_located (u : State) :
    (forBranches (locateBranch u) u).rail = u.rail ∧ ∀ b, LocatedAs u b (forBranches (locateBranch u) u) := by
  have start : LocateKept u u := ⟨rfl, fun b suspected => occupied_of_bay (.inl (suspected_participating suspected))⟩
  have kept := fun b w keep => (locateBranch_turn (u := u) (w := w) keep b).1
  refine ⟨(forBranches_inv (LocateKept u) _ kept u start).rail, forBranches_turn (fresh := fun b w => w.br b = u.br b)
    (LocateKept u) start kept (fun _ => rfl) (fun b w d keep apart same => ((locateBranch_turn keep b).2 d apart).trans same)
    (fun b w _ same => locateBranch_located same) fun b w d keep apart done => ?_⟩
  have own := (locateBranch_turn keep b).2 d apart
  unfold LocatedAs at done ⊢
  rwa [own]

theorem closeLocate_evaluates (u : State) : LocateEvaluated u (takePart u .locate) := by
  refine ⟨fun idle => if_neg (by simp [idle]), fun running => ⟨fun some => ?_, fun none watched => ?_, fun none clear => ?_⟩⟩
  · rw [takePart, closeLocate_of_suspected running some, foldl_located]
    obtain ⟨rail, located⟩ := forBranches_located u
    generalize forBranches (locateBranch u) u = v at rail located
    exact ⟨rfl, rail, located⟩
  · rw [takePart, closeLocate_of_none running none, if_pos watched]
    refine ⟨congrArg (fun d : DripUnit => { d with running := false, windowsLeft := 0, outcome := .rail })
      (addRailCause_drip .commonRail u), ?_, fun new => ?_⟩
    · by_cases held : RailCause.commonRail ∈ u.rail.causes
      · rw [addRailCause_of_mem held]
        exact held
      · have causes := (addRailCause_answers held).causes
        have member : RailCause.commonRail ∈ (addRailCause .commonRail u).rail.causes := by simp [causes]
        exact member
    · have answers := addRailCause_answers new
      refine ⟨answers.state, ?_⟩
      have out : (addRailCause .commonRail u).iso.tripOut = true := by
        rw [answers.iso, answers.causes]
        simp [tripOutOf]
      exact out
  · rw [takePart, closeLocate_of_none running none, if_neg (not_not.2 clear)]
    split <;> rfl

/-! ## The trims (R78, R79) -/

/-- R79: a branch record once its trim is updated. -/
def trimmed (s : State) (b : BranchNo) : Branch :=
  if ((s.br b).dock = .admitted ∨ (s.br b).dock = .adopting) ∧ 0 < (s.br b).grant ∧
      (s.snapChannel (supplyChannel b)).health = .healthy then
    { s.br b with
      trim := nextTrim (s.br b) (s.snapChannel (supplyChannel b)).rate
      commanded := Branch.duty { s.br b with trim := nextTrim (s.br b) (s.snapChannel (supplyChannel b)).rate } }
  else s.br b

theorem trims_iff : trims s b = true ↔ ((s.br b).dock = .admitted ∨ (s.br b).dock = .adopting) ∧ 0 < (s.br b).grant ∧
    (s.snapChannel (supplyChannel b)).health = .healthy := by
  simp only [trims, Bool.and_eq_true, Bool.or_eq_true, decide_eq_true_eq, bne_iff_ne, supplyHealthy_iff, and_assoc,
    Nat.pos_iff_ne_zero]

theorem trimBranch_br (b : BranchNo) (s : State) : (trimBranch b s).br b = trimmed s b := by
  unfold trimBranch trimmed
  by_cases taken : trims s b = true
  · have granted : (s.br b).grant ≠ 0 := (trims_iff.1 taken).2.1.ne'
    rw [if_pos taken, if_pos (trims_iff.1 taken), State.updBranch_br_same, Branch.redrive]
    simp only [granted, if_false]
    rfl
  · rw [if_neg taken, if_neg (mt trims_iff.2 taken)]

theorem trimBranch_baysOnly (b : BranchNo) (s : State) : trimBranch b s = { s with branches := (trimBranch b s).branches } := by
  unfold trimBranch
  split <;> rfl

theorem closeValves_trims (u : State) : TrimsUpdated u (takePart u .valves) := by
  have frame : closeValves u = { u with branches := (closeValves u).branches } :=
    forBranches_inv (fun w => w = { u with branches := w.branches }) trimBranch (fun b w only => by
      rw [trimBranch_baysOnly, only]) u rfl
  have own : ∀ b, (closeValves u).br b = trimmed u b := fun b => by
    refine forBranches_br (keeps := fun w => w = { u with branches := w.branches }) rfl
      (fun b w only => by rw [trimBranch_baysOnly, only]) (fun b w d apart => ?_) (fun b w only same => ?_) b
    · unfold trimBranch
      split
      · exact State.updBranch_br_ne _ _ _ apart
      · rfl
    · rw [trimBranch_br, trimmed, trimmed, same, only]
      rfl
  refine ⟨fun b => ?_, frame⟩
  intro br rate trim
  rw [takePart, own, trimmed]
  split
  case isTrue taken =>
    have participates : (u.br b).dock.participating = true := by
      rcases taken.1 with dock | dock <;> rw [dock] <;> rfl
    have drives : (u.br b).dock.participating = true ∧ (u.br b).causes = [] ∧ (u.br b).grant ≠ 0 ↔ (u.br b).causes = [] :=
      ⟨fun h => h.2.1, fun empty => ⟨participates, empty, taken.2.1.ne'⟩⟩
    rw [Branch.duty_eq]
    simp only [drives]
    rfl
  case isFalse => rfl

/-! ## The checks of the Dock Controllers (R16, R19, R22) -/

theorem primeGoodWindow_iff : primeGoodWindow s b = true ↔ 0 < (s.snapChannel (supplyChannel b)).volume ∧
    ((s.snapChannel (supplyChannel b)).volume * s.params.primeReturn).tdiv 1000 ≤ (s.snapChannel (returnChannel b)).volume := by
  simp [primeGoodWindow, supplyVolume, returnVolume]

theorem settled_iff : settled s b = true ↔
    ∃ r, (s.br b).dockTimer = some r ∧ s.params.drainTime * 1000 ≤ s.params.drainLimit * 1000 - r := by
  unfold settled
  cases (s.br b).dockTimer <;> simp

/-- R18: the bay is ADMITTED with its grant, and its owner is told. -/
def EntersAdmitted (b : BranchNo) (u v : State) : Prop :=
  (v.br b).dock = .admitted ∧ (v.br b).dockTimer = none ∧ (v.br b).primeGood = 0 ∧ (v.br b).idle = 0 ∧
    (v.br b).grant = (u.br b).grant ∧ ToldOwner u v b .admitted ∧ OthersKept u v b

theorem enterAdmitted_enters (b : BranchNo) (u : State) : EntersAdmitted b u (enterAdmitted b u) := by
  obtain ⟨own, told, others, -⟩ := enterAdmitted_frame b u
  unfold EntersAdmitted
  rw [own]
  exact ⟨rfl, rfl, rfl, rfl, rfl, told, others⟩

theorem primingCheck_of_bad (bad : ¬MetersGood u b) : primingCheck b u = u := by
  rw [primingCheck, if_neg (mt (metersGood_iff u b).1 bad)]

theorem primingCheck_of_good (good : MetersGood u b) : primingCheck b u =
    if primeGoodWindow u b then
      if (u.br b).primeGood + 1 ≥ 3 then enterAdmitted b u
      else u.updBranch b fun br => { br with primeGood := br.primeGood + 1 }
    else u.updBranch b fun br => { br with primeGood := 0 } := by
  rw [primingCheck, if_pos ((metersGood_iff u b).2 good)]

theorem adoptionCheck_of_degraded (degraded : (u.snapChannel (supplyChannel b)).health = .degraded) : adoptionCheck b u = u := by
  rw [adoptionCheck, if_neg]
  rw [supplyHealthy_iff, degraded]
  decide

theorem adoptionCheck_of_healthy (healthy : (u.snapChannel (supplyChannel b)).health = .healthy) : adoptionCheck b u =
    if supplyVolume u b > 0 then
      if (u.br b).primeGood + 1 ≥ 2 then enterAdmitted b u
      else u.updBranch b fun br => { br with primeGood := br.primeGood + 1, idle := 0 }
    else if supplyVolume u b = 0 then
      if (u.br b).idle + 1 ≥ 2 then enterPriming b u
      else u.updBranch b fun br => { br with idle := br.idle + 1, primeGood := 0 }
    else u.updBranch b fun br => { br with primeGood := 0, idle := 0 } := by
  rw [adoptionCheck, if_pos ((supplyHealthy_iff u b).2 healthy)]

theorem drainCheck_eq (b : BranchNo) (u : State) : drainCheck b u =
    if (∃ r, (u.br b).dockTimer = some r ∧ u.params.drainTime * 1000 ≤ u.params.drainLimit * 1000 - r) ∧
        (u.snapChannel (returnChannel b)).health = .healthy ∧
        (u.snapChannel (returnChannel b)).volume ≤ u.params.drainResidual then enterPullReady b u else u := by
  rw [drainCheck]
  refine ite_congr (propext ?_) (fun _ => rfl) (fun _ => rfl)
  rw [Bool.and_eq_true, Bool.and_eq_true, decide_eq_true_eq, settled_iff, returnHealthy_iff, and_assoc]
  rfl

theorem closeDock_checks (u : State) (b : BranchNo) : DockChecked u (takePart u (.dock b)) b := by
  have run : takePart u (.dock b) = closeDock b u := rfl
  have admits := enterAdmitted_enters b u
  rw [run]
  unfold DockChecked
  intro br supply ret good settled counts admitted
  refine ⟨fun priming => ?_, fun adopting => ?_, fun draining => ?_, fun other => ?_⟩
  · have check : closeDock b u = primingCheck b u := by rw [closeDock, priming]
    refine ⟨fun bad => ?_, fun healthy bad => ?_, fun healthy window early => ?_, fun healthy window third => ?_⟩
    · exact check.trans (primingCheck_of_bad bad)
    · have window : ¬primeGoodWindow u b = true := mt primeGoodWindow_iff.1 bad
      exact check.trans ((primingCheck_of_good healthy).trans (if_neg window))
    · have count : ¬(u.br b).primeGood + 1 ≥ 3 := Nat.not_le.2 (Nat.succ_lt_succ early)
      exact check.trans ((primingCheck_of_good healthy).trans ((if_pos (primeGoodWindow_iff.2 window)).trans (if_neg count)))
    · have count : (u.br b).primeGood + 1 ≥ 3 := Nat.succ_le_succ third
      have enters := check.trans
        ((primingCheck_of_good healthy).trans ((if_pos (primeGoodWindow_iff.2 window)).trans (if_pos count)))
      simp only [admitted, enters]
      exact admits
  · have check : closeDock b u = adoptionCheck b u := by rw [closeDock, adopting]
    refine ⟨fun degraded => ?_, fun healthy back => ?_, fun healthy flows early => ?_, fun healthy flows second => ?_,
      fun healthy still early => ?_, fun healthy still second => ?_⟩
    · exact check.trans (adoptionCheck_of_degraded degraded)
    · have flows : ¬supplyVolume u b > 0 := not_lt.2 (le_of_lt back)
      have still : ¬supplyVolume u b = 0 := ne_of_lt back
      exact check.trans ((adoptionCheck_of_healthy healthy).trans ((if_neg flows).trans (if_neg still)))
    · have count : ¬(u.br b).primeGood + 1 ≥ 2 := Nat.not_le.2 (Nat.succ_lt_succ early)
      exact check.trans ((adoptionCheck_of_healthy healthy).trans ((if_pos flows).trans (if_neg count)))
    · have count : (u.br b).primeGood + 1 ≥ 2 := Nat.succ_le_succ second
      have enters := check.trans ((adoptionCheck_of_healthy healthy).trans ((if_pos flows).trans (if_pos count)))
      simp only [admitted, enters]
      exact admits
    · have flows : ¬supplyVolume u b > 0 := not_lt.2 (le_of_eq still)
      have count : ¬(u.br b).idle + 1 ≥ 2 := Nat.not_le.2 (Nat.succ_lt_succ early)
      exact check.trans
        ((adoptionCheck_of_healthy healthy).trans ((if_neg flows).trans ((if_pos still).trans (if_neg count))))
    · have flows : ¬supplyVolume u b > 0 := not_lt.2 (le_of_eq still)
      have count : (u.br b).idle + 1 ≥ 2 := Nat.succ_le_succ second
      have enters := check.trans
        ((adoptionCheck_of_healthy healthy).trans ((if_neg flows).trans ((if_pos still).trans (if_pos count))))
      rw [enters]
      refine ⟨?_, ?_, ?_, ?_, ?_, fun d other => State.updBranch_br_ne _ _ _ other.symm⟩
      all_goals rw [enterPriming, State.updBranch_br_same]
      · rfl
      · rfl
      · exact if_pos adopting
      · rfl
      · exact if_pos adopting
  · have check : closeDock b u = drainCheck b u := by rw [closeDock, draining]
    rw [check, drainCheck_eq]
    refine ⟨fun drained healthy low => ?_, fun not => if_neg fun drained => ?_⟩
    · rw [if_pos ⟨drained, healthy, low⟩]
      refine ⟨?_, ?_, toldOwner_raiseOwner (by rw [State.updBranch_br_same]; rfl), fun d other => ?_⟩
      all_goals rw [enterPullReady, raiseOwner_br]
      · rw [State.updBranch_br_same]
        rfl
      · rw [State.updBranch_br_same]
        rfl
      · exact State.updBranch_br_ne _ _ _ other.symm
    · obtain ⟨drained, healthy, low⟩ := drained
      rcases not with not | degraded | high
      · exact not drained
      · exact absurd (healthy.symm.trans degraded) (by decide)
      · exact absurd low (not_le.2 high)
  · unfold closeDock
    cases dock : (u.br b).dock <;> first | rfl | exact absurd (show br.dock ∈ _ by simp [br, dock]) other

/-! ## The take-up check (R68, R69) -/

/-- R68, R69: a branch record after the take-up check, short of its hand-over. -/
def Branch.takeUpChecked (p : Params) (healthy : Bool) (rate : Int) (br : Branch) : Branch :=
  if br.dock = .admitted && healthy then
    if br.commanded = 1000 && rate < (br.grant * p.takeUpShare / 1000 : Nat) then
      if br.takeUp + 1 ≥ p.takeUpWindows then
        { br with restricted := some (restrictedValue p.quantum br.floor br.cap rate), takeUp := 0 }
      else { br with takeUp := br.takeUp + 1 }
    else { br with takeUp := 0 }
  else br

theorem takeUpCheck_br (b : BranchNo) (s : State) :
    (takeUpCheck b s).br b = (s.br b).takeUpChecked s.params (supplyHealthy s b) (supplyRate s b) := by
  unfold takeUpCheck Branch.takeUpChecked fallsShort
  split
  · split
    · split
      · rw [State.br, restrict_branches]
        exact State.updBranch_br_same ..
      · exact State.updBranch_br_same ..
    · exact State.updBranch_br_same ..
  · rfl

theorem takeUpCheck_br_ne {d : BranchNo} (apart : b ≠ d) (s : State) : (takeUpCheck b s).br d = s.br d := by
  unfold takeUpCheck
  split
  · split
    · split
      · rw [State.br, restrict_branches]
        exact State.updBranch_br_ne _ _ _ apart
      · exact State.updBranch_br_ne _ _ _ apart
    · exact State.updBranch_br_ne _ _ _ apart
  · rfl

theorem takeUpCheck_baysOnly (b : BranchNo) (s : State) : BaysOnly s (takeUpCheck b s) := by
  unfold takeUpCheck
  split
  · split
    · split
      · exact restrict_baysOnly b s
      · exact updBranch_baysOnly ..
    · exact updBranch_baysOnly ..
  · exact .refl s

theorem takeUpChecks_br (u : State) (b : BranchNo) : (forBranches takeUpCheck u).br b =
    (u.br b).takeUpChecked u.params (supplyHealthy u b) (supplyRate u b) := by
  refine forBranches_br (keeps := BaysOnly u) (.refl u) (fun b w only => only.trans (takeUpCheck_baysOnly b w))
    (fun b w d apart => takeUpCheck_br_ne apart w)
    (result := fun b => (u.br b).takeUpChecked u.params (supplyHealthy u b) (supplyRate u b)) (fun b w only same => ?_) b
  obtain ⟨branches, attn, rfl⟩ := only
  rw [takeUpCheck_br, same]
  rfl

/-- The round leaves the take-up count and the restricted cap. -/
theorem runRound_takeUp (s : State) (b : BranchNo) :
    ((runRound s).br b).takeUp = (s.br b).takeUp ∧ ((runRound s).br b).restricted = (s.br b).restricted := by
  have own : (runRound s).br b = (roundTaken s).br b := by rw [runRound_frame]; rfl
  rw [own, roundTaken_br]
  split <;> exact ⟨rfl, rfl⟩

theorem closeAllocator_takesUp (u : State) (b : BranchNo) : TakeUpChecked u (takePart u .allocator) b := by
  have own : ((takePart u .allocator).br b).takeUp =
        ((u.br b).takeUpChecked u.params (supplyHealthy u b) (supplyRate u b)).takeUp ∧
      ((takePart u .allocator).br b).restricted =
        ((u.br b).takeUpChecked u.params (supplyHealthy u b) (supplyRate u b)).restricted := by
    rw [takePart, closeAllocator, ← takeUpChecks_br]
    exact runRound_takeUp ..
  unfold TakeUpChecked
  intro br supply short
  rw [own.1, own.2]
  have falls : (decide ((u.br b).commanded = 1000) &&
      decide (supplyRate u b < ((u.br b).grant * u.params.takeUpShare / 1000 : Nat))) = true ↔ short := by
    rw [Bool.and_eq_true, decide_eq_true_eq, decide_eq_true_eq]
    rfl
  have checked : (decide ((u.br b).dock = .admitted) && supplyHealthy u b) = true ↔
      br.dock = .admitted ∧ supply.health = .healthy := by
    rw [Bool.and_eq_true, decide_eq_true_eq, supplyHealthy_iff]
  unfold Branch.takeUpChecked
  refine ⟨fun not => ?_, fun admitted healthy => ⟨fun takes => ?_, fun misses early => ?_, fun misses last => ?_⟩⟩
  · rw [if_neg fun yes => ?_]
    · exact ⟨rfl, rfl⟩
    · obtain ⟨admitted, healthy⟩ := checked.1 yes
      exact not.elim (fun out => out admitted) fun degraded => absurd (healthy.symm.trans degraded) (by decide)
  · rw [if_pos (checked.2 ⟨admitted, healthy⟩), if_neg (mt falls.1 takes)]
    exact ⟨rfl, rfl⟩
  · rw [if_pos (checked.2 ⟨admitted, healthy⟩), if_pos (falls.2 misses), if_neg (Nat.not_le.2 early)]
    exact ⟨rfl, rfl⟩
  · rw [if_pos (checked.2 ⟨admitted, healthy⟩), if_pos (falls.2 misses), if_pos last]
    refine ⟨rfl, nofun, fun fits x restricted => ?_⟩
    cases restricted
    exact ⟨le_min fits (le_max_left ..), min_le_left ..⟩

/-! ## The order of the parts (log 7) -/

theorem closeParts_nodup : ClosePart.all.Nodup := by decide

theorem mem_closeParts (p : ClosePart) : p ∈ ClosePart.all := by
  cases p with
  | dock b => revert b; decide
  | allocator | valves | balance | locate => decide

theorem closeOrder_perm (order : List ClosePart) : (closeOrder order).Perm ClosePart.all := by
  have nodup : (closeOrder order).Nodup := by
    refine List.Nodup.append (List.nodup_dedup order) (closeParts_nodup.filter _) fun p first second => ?_
    simp only [List.mem_dedup] at first
    simp [first] at second
  refine (List.perm_ext_iff_of_nodup nodup closeParts_nodup).2 fun p => iff_of_true ?_ (mem_closeParts p)
  by_cases given : p ∈ order
  · exact List.mem_append_left _ (List.mem_dedup.2 given)
  · exact List.mem_append_right _ (List.mem_filter.2 ⟨mem_closeParts p, by simpa using given⟩)

theorem closeOrder_of_perm {order : List ClosePart} (perm : order.Perm ClosePart.all) : closeOrder order = order := by
  have given : ∀ p, p ∈ order := fun p => perm.mem_iff.2 (mem_closeParts p)
  rw [closeOrder, (List.Perm.nodup_iff perm).2 closeParts_nodup |>.dedup, List.filter_eq_nil_iff.2 fun p _ => by simp [given p],
    List.append_nil]

/-! ## The close as a whole (R34 to R36, R50) -/

theorem BaysOnly.alloc (h : BaysOnly s t) : t.alloc = s.alloc := by
  obtain ⟨_, _, rfl⟩ := h
  rfl

theorem CauseOnly.alloc (h : CauseOnly s t) : t.alloc = s.alloc := by rw [h]

theorem closeDock_baysOnly (b : BranchNo) (s : State) : BaysOnly s (closeDock b s) := by
  have counts : ∀ f : Branch → Branch, BaysOnly s (s.updBranch b f) := fun f => updBranch_baysOnly b f s
  have admits : BaysOnly s (enterAdmitted b s) := (counts _).trans (raiseOwner_baysOnly ..)
  unfold closeDock
  split
  · unfold primingCheck
    split
    · split
      · split
        · exact admits
        · exact counts _
      · exact counts _
    · exact .refl s
  · unfold adoptionCheck
    split
    · split
      · split
        · exact admits
        · exact counts _
      · split
        · split <;> exact counts _
        · exact counts _
    · exact .refl s
  · unfold drainCheck
    split
    · exact (counts _).trans (raiseOwner_baysOnly ..)
    · exact .refl s
  all_goals exact .refl s

theorem closeBalance_alloc (u : State) : (closeBalance u).alloc = u.alloc := by
  obtain ⟨-, looks⟩ := balanceBranches_judges u 0
  obtain ⟨slots, part⟩ := closeBalance_frame u
  have judged : ∀ w, (railJudged w).alloc = w.alloc := fun _ => rfl
  rw [part, State.updRing_alloc, ← looks.only.alloc]
  generalize forBranches balanceBranch u = w
  rcases balanceRail_cases w with ⟨same, -⟩ | ⟨-, -, same, -⟩ | ⟨-, -, adds, -⟩
  · rw [same]
  · rw [same, judged]
  · rw [adds, addRailCause_alloc, judged]

theorem closeLocate_alloc (u : State) : (closeLocate u).alloc = u.alloc := by
  have ends : ∀ o w, (endLocate o w).alloc = w.alloc := fun _ _ => rfl
  have located : ∀ (bs : List BranchNo) (w : State),
      (bs.foldl (fun s b => addBranchCause b .located false s) w).alloc = w.alloc := fun bs => by
    induction bs with
    | nil => exact fun _ => rfl
    | cons b bs ih => exact fun w => (ih _).trans (addBranchCause_alloc ..)
  unfold closeLocate
  split
  · dsimp only
    split
    · rw [ends, located]
    · split
      · rw [ends, addRailCause_alloc]
      · split <;> rfl
  · rfl

/-- Every part but the Allocator's leaves the Allocator as it was. -/
theorem takePart_alloc {p : ClosePart} (other : p ≠ .allocator) (s : State) : (takePart s p).alloc = s.alloc := by
  cases p with
  | allocator => exact absurd rfl other
  | dock b => exact (closeDock_baysOnly b s).alloc
  | valves => rw [(closeValves_trims s).2]
  | balance => exact closeBalance_alloc s
  | locate => exact closeLocate_alloc s

theorem closeAllocator_alloc (s : State) : (closeAllocator s).alloc.round.seq = s.alloc.round.seq + 1 ∧
    (closeAllocator s).alloc.effectiveBudget = s.alloc.pendingBudget := by
  rw [closeAllocator, ← takeUpChecks_alloc s]
  generalize forBranches takeUpCheck s = w
  obtain ⟨sum, record⟩ := runRound_alloc w
  rw [record]
  exact ⟨rfl, rfl⟩

/-- Parts of which one is the Allocator's run one round on the pending budget. -/
theorem takeParts_alloc {ps : List ClosePart} (once : ps.Nodup) (there : .allocator ∈ ps) (s : State) :
    (ps.foldl takePart s).alloc.round.seq = s.alloc.round.seq + 1 ∧
      (ps.foldl takePart s).alloc.effectiveBudget = s.alloc.pendingBudget := by
  have rest : ∀ (ps : List ClosePart) (s : State), .allocator ∉ ps → (ps.foldl takePart s).alloc = s.alloc := fun ps => by
    induction ps with
    | nil => exact fun _ _ => rfl
    | cons p ps ih =>
      intro s without
      obtain ⟨apart, without⟩ := not_or.1 (List.mem_cons.not.1 without)
      exact (ih (takePart s p) without).trans (takePart_alloc (Ne.symm apart) s)
  induction ps generalizing s with
  | nil => cases there
  | cons p ps ih =>
    obtain ⟨fresh, once⟩ := List.nodup_cons.1 once
    rw [List.foldl_cons]
    by_cases here : p = .allocator
    · subst here
      rw [rest ps _ fresh, takePart]
      exact closeAllocator_alloc s
    · have alloc := takePart_alloc here s
      have later := ih once ((List.mem_cons.1 there).resolve_left (Ne.symm here)) (takePart s p)
      rwa [alloc] at later

/-- A remainder of the truncating division has the sign of the dividend. -/
theorem tmod_mul_self_nonneg (a b : Int) : 0 ≤ a.tmod b * a := by
  rcases le_total 0 a with up | down
  · exact mul_nonneg (Int.tmod_nonneg b up) up
  · have flipped := Int.tmod_nonneg b (neg_nonneg.2 down)
    rw [Int.neg_tmod] at flipped
    exact mul_nonneg_of_nonpos_of_nonpos (neg_nonneg.1 flipped) down

/-- R35: the conversion of a window. -/
theorem close_converts (ch : MeterChannel) (positive : 0 < ch.k) :
    ch.acc * 1000 + ch.carry = ch.k * windowVolume ch + ch.close.carry ∧ ch.close.carry.natAbs < ch.k ∧
      0 ≤ ch.close.carry * (ch.acc * 1000 + ch.carry) := by
  refine ⟨windowVolume_carry ch, windowCarry_natAbs_lt ch positive, ?_⟩
  rw [show ch.close.carry = (ch.acc * 1000 + ch.carry).tmod ch.k from windowCarry_eq_tmod ch]
  exact tmod_mul_self_nonneg ..

/-- Settles O50. -/
theorem windowClosePublishesTheSnapshot : Obligations.WindowClosePublishesTheSnapshot := by
  unfold Obligations.WindowClosePublishesTheSnapshot
  refine fun s u order left b => ⟨fun none => ?_, fun runs => exec_windowClose runs order,
    List.isPerm_iff.2 (closeOrder_perm order), fun perm => closeOrder_of_perm (List.isPerm_iff.1 perm),
    closeBalance_branch u b, closeBalance_rail u, closeBalance_losses, closeLocate_evaluates u, closeValves_trims u,
    closeDock_checks u b, closeAllocator_takesUp u b, fun runs => ⟨_, exec_windowClose runs order, ?_⟩⟩
  · simp only [exec, execWindowClose, none]
  · have nodup := (closeOrder_perm order).nodup_iff.2 closeParts_nodup
    have kept := takeParts_meterKept (closeOrder order) (closeMeters (elapse left s))
    obtain ⟨seq, budget⟩ := takeParts_alloc nodup ((closeOrder_perm order).mem_iff.2 (mem_closeParts .allocator))
      (closeMeters (elapse left s))
    generalize (closeOrder order).foldl takePart (closeMeters (elapse left s)) = t at kept seq budget
    have channel : ∀ c, t.channel c = (s.channel c).close := fun c => by
      rw [State.channel, kept.meter]
      exact closeMeters_channel ..
    have snap : ∀ c, t.snapChannel c = (s.channel c).capture s.params.windowLength := fun c => by
      rw [State.snapChannel, kept.meter]
      exact closeMeters_snapChannel ..
    have frame := closeMeters_frame (elapse left s)
    beta_reduce
    rw [seq, budget, kept.meter, frame]
    refine ⟨rfl, rfl, fun l => ?_, rfl, rfl, fun c => ?_⟩
    · rw [State.line, kept.lines, frame]
      exact congrArg Line.badCount (Vec.pick_map ..)
    · rw [channel, snap]
      exact ⟨rfl, rfl, rfl, rfl, rfl, rfl, rfl, rfl, close_converts _⟩

end

end Sys2Proof.Machine
end

section
/-! SUPPORT. The end of a loading, after the values are taken: what it leaves alone, what it leaves of each bay's
record. -/

namespace Sys2Proof.Machine

open Sys2Proof Sys2Proof.Safety

section
variable {s t u : State} {b d : BranchNo} {n : StripNo}

/-! ## What the bays, the rail and the strips leave as they resume -/

/-- Between the values taken and the enables: the units that no cause reaches, the strips, the trip level, the valve unit but
for the rail's commanded duty, enables and contacts of the branches; the attention sets grow. -/
structure EndKept (s t : State) : Prop where
  loader : t.loader = s.loader
  params : t.params = s.params
  meter : t.meter = s.meter
  alloc : t.alloc = s.alloc
  strips : t.drip.strips = s.drip.strips
  trip : t.iso.tripAsserted = s.iso.tripAsserted
  valves : { t.valves with railCommanded := 0 } = { s.valves with railCommanded := 0 }
  wires : WiresStand s t
  grows : AttnGrows s t

theorem EndKept.refl (s : State) : EndKept s s := ⟨rfl, rfl, rfl, rfl, rfl, rfl, rfl, .refl s, .refl s⟩

theorem EndKept.trans (h : EndKept s t) (k : EndKept t u) : EndKept s u :=
  ⟨k.loader.trans h.loader, k.params.trans h.params, k.meter.trans h.meter, k.alloc.trans h.alloc, k.strips.trans h.strips,
    k.trip.trans h.trip, k.valves.trans h.valves, h.wires.trans k.wires, h.grows.trans k.grows⟩

/-- An act of causes alone, with what it leaves of the valve unit and the trip items. -/
theorem CauseOnly.endKept (only : CauseOnly s t) (trip : t.iso.tripAsserted = s.iso.tripAsserted)
    (valves : { t.valves with railCommanded := 0 } = { s.valves with railCommanded := 0 }) (wires : WiresStand s t)
    (grows : AttnGrows s t) : EndKept s t :=
  ⟨by rw [only], only.params, only.meter, only.alloc, by rw [only.drip], trip, valves, wires, grows⟩

theorem updBranch_endKept {f : Branch → Branch} (h : (f (s.br b)).wires = (s.br b).wires) : EndKept s (s.updBranch b f) :=
  CauseOnly.endKept rfl rfl rfl (updBranch_wiresStand h) (.of_attn rfl)

theorem forBranches_endKept {f : BranchNo → State → State} (turn : ∀ b u, EndKept u (f b u)) (s : State) :
    EndKept s (forBranches f s) :=
  forBranches_inv (EndKept s) f (fun b u kept => kept.trans (turn b u)) s (.refl s)

theorem addBranchCause_endKept (b : BranchNo) (c : BranchCause) (x : Bool) (s : State) :
    EndKept s (addBranchCause b c x s) :=
  (addBranchCause_causeOnly ..).endKept (by simp) (by simp) (addBranchCause_wiresStand ..) (addBranchCause_grows ..)

theorem contactOpened_endKept (b : BranchNo) (s : State) : EndKept s (contactOpened b s) := by
  have marked : ∀ u, EndKept u (markHotPull b u) := fun u =>
    CauseOnly.endKept (by unfold markHotPull; split <;> rfl) (by simp) (by simp) (markHotPull_wiresStand ..)
      (.of_attn (by simp))
  unfold contactOpened
  split
  · exact (addBranchCause_endKept ..).trans (marked _)
  · exact marked s

theorem enterHeld_endKept (b : BranchNo) (x : Bool) (s : State) : EndKept s (enterHeld b x s) :=
  CauseOnly.endKept
    (by
      unfold enterHeld
      dsimp only
      split
      · exact CauseOnly.trans (t := s.updBranch b (Branch.toHeld s.params.seatSettle x)) rfl (gate_causeOnly ..)
      · rfl)
    (by simp) (by simp) (enterHeld_wiresStand ..) (.of_attn (by simp))

theorem resumeState_endKept (b : BranchNo) (s : State) : EndKept s (resumeState b s) := by
  unfold resumeState
  split
  case h_8 | h_9 | h_10 | h_11 =>
    unfold resumeByContacts
    split
    · exact updBranch_endKept rfl
    · split
      · exact enterHeld_endKept ..
      · exact updBranch_endKept rfl
  all_goals exact updBranch_endKept rfl

theorem resumeDock_endKept (b : BranchNo) (s : State) : EndKept s (resumeDock b s) := by
  have contacts : ∀ u, EndKept u (resumeContacts b u) := fun u => by
    unfold resumeContacts
    split
    · exact contactOpened_endKept ..
    · exact .refl u
  have causes : ∀ u, EndKept u (resumeCauses b u) := fun u => by
    unfold resumeCauses
    split
    · exact .refl u
    · exact updBranch_endKept (Branch.respond_wires ..)
  exact ((resumeState_endKept b s).trans (contacts _)).trans (causes _)

theorem addRailToOccupied_endKept (s : State) : EndKept s (addRailToOccupied s) :=
  (addRailToOccupied_causeOnly s).endKept (by simp) (by simp) (addRailToOccupied_wiresStand s) (addRailToOccupied_grows s)

theorem alignRail_endKept (s : State) : EndKept s (alignRail s) := by
  unfold alignRail
  split
  · exact .refl s
  · exact addRailToOccupied_endKept s

theorem addRailCause_endKept (c : RailCause) (s : State) : EndKept s (addRailCause c s) := by
  by_cases held : c ∈ s.rail.causes
  · rw [addRailCause_of_mem held]
    exact .refl s
  · have answers := addRailCause_answers held
    refine answers.only.endKept (by rw [answers.iso]) ?_ (addRailCause_wiresStand c s) answers.grows
    cases state : s.rail.state with
    | opened => rw [(answers.closing (.inl state)).1]
    | opening => rw [(answers.closing (.inr state)).1]
    | closing => rw [(answers.shut (.inl state)).1]
    | closed => rw [(answers.shut (.inr state)).1]

theorem commonWet_endKept (n : StripNo) (s : State) : EndKept s (commonWet n s) := by
  have told : EndKept s (raiseSup .commonWet n.val s) :=
    CauseOnly.endKept rfl rfl rfl (wiresStand_of_branches rfl) (raiseSup_grows ..)
  cases action : s.params.wetAction with
  | alarm => rw [commonWet_alarm action]; exact told
  | locate =>
    rw [commonWet_locate action]
    exact told.trans ⟨rfl, rfl, rfl, rfl, rfl, rfl, rfl, wiresStand_of_branches rfl, .of_attn rfl⟩
  | rail => rw [commonWet_ofRail action]; exact told.trans (addRailCause_endKept ..)

theorem stripEntersWet_endKept (n : StripNo) (s : State) : EndKept s (stripEntersWet n s) := by
  unfold stripEntersWet
  split
  · split
    · exact commonWet_endKept ..
    · exact addBranchCause_endKept ..
  · exact commonWet_endKept ..

theorem resumeStrips_endKept (s : State) : EndKept s (resumeStrips s) :=
  List.foldlRecOn allStrips _ (.refl s) fun u kept n _ => by
    split
    · exact kept.trans (stripEntersWet_endKept n u)
    · exact kept

theorem resumeIsolation_endKept (s : State) : EndKept s (resumeIsolation s) := by
  have railAlone : ∀ t : State, CauseOnly s t → t.iso = s.iso → t.branches = s.branches → t.attn = s.attn →
      { t.valves with railCommanded := 0 } = { s.valves with railCommanded := 0 } → EndKept s t :=
    fun t only iso branches attn valves => only.endKept (by rw [iso]) valves (wiresStand_of_branches branches) (.of_attn attn)
  unfold resumeIsolation
  split
  · split
    · exact addRailCause_endKept ..
    · split
      · exact railAlone _ rfl rfl rfl rfl rfl
      · exact .refl s
  · exact railAlone _ rfl rfl rfl rfl rfl

theorem resumeIsolationAndStrips_endKept (dripFirst : Bool) (s : State) : EndKept s (resumeIsolationAndStrips dripFirst s) := by
  unfold resumeIsolationAndStrips
  split
  · exact (resumeStrips_endKept s).trans (resumeIsolation_endKept _)
  · exact (resumeIsolation_endKept s).trans (resumeStrips_endKept _)

/-! ## What later acts leave of a bay's record -/

/-- What a record keeps while causes are added to an occupied bay, a bay in HELD primes, and its duty is driven. -/
structure Branch.Later (x y : Branch) : Prop where
  limits : (y.tier, y.floor, y.cap, y.fopen, y.request) = (x.tier, x.floor, x.cap, x.fopen, x.request)
  restricted : x.restricted = none → y.restricted = none
  takeUp : x.takeUp = 0 → y.takeUp = 0
  grant : x.grant = 0 → y.grant = 0
  vacant : y.dock = .vacant ↔ x.dock = .vacant
  causes : ∀ c ∈ x.causes, c ∈ y.causes
  held : y.dock = .held → x.dock = .held
  adopting : y.dock = .adopting → x.dock = .adopting ∧ y.grant = x.grant
  priming : y.dock = .priming → x.dock = .held ∨ x.dock = .priming ∧ y.grant = x.grant

theorem Branch.Later.refl (x : Branch) : x.Later x :=
  ⟨rfl, id, id, id, .rfl, fun _ => id, id, fun e => ⟨e, rfl⟩, fun e => .inr ⟨e, rfl⟩⟩

theorem Branch.Later.trans {x y z : Branch} (h : x.Later y) (k : y.Later z) : x.Later z where
  limits := k.limits.trans h.limits
  restricted none := k.restricted (h.restricted none)
  takeUp none := k.takeUp (h.takeUp none)
  grant none := k.grant (h.grant none)
  vacant := k.vacant.trans h.vacant
  causes c there := k.causes c (h.causes c there)
  held e := h.held (k.held e)
  adopting e := by
    obtain ⟨before, grant⟩ := k.adopting e
    obtain ⟨first, same⟩ := h.adopting before
    exact ⟨first, grant.trans same⟩
  priming e := by
    obtain held | ⟨before, grant⟩ := k.priming e
    · exact .inl (h.held held)
    · exact (h.priming before).imp_right fun ⟨first, same⟩ => ⟨first, grant.trans same⟩

/-- A record whose dock state, limits, grant and set stand. -/
theorem Branch.Later.of_same {x y : Branch}
    (h : (y.dock, y.causes, y.grant, y.restricted, y.takeUp, y.tier, y.floor, y.cap, y.fopen, y.request) =
      (x.dock, x.causes, x.grant, x.restricted, x.takeUp, x.tier, x.floor, x.cap, x.fopen, x.request)) : x.Later y := by
  simp only [Prod.mk.injEq] at h
  obtain ⟨dock, causes, grant, restricted, takeUp, tier, floor, cap, fopen, request⟩ := h
  exact
    { limits := by rw [tier, floor, cap, fopen, request]
      restricted := fun none => restricted.trans none
      takeUp := fun none => takeUp.trans none
      grant := fun none => grant.trans none
      vacant := by rw [dock]
      causes := fun c there => by rwa [causes]
      held := fun e => dock ▸ e
      adopting := fun e => ⟨dock ▸ e, grant⟩
      priming := fun e => .inr ⟨dock ▸ e, grant⟩ }

theorem Branch.later_redrive (x : Branch) : x.Later x.redrive := .of_same rfl

theorem Branch.later_toPriming {x : Branch} (p : Params) (held : x.dock = .held) : x.Later (x.toPriming p) := by
  have kept : x.dock ≠ .adopting := by rw [held]; decide
  have grant : (x.toPriming p).grant = x.grant := by simp [Branch.toPriming, kept]
  have dock : (x.toPriming p).dock = .priming := rfl
  exact
    { limits := rfl
      restricted := id
      takeUp := id
      grant := fun none => grant.trans none
      vacant := by rw [dock, held]; decide
      causes := fun _ => id
      held := fun _ => held
      adopting := fun e => by rw [dock] at e; cases e
      priming := fun _ => .inl held }

theorem Branch.later_respond {x : Branch} (close : Option Nat) (occupied : x.dock ≠ .vacant) : x.Later (x.respond close) where
  limits := by
    unfold Branch.respond
    split <;> rfl
  restricted none := by
    unfold Branch.respond
    split <;> first | exact none | rfl
  takeUp none := by
    unfold Branch.respond
    split <;> first | exact none | rfl
  grant none := by
    unfold Branch.respond
    split <;> first | exact none | rfl
  vacant := by
    refine iff_of_false ?_ occupied
    rw [Branch.respond_dock_eq]
    cases x.dock <;> decide
  causes c there := by rwa [Branch.respond_causes]
  held e := by rw [Branch.respond_dock_eq] at e; cases dock : x.dock <;> rw [dock] at e <;> cases e
  adopting e := by rw [Branch.respond_dock_eq] at e; cases dock : x.dock <;> rw [dock] at e <;> cases e
  priming e := by rw [Branch.respond_dock_eq] at e; cases dock : x.dock <;> rw [dock] at e <;> cases e

/-- Every record of a run of such acts. -/
structure BaysLater (s t : State) : Prop where
  br : ∀ b, (s.br b).Later (t.br b)

theorem BaysLater.refl (s : State) : BaysLater s s := ⟨fun _ => .refl _⟩

theorem BaysLater.trans (h : BaysLater s t) (k : BaysLater t u) : BaysLater s u := ⟨fun b => (h.br b).trans (k.br b)⟩

theorem BaysLater.of_branches (h : t.branches = s.branches) : BaysLater s t where
  br b := by
    have same : t.br b = s.br b := congrArg (Vec.pick · b) h
    rw [same]
    exact .refl _

theorem addCauseCore_later (occupied : (s.br b).dock ≠ .vacant) (c : BranchCause) (x : Bool) :
    BaysLater s (addCauseCore b c x s) where
  br d := by
    by_cases held : c ∈ (s.br b).causes
    · rw [addCauseCore_of_mem b c x s held]
      exact .refl _
    · by_cases same : b = d
      · subst same
        rw [addCauseCore_br_same b c x s held]
        have joined : (s.br b).Later { s.br b with causes := (s.br b).causes ++ [c] } :=
          { Branch.Later.refl (s.br b) with causes := fun _ there => List.mem_append_left _ there }
        exact (joined.trans (Branch.later_respond (closeTimer s) (by exact occupied))).trans (.of_same rfl)
      · rw [addCauseCore_br_ne b c x s same]
        exact .refl _

theorem addRailToOccupied_later (s : State) : BaysLater s (addRailToOccupied s) :=
  forBranches_inv (BaysLater s) _ (fun b u later => later.trans (by
    split
    · exact .refl u
    case isFalse occupied => exact addCauseCore_later occupied .rail false)) s (.refl s)

theorem alignRail_later (s : State) : BaysLater s (alignRail s) := by
  unfold alignRail
  split
  · exact .refl s
  · exact addRailToOccupied_later s

theorem addRailCause_later (c : RailCause) (s : State) : BaysLater s (addRailCause c s) := by
  by_cases held : c ∈ s.rail.causes
  · rw [addRailCause_of_mem held]
    exact .refl s
  · have answered : BaysLater s (railAnswered c s) := by
      have taken : BaysLater s (railTakes c s) := ⟨fun b => by rw [railTakes_br]; exact .refl _⟩
      unfold railAnswered
      refine .trans ?_ (.of_branches (driveTripOut_branches _))
      split
      · exact taken.trans (addRailToOccupied_later _)
      · exact taken
    rw [addRailCause_eq held]
    split
    · exact answered.trans (.of_branches (ringAdd_rail_branches ..))
    · exact answered

theorem commonWet_later (n : StripNo) (s : State) : BaysLater s (commonWet n s) := by
  have told : BaysLater s (raiseSup .commonWet n.val s) := .of_branches rfl
  cases action : s.params.wetAction with
  | alarm => rw [commonWet_alarm action]; exact told
  | locate => rw [commonWet_locate action]; exact told.trans (.of_branches rfl)
  | rail => rw [commonWet_ofRail action]; exact told.trans (addRailCause_later ..)

theorem stripEntersWet_later (n : StripNo) (s : State) : BaysLater s (stripEntersWet n s) := by
  by_cases role : CommonRole s n
  · rw [stripEntersWet_common role]
    exact commonWet_later n s
  · simp only [CommonRole, not_or, not_exists, not_and, Nat.not_le] at role
    obtain ⟨low, occupied⟩ := role
    have here := occupied ⟨n.val, low⟩ rfl
    have tray : n = trayStrip ⟨n.val, low⟩ := rfl
    rw [tray, stripEntersWet_tray here, addBranchCause_of_occupied here]
    exact addCauseCore_later here .trayWet false

theorem resumeStrips_later (s : State) : BaysLater s (resumeStrips s) :=
  List.foldlRecOn allStrips _ (.refl s) fun u later n _ => by
    split
    · exact later.trans (stripEntersWet_later n u)
    · exact later

theorem resumeIsolation_later (s : State) : BaysLater s (resumeIsolation s) := by
  unfold resumeIsolation
  split
  · split
    · exact addRailCause_later ..
    · split
      · exact .of_branches rfl
      · exact .refl s
  · exact .of_branches rfl

theorem resumeIsolationAndStrips_later (dripFirst : Bool) (s : State) : BaysLater s (resumeIsolationAndStrips dripFirst s) := by
  unfold resumeIsolationAndStrips
  split
  · exact (resumeStrips_later s).trans (resumeIsolation_later _)
  · exact (resumeIsolation_later s).trans (resumeStrips_later _)

theorem resumeEnables_later (s : State) : BaysLater s (resumeEnables s) := by
  unfold resumeEnables
  dsimp only
  split
  · split
    · exact .of_branches rfl
    · refine ⟨fun b => ?_⟩
      rw [setEnables_br]
      exact .of_same rfl
  · exact .refl s

theorem resumeDuties_later (s : State) : BaysLater s (resumeDuties s) where
  br b := by
    rw [resumeDuties_br]
    exact Branch.later_redrive _

theorem gateAll_later (s : State) : BaysLater s (gateAll s) where
  br b := by
    rw [gateAll_br]
    split
    case isTrue opens => exact Branch.later_toPriming s.params ((gateOpen_iff s b).1 opens).1
    case isFalse => exact .refl _

end

end Sys2Proof.Machine
end

section
/-! SUPPORT. The turn of each bay at the end of a loading: the table of resumption, the contacts found open, and the response
to a set that is not empty (R28, R29). -/

namespace Sys2Proof.Machine

open Sys2Proof Sys2Proof.Safety

section
variable {s t u : State} {b d : BranchNo} {x y z : Branch} {p : Params} {r : RailState} {close : Option Nat}

/-! ## The table of resumption on a record (R28, R29) -/

/-- R28, R29: what the table of resumption makes of a record, the rail standing in `r`. -/
inductive Branch.Resumes (p : Params) (r : RailState) (x : Branch) : Branch → Prop
  | adopt (from_ : x.dock = .admitted ∨ x.dock = .adopting) : Resumes p r x { x.enter .adopting with dockTimer := none }
  | prime (from_ : x.dock = .priming) :
      Resumes p r x { x with dockTimer := some (p.primeTimeout * 1000), trim := 0 }
  | shut (from_ : x.dock = .releasing ∨ x.dock = .isolating) :
      Resumes p r x { x with dockTimer := some (p.closeTime * 1000) }
  | drain (from_ : x.dock = .draining) : Resumes p r x { x with dockTimer := some (p.drainLimit * 1000) }
  | isolated (from_ : x.dock = .isolated) : Resumes p r x { x with dockTimer := none }
  | vacant (from_ : x.dock.resting = true) (away : x.present = false) : Resumes p r x x.toVacant
  | seated (from_ : x.dock.resting = true) (present : x.present = true) (unlatched : x.latched = false) :
      Resumes p r x x.toSeated
  | held (from_ : x.dock.resting = true) (present : x.present = true) (latched : x.latched = true) :
      Resumes p r x (x.toHeld p.seatSettle false)
  | primes (from_ : x.dock.resting = true) (present : x.present = true) (latched : x.latched = true)
      (free : x.hold = false) (settled : p.seatSettle = 0) (opened : r = .opened) :
      Resumes p r x ((x.toHeld p.seatSettle false).toPriming p)

theorem enterHeld_resumes (from_ : (s.br b).dock.resting = true) (present : (s.br b).present = true)
    (latched : (s.br b).latched = true) : Branch.Resumes s.params s.rail.state (s.br b) ((enterHeld b false s).br b) := by
  by_cases opened : s.rail.state = .opened
  · by_cases waits : (s.br b).hold = true ∨ s.params.seatSettle ≠ 0
    · rw [enterHeld_of_waits waits, State.updBranch_br_same]
      exact .held from_ present latched
    · simp only [not_or, Bool.not_eq_true, not_not] at waits
      unfold enterHeld
      dsimp only
      split
      · obtain same | ⟨-, primes⟩ := gate_eq b (s.updBranch b (Branch.toHeld s.params.seatSettle false))
        · rw [same, State.updBranch_br_same]
          exact .held from_ present latched
        · rw [primes, State.updBranch_br_same, State.updBranch_br_same]
          exact .primes from_ present latched waits.1 waits.2 opened
      · rw [State.updBranch_br_same]
        exact .held from_ present latched
  · rw [enterHeld_of_shut opened, State.updBranch_br_same]
    exact .held from_ present latched

theorem resumeByContacts_resumes (from_ : (s.br b).dock.resting = true) :
    Branch.Resumes s.params s.rail.state (s.br b) ((resumeByContacts b s).br b) := by
  unfold resumeByContacts
  cases present : (s.br b).present with
  | false =>
    rw [if_pos (by decide), State.updBranch_br_same]
    exact .vacant from_ present
  | true =>
    rw [if_neg (by decide)]
    cases latched : (s.br b).latched with
    | false =>
      rw [if_neg (by decide), enterSeated, State.updBranch_br_same]
      exact .seated from_ present latched
    | true =>
      rw [if_pos rfl]
      exact enterHeld_resumes from_ present latched

theorem resumeState_resumes (b : BranchNo) (s : State) :
    Branch.Resumes s.params s.rail.state (s.br b) ((resumeState b s).br b) := by
  unfold resumeState
  split
  case h_1 from_ => rw [State.updBranch_br_same]; exact .adopt (.inl from_)
  case h_2 from_ => rw [State.updBranch_br_same]; exact .adopt (.inr from_)
  case h_3 from_ => rw [State.updBranch_br_same]; exact .prime from_
  case h_4 from_ => rw [State.updBranch_br_same]; exact .shut (.inl from_)
  case h_5 from_ => rw [State.updBranch_br_same]; exact .shut (.inr from_)
  case h_6 from_ => rw [State.updBranch_br_same]; exact .drain from_
  case h_7 from_ => rw [State.updBranch_br_same]; exact .isolated from_
  all_goals
    rename_i from_
    exact resumeByContacts_resumes (by rw [from_]; rfl)

theorem resumeState_others (b : BranchNo) (s : State) : OthersKept s (resumeState b s) b := by
  intro d other
  have own : ∀ f, (s.updBranch b f).br d = s.br d := fun f => State.updBranch_br_ne _ _ _ other.symm
  unfold resumeState
  split
  case h_8 | h_9 | h_10 | h_11 =>
    unfold resumeByContacts
    split
    · exact own _
    · split
      · exact (enterHeld_branch b false s).2.2 d other
      · exact own _
  all_goals exact own _

theorem resumeState_rail (b : BranchNo) (s : State) : (resumeState b s).rail = s.rail := by
  unfold resumeState
  split
  case h_8 | h_9 | h_10 | h_11 =>
    unfold resumeByContacts
    split
    · rfl
    · split
      · exact (enterHeld_branch b false s).1
      · rfl
  all_goals rfl

/-! ## The contacts found open, and the set (R29) -/

/-- R29: a contact found open, where the dock state answers it with a cause new to the set. -/
def Branch.contactsAnswered (close : Option Nat) (ref : Option SlotNo) (lost : Bool) (x : Branch) : Branch :=
  match contactCause x.dock with
  | none => x
  | some c =>
    if ContactOpen x ∧ c ∉ x.causes then
      { Branch.respond close { x with causes := x.causes ++ [c] } with incident := ref, lost := lost }
    else x

/-- R29: the response to a set that is not empty. -/
def Branch.causesAnswered (close : Option Nat) (x : Branch) : Branch := if x.causes = [] then x else x.respond close

theorem contactCause_occupied {d : DockState} {c : BranchCause} (answers : contactCause d = some c) : d ≠ .vacant := by
  rintro rfl
  cases answers

theorem resumeContacts_answered (b : BranchNo) (s : State) : ∃ ref lost,
    (resumeContacts b s).br b = (s.br b).contactsAnswered (closeTimer s) ref lost := by
  unfold resumeContacts Branch.contactsAnswered
  cases answers : contactCause (s.br b).dock with
  | none => exact ⟨none, false, by simp⟩
  | some c =>
    have occupied := contactCause_occupied answers
    have open_iff : (!(s.br b).present || !(s.br b).latched) = true ↔ ContactOpen (s.br b) := by simp [ContactOpen]
    by_cases opened : ContactOpen (s.br b)
    · have taken : (contactOpened b s).br b = (addCauseCore b c true s).br b := by
        rw [contactOpened, answers]
        simp only [markHotPull_br, addBranchCause_of_occupied occupied]
      by_cases held : c ∈ (s.br b).causes
      · refine ⟨none, false, ?_⟩
        rw [if_pos (by rw [open_iff.2 opened]; rfl), taken, addCauseCore_of_mem b c true s held]
        simp [held]
      · refine ⟨((addCauseCore b c true s).br b).incident, ((addCauseCore b c true s).br b).lost, ?_⟩
        rw [if_pos (by rw [open_iff.2 opened]; rfl), taken]
        simp only [opened, held, not_false_eq_true, and_self, if_true]
        exact addCauseCore_br_same b c true s held
    · refine ⟨none, false, ?_⟩
      rw [if_neg (fun both => opened (open_iff.1 (by simp only [Bool.and_eq_true] at both; exact both.1)))]
      simp [opened]

theorem resumeContacts_others (b : BranchNo) (s : State) : OthersKept s (resumeContacts b s) b := by
  intro d other
  unfold resumeContacts
  split
  · unfold contactOpened
    split
    · rename_i c answers
      rw [markHotPull_br, addBranchCause_of_occupied (contactCause_occupied answers), addCauseCore_br_ne b c true s other.symm]
    · exact markHotPull_br ..
  · rfl

theorem resumeContacts_rail (b : BranchNo) (s : State) : (resumeContacts b s).rail = s.rail := by
  unfold resumeContacts
  split
  · exact contactOpened_rail ..
  · rfl

theorem resumeCauses_answered (b : BranchNo) (s : State) :
    (resumeCauses b s).br b = (s.br b).causesAnswered (closeTimer s) := by
  unfold resumeCauses Branch.causesAnswered
  simp only [List.isEmpty_iff]
  split
  · rfl
  · rw [State.updBranch_br_same]

theorem resumeCauses_others (b : BranchNo) (s : State) : OthersKept s (resumeCauses b s) b := by
  intro d other
  unfold resumeCauses
  split
  · rfl
  · exact State.updBranch_br_ne _ _ _ other.symm

theorem resumeDock_others (b : BranchNo) (s : State) : OthersKept s (resumeDock b s) b := fun d other =>
  (resumeCauses_others b _ d other).trans ((resumeContacts_others b _ d other).trans (resumeState_others b s d other))

theorem resumeDock_rail (b : BranchNo) (s : State) : (resumeDock b s).rail = s.rail := by
  have causes : ∀ u, (resumeCauses b u).rail = u.rail := fun u => by
    unfold resumeCauses
    split <;> rfl
  exact (causes _).trans ((resumeContacts_rail b _).trans (resumeState_rail b s))

/-- R28, R29: the turn of a bay on its record. -/
structure Branch.Turned (p : Params) (r : RailState) (x z : Branch) : Prop where
  steps : ∃ y ref lost, Branch.Resumes p r x y ∧
    z = (y.contactsAnswered (some (p.closeTime * 1000)) ref lost).causesAnswered (some (p.closeTime * 1000))

theorem resumeDock_turned (ready : s.loader.loading = false) (b : BranchNo) :
    Branch.Turned s.params s.rail.state (s.br b) ((resumeDock b s).br b) := by
  have kept := resumeState_endKept b s
  have timer : ∀ u, u.loader = s.loader → u.params = s.params → closeTimer u = some (s.params.closeTime * 1000) :=
    fun u loader params => by rw [closeTimer, loader, params, ready]; rfl
  have later : EndKept (resumeState b s) (resumeContacts b (resumeState b s)) := by
    unfold resumeContacts
    split
    · exact contactOpened_endKept ..
    · exact .refl _
  obtain ⟨ref, lost, answered⟩ := resumeContacts_answered b (resumeState b s)
  refine ⟨_, ref, lost, resumeState_resumes b s, ?_⟩
  rw [resumeDock, resumeCauses_answered, answered, timer _ kept.loader kept.params,
    timer _ (later.loader.trans kept.loader) (later.params.trans kept.params)]

/-! ## What a turn leaves and brings -/

theorem Branch.contactsAnswered_later (close : Option Nat) (ref : Option SlotNo) (lost : Bool) (x : Branch) :
    x.Later (x.contactsAnswered close ref lost) := by
  unfold Branch.contactsAnswered
  split
  · exact .refl x
  · rename_i c answers
    split
    · have joined : x.Later { x with causes := x.causes ++ [c] } :=
        { Branch.Later.refl x with causes := fun _ there => List.mem_append_left _ there }
      exact (joined.trans (Branch.later_respond close (contactCause_occupied answers))).trans (.of_same rfl)
    · exact .refl x

theorem Branch.causesAnswered_later (close : Option Nat) (occupied : x.dock ≠ .vacant) : x.Later (x.causesAnswered close) := by
  unfold Branch.causesAnswered
  split
  · exact .refl x
  · exact Branch.later_respond close occupied

/-- The answers leave an occupied record as causes do. -/
theorem Branch.answered_later (close : Option Nat) (ref : Option SlotNo) (lost : Bool) (occupied : x.dock ≠ .vacant) :
    x.Later ((x.contactsAnswered close ref lost).causesAnswered close) :=
  (Branch.contactsAnswered_later close ref lost x).trans
    (Branch.causesAnswered_later close ((Branch.contactsAnswered_later close ref lost x).vacant.not.2 occupied))

/-- What a turn keeps of the record: the limits, the marks of the Allocator, and the grant while the bay uses it. -/
structure Branch.TurnKept (x z : Branch) : Prop where
  limits : (z.tier, z.floor, z.cap, z.fopen) = (x.tier, x.floor, x.cap, x.fopen)
  restricted : x.restricted = none → z.restricted = none
  takeUp : x.takeUp = 0 → z.takeUp = 0
  grant : x.grant = 0 → z.grant = 0
  powered : x.request = x.floor → z.request = z.floor
  request : x.causes = [] ∨ x.dock = .isolating ∨ x.dock = .isolated → z.dock ≠ .vacant → z.request = x.request
  adopting : z.dock = .adopting → z.grant = x.grant
  priming : x.dock = .priming → z.dock ≠ .held ∧ z.dock ≠ .adopting ∧ (z.dock = .priming → z.grant = x.grant)

/-- A record that was not vacated: what the table of resumption kept, the answers keep. -/
theorem Branch.TurnKept.answered (kept : x.TurnKept y) (requested : y.request = x.request) (later : y.Later z) :
    x.TurnKept z := by
  have limits := later.limits
  simp only [Prod.mk.injEq] at limits
  obtain ⟨tier, floor, cap, fopen, request⟩ := limits
  exact
    { limits := by rw [tier, floor, cap, fopen, kept.limits]
      restricted := fun none => later.restricted (kept.restricted none)
      takeUp := fun none => later.takeUp (kept.takeUp none)
      grant := fun none => later.grant (kept.grant none)
      powered := fun e => by rw [request, floor, kept.powered e]
      request := fun _ _ => request.trans requested
      adopting := fun e => (later.adopting e).2.trans (kept.adopting (later.adopting e).1)
      priming := fun from_ => by
        obtain ⟨unheld, unadopted, same⟩ := kept.priming from_
        exact ⟨fun held => unheld (later.held held), fun e => unadopted (later.adopting e).1, fun e =>
          ((later.priming e).resolve_left unheld).2.trans (same ((later.priming e).resolve_left unheld).1)⟩ }

/-- A record whose limits, marks, grant and request stand, and PRIMING with them. -/
theorem Branch.turnKept_of_same
    (same : (y.tier, y.floor, y.cap, y.fopen, y.request, y.restricted, y.takeUp, y.grant) =
      (x.tier, x.floor, x.cap, x.fopen, x.request, x.restricted, x.takeUp, x.grant))
    (stays : x.dock = .priming → y.dock = .priming) : x.TurnKept y := by
  simp only [Prod.mk.injEq] at same
  obtain ⟨tier, floor, cap, fopen, request, restricted, takeUp, grant⟩ := same
  exact
    { limits := by rw [tier, floor, cap, fopen]
      restricted := fun none => restricted.trans none
      takeUp := fun none => takeUp.trans none
      grant := fun none => grant.trans none
      powered := fun e => by rw [request, floor, e]
      request := fun _ _ => request
      adopting := fun _ => grant
      priming := fun from_ => by
        rw [stays from_]
        exact ⟨nofun, nofun, fun _ => grant⟩ }

/-- The table of resumption vacates a bay, or keeps its request. -/
theorem Branch.Resumes.kept (h : Branch.Resumes p r x y) : x.TurnKept y ∧ y.request = x.request ∧ y.dock ≠ .vacant ∨
    x.dock.resting = true ∧ y = x.toVacant := by
  have unprimed : x.dock.resting = true → x.dock ≠ .priming := fun from_ e => by rw [e] at from_; cases from_
  cases h with
  | vacant from_ => exact .inr ⟨from_, rfl⟩
  | adopt from_ =>
    have unprimed : x.dock ≠ .priming := by rcases from_ with e | e <;> rw [e] <;> decide
    exact .inl ⟨Branch.turnKept_of_same rfl fun e => absurd e unprimed, rfl, by simp⟩
  | prime from_ => exact .inl ⟨Branch.turnKept_of_same rfl id, rfl, by simp [from_]⟩
  | shut from_ => exact .inl ⟨Branch.turnKept_of_same rfl id, rfl, by rcases from_ with e | e <;> simp [e]⟩
  | drain from_ => exact .inl ⟨Branch.turnKept_of_same rfl id, rfl, by simp [from_]⟩
  | isolated from_ => exact .inl ⟨Branch.turnKept_of_same rfl id, rfl, by simp [from_]⟩
  | seated from_ =>
    exact .inl ⟨Branch.turnKept_of_same rfl fun e => absurd e (unprimed from_), rfl, by simp [Branch.toSeated]⟩
  | held from_ => exact .inl ⟨Branch.turnKept_of_same rfl fun e => absurd e (unprimed from_), rfl, by simp [Branch.toHeld]⟩
  | primes from_ =>
    exact .inl ⟨Branch.turnKept_of_same rfl fun e => absurd e (unprimed from_), rfl, by simp [Branch.toPriming]⟩

theorem Branch.contactsAnswered_of_silent (silent : contactCause x.dock = none) (close : Option Nat) (ref : Option SlotNo)
    (lost : Bool) : x.contactsAnswered close ref lost = x := by
  rw [Branch.contactsAnswered, silent]

theorem Branch.contactsAnswered_of_shut (shut : ¬ContactOpen x) (close : Option Nat) (ref : Option SlotNo) (lost : Bool) :
    x.contactsAnswered close ref lost = x := by
  unfold Branch.contactsAnswered
  split
  · rfl
  · exact if_neg fun both => shut both.1

theorem Branch.causesAnswered_of_free (free : x.causes = []) (close : Option Nat) : x.causesAnswered close = x := if_pos free

/-- A bay vacated with causes in its set is isolated (R25, R29). -/
theorem Branch.turnKept_toVacant (from_ : x.dock.resting = true) (close : Option Nat) (ref : Option SlotNo) (lost : Bool) :
    x.TurnKept ((x.toVacant.contactsAnswered close ref lost).causesAnswered close) := by
  rw [Branch.contactsAnswered_of_silent (by rfl)]
  have outside : ∀ d : DockState, d.resting = false → x.dock ≠ d := fun d out e => by rw [e, out] at from_; cases from_
  have vacated : x.toVacant.dock = .vacant := rfl
  by_cases free : x.causes = []
  · rw [Branch.causesAnswered_of_free (x := x.toVacant) free]
    exact ⟨rfl, fun _ => rfl, fun _ => rfl, id, fun _ => rfl, fun _ occupied => absurd vacated occupied,
      fun _ => rfl, fun e => absurd e (outside _ rfl)⟩
  · have isolated : x.toVacant.causesAnswered close = x.toVacant.toIsolated := if_neg free
    rw [isolated]
    exact ⟨rfl, fun _ => rfl, fun _ => rfl, id, fun _ => rfl,
      fun from' => absurd from' (by simp [free, outside .isolating rfl, outside .isolated rfl]), fun _ => rfl,
      fun e => absurd e (outside _ rfl)⟩

theorem Branch.Turned.kept (h : Branch.Turned p r x z) : x.TurnKept z := by
  obtain ⟨y, ref, lost, resumes, rfl⟩ := h.steps
  obtain ⟨kept, requested, occupied⟩ | ⟨from_, rfl⟩ := resumes.kept
  · exact kept.answered requested (Branch.answered_later _ ref lost occupied)
  · exact Branch.turnKept_toVacant from_ ..

end

end Sys2Proof.Machine
end

section
/-! SUPPORT. What the turn of a bay brings at the end of a loading, in each dock state (R28, R29). -/

namespace Sys2Proof.Machine

open Sys2Proof Sys2Proof.Safety

section
variable {s t u : State} {b d : BranchNo} {x y z : Branch} {p : Params} {r : RailState} {close : Option Nat}
  {ref : Option SlotNo} {lost : Bool} {c : BranchCause}

/-! ## The answers, from each record they meet -/

/-- Both contacts closed, or no answer to one, and no cause: the record stands. -/
theorem Branch.answered_of_quiet (free : x.causes = []) (quiet : ¬ContactOpen x ∨ contactCause x.dock = none) :
    (x.contactsAnswered close ref lost).causesAnswered close = x := by
  obtain shut | silent := quiet
  · rw [Branch.contactsAnswered_of_shut shut, Branch.causesAnswered_of_free free]
  · rw [Branch.contactsAnswered_of_silent silent, Branch.causesAnswered_of_free free]

theorem Branch.respond_of_closed (closed : x.dock = .isolating ∨ x.dock = .isolated) (close : Option Nat) :
    x.respond close = x := by
  unfold Branch.respond
  rcases closed with e | e <;> rw [e]

/-- In ISOLATING and ISOLATED the answers leave the dock state and its timer. -/
theorem Branch.answered_of_closed (closed : x.dock = .isolating ∨ x.dock = .isolated) :
    ((x.contactsAnswered close ref lost).causesAnswered close).dock = x.dock ∧
      ((x.contactsAnswered close ref lost).causesAnswered close).dockTimer = x.dockTimer := by
  have contacts : (x.contactsAnswered close ref lost).dock = x.dock ∧
      (x.contactsAnswered close ref lost).dockTimer = x.dockTimer := by
    unfold Branch.contactsAnswered
    split
    · exact ⟨rfl, rfl⟩
    · split
      · rw [Branch.respond_of_closed (by exact closed)]
        exact ⟨rfl, rfl⟩
      · exact ⟨rfl, rfl⟩
  unfold Branch.causesAnswered
  split
  · exact contacts
  · rw [Branch.respond_of_closed (by rwa [contacts.1])]
    exact contacts

/-- The bay as a contact found open leaves it: it has answered the cause with the timer `close`. -/
theorem Branch.answered_of_opened (free : x.causes = []) (opened : ContactOpen x) (answers : contactCause x.dock = some c) :
    let z := (x.contactsAnswered close ref lost).causesAnswered close
    z.dock = isolatedFrom x.dock ∧ z.causes = [c] ∧ z.dockTimer = (x.respond close).dockTimer ∧
      z.grant = (x.respond close).grant := by
  intro z
  have contacts : x.contactsAnswered close ref lost =
      { Branch.respond close { x with causes := [c] } with incident := ref, lost := lost } := by
    unfold Branch.contactsAnswered
    simp only [answers, opened, free, List.not_mem_nil, not_false_eq_true, and_self, if_true, List.nil_append]
  have again : z = x.contactsAnswered close ref lost := by
    have held : (x.contactsAnswered close ref lost).causes = [c] := by simp [contacts]
    have closed : (x.contactsAnswered close ref lost).dock = isolatedFrom x.dock := by
      rw [contacts]
      exact Branch.respond_dock_eq ..
    refine (if_neg (by simp [held])).trans (Branch.respond_of_closed ?_ close)
    rw [closed]
    cases x.dock <;> decide
  rw [again, contacts]
  obtain ⟨dock⟩ := x
  refine ⟨Branch.respond_dock_eq .., Branch.respond_causes .., ?_, ?_⟩ <;> cases dock <;> rfl

/-! ## The bay in its resumed state (R29) -/

theorem Branch.Resumes.same (h : Branch.Resumes p r x y) :
    y.causes = x.causes ∧ y.present = x.present ∧ y.latched = x.latched := by
  cases h <;> exact ⟨rfl, rfl, rfl⟩

/-- R29: what a bay that answers an open contact from ISOLATING does with HOT_PULL. -/
abbrev HotPulled (p : Params) (x z : Branch) : Prop :=
  z.dock = .isolating ∧ z.dockTimer = some (p.closeTime * 1000) ∧ z.causes = [.hotPull] ∧
    (x.dock.participating = true → z.grant = 0)

/-- R17 to R26: the dock states that answer an open contact with HOT_PULL. -/
theorem contactCause_hotPull {d : DockState} (answers : contactCause d = some .hotPull) :
    isolatedFrom d = .isolating ∧ (d.participating = true ∨ d.participating = false ∧ (d = .releasing ∨ d = .isolating)) := by
  revert answers
  cases d <;> decide

theorem Branch.answered_hotPull (free : y.causes = []) (opened : ContactOpen y) (answers : contactCause y.dock = some .hotPull)
    (timer : y.dock.participating = false → y.dockTimer = some (p.closeTime * 1000))
    (before : x.dock.participating = true → y.dock.participating = true) :
    HotPulled p x ((y.contactsAnswered (some (p.closeTime * 1000)) ref lost).causesAnswered (some (p.closeTime * 1000))) := by
  obtain ⟨dock, causes, timer', grant⟩ := Branch.answered_of_opened (close := some (p.closeTime * 1000)) (ref := ref)
    (lost := lost) free opened answers
  obtain ⟨isolating, from_⟩ := contactCause_hotPull answers
  refine ⟨dock.trans isolating, timer'.trans ?_, causes, fun participates => ?_⟩
  · obtain participates | ⟨out, closing⟩ := from_
    · exact (Branch.respond_of_participating participates).2.2
    · rw [Branch.respond_dockTimer_of_closing closing, timer out]
  · rw [grant]
    exact (Branch.respond_of_participating (before participates)).1

/-- R28, R29: the dock state and the dock timer that the table of resumption gives. -/
def Branch.resumesTo (p : Params) (x : Branch) : DockState × Option Nat :=
  match x.dock with
  | .admitted | .adopting => (.adopting, none)
  | .priming => (.priming, some (p.primeTimeout * 1000))
  | .releasing => (.releasing, some (p.closeTime * 1000))
  | .isolating => (.isolating, some (p.closeTime * 1000))
  | .draining => (.draining, some (p.drainLimit * 1000))
  | .isolated => (.isolated, none)
  | .vacant | .seated | .held | .pullReady =>
    if x.present = false then (.vacant, none)
    else if x.latched = false then (.seated, none)
    else (.held, if x.hold = true ∨ p.seatSettle = 0 then none else some (p.seatSettle * 1000))

theorem Branch.resumesTo_of_resting (p : Params) (from_ : x.dock.resting = true) : x.resumesTo p =
    if x.present = false then (.vacant, none)
    else if x.latched = false then (.seated, none)
    else (.held, if x.hold = true ∨ p.seatSettle = 0 then none else some (p.seatSettle * 1000)) := by
  unfold Branch.resumesTo
  cases e : x.dock <;> first | rfl | (rw [e] at from_; cases from_)

/-- A bay that can prime at once: nothing holds it in HELD. -/
abbrev PrimesAtOnce (p : Params) (x : Branch) : Prop :=
  x.dock.resting = true ∧ x.present = true ∧ x.latched = true ∧ x.hold = false ∧ p.seatSettle = 0

theorem Branch.Resumes.placed (h : Branch.Resumes p r x y) (waits : ¬PrimesAtOnce p x) :
    (y.dock, y.dockTimer) = x.resumesTo p := by
  cases h with
  | adopt from_ => rcases from_ with e | e <;> rw [Branch.resumesTo, e] <;> rfl
  | prime from_ => rw [Branch.resumesTo, from_]
  | shut from_ => rcases from_ with e | e <;> rw [Branch.resumesTo, e]
  | drain from_ => rw [Branch.resumesTo, from_]
  | isolated from_ => rw [Branch.resumesTo, from_]
  | vacant from_ away =>
    rw [Branch.resumesTo_of_resting p from_, if_pos away]
    rfl
  | seated from_ present unlatched =>
    rw [Branch.resumesTo_of_resting p from_, if_neg (by simp [present]), if_pos unlatched]
    rfl
  | held from_ present latched =>
    rw [Branch.resumesTo_of_resting p from_, if_neg (by simp [present]), if_neg (by simp [latched])]
    simp [Branch.toHeld]
  | primes from_ present latched free settled => exact absurd ⟨from_, present, latched, free, settled⟩ waits

/-- R29: the dock states that resume in one that answers an open contact with HOT_PULL. -/
theorem Branch.resumesTo_of_active (p : Params)
    (active : x.dock ∈ [DockState.admitted, .adopting, .priming, .releasing, .isolating]) :
    x.dock.resting = false ∧ contactCause (x.resumesTo p).1 = some .hotPull ∧
      ((x.resumesTo p).1.participating = false → (x.resumesTo p).2 = some (p.closeTime * 1000)) ∧
      (x.dock.participating = true → (x.resumesTo p).1.participating = true) := by
  unfold Branch.resumesTo
  simp only [List.mem_cons, List.not_mem_nil, or_false] at active
  rcases active with e | e | e | e | e <;> rw [e] <;>
    exact ⟨rfl, rfl, by simp [DockState.participating], by simp [DockState.participating]⟩

theorem not_primesAtOnce {d : DockState} (e : x.dock = d) (out : d.resting = false) : ¬PrimesAtOnce p x := fun ⟨from_, _⟩ => by
  rw [e, out] at from_
  cases from_

/-- R29: how a bay stands after its turn. -/
theorem Branch.Turned.bayResumes (h : Branch.Turned t.params r (s.br b) (t.br b)) : BayResumes s t b := by
  obtain ⟨y, ref, lost, resumes, result⟩ := h.steps
  obtain ⟨causes, present, latched⟩ := resumes.same
  have contact : ContactOpen y ↔ ContactOpen (s.br b) := by rw [ContactOpen, present, latched]
  have placed : ¬PrimesAtOnce t.params (s.br b) → ∀ {d timer}, (s.br b).resumesTo t.params = (d, timer) →
      y.dock = d ∧ y.dockTimer = timer := fun waits {d timer} at' => Prod.mk.inj ((resumes.placed waits).trans at')
  have quiet : (s.br b).causes = [] → ¬ContactOpen (s.br b) ∨ contactCause y.dock = none → t.br b = y := fun free silent =>
    result.trans (Branch.answered_of_quiet (causes.trans free) (silent.imp_left contact.not.2))
  refine ⟨fun closed _ => ?_, fun free => ⟨fun shut => ?_, fun opened => ⟨fun active => ?_, fun draining => ?_⟩,
    fun rest => ?_⟩⟩
  · simp only [List.mem_cons, List.not_mem_nil, or_false] at closed
    have at' : y.dock = (s.br b).dock ∧
        y.dockTimer = if (s.br b).dock = .isolating then some (t.params.closeTime * 1000) else none := by
      rcases closed with e | e <;> rw [e] <;> exact placed (not_primesAtOnce e rfl) (by rw [Branch.resumesTo, e]; rfl)
    have stands := Branch.answered_of_closed (close := some (t.params.closeTime * 1000)) (ref := ref) (lost := lost)
      (x := y) (by rwa [at'.1])
    rw [result, stands.1, stands.2]
    exact at'
  · rw [quiet free (.inl shut)]
    refine ⟨fun e => ?_, fun e => ?_, fun e => ?_, fun e => ?_, fun e => ?_⟩
    · simp only [List.mem_cons, List.not_mem_nil, or_false] at e
      rcases e with e | e <;> exact placed (not_primesAtOnce e rfl) (by rw [Branch.resumesTo, e])
    all_goals exact placed (not_primesAtOnce e rfl) (by rw [Branch.resumesTo, e])
  · obtain ⟨out, answers, timer, before⟩ := Branch.resumesTo_of_active t.params active
    obtain ⟨dock, timed⟩ := placed (not_primesAtOnce rfl out) (Prod.mk.eta).symm
    rw [← dock] at answers timer before
    rw [← timed] at timer
    rw [result]
    obtain ⟨isolating, timer, causes, grant⟩ := Branch.answered_hotPull (x := s.br b) (ref := ref) (lost := lost)
      (causes.trans free) (contact.2 opened) answers timer before
    exact ⟨⟨isolating, timer⟩, causes, grant⟩
  · obtain ⟨dock, -⟩ := placed (not_primesAtOnce draining rfl) (by rw [Branch.resumesTo, draining])
    obtain ⟨isolated, causes, timer, -⟩ := Branch.answered_of_opened (close := some (t.params.closeTime * 1000)) (ref := ref)
      (lost := lost) (c := .earlyPull) (causes.trans free) (contact.2 opened) (by rw [dock]; rfl)
    rw [result]
    refine ⟨⟨isolated.trans (by rw [dock]; rfl), timer.trans ?_⟩, causes⟩
    rw [Branch.respond, dock]
    rfl
  · have resting : (s.br b).dock.resting = true := by
      simp only [List.mem_cons, List.not_mem_nil, or_false] at rest
      rcases rest with e | e | e | e <;> rw [e] <;> rfl
    have table := Branch.resumesTo_of_resting t.params resting
    refine ⟨fun away => ?_, fun here unlatched => ?_, fun here closed hold => ?_, fun here closed hold settle => ?_⟩
    · have now := placed (fun ⟨_, present, _⟩ => absurd (away.symm.trans present) (by decide)) (table.trans (if_pos away))
      rwa [quiet free (.inr (by rw [now.1]; rfl))]
    · have now := placed (fun ⟨_, _, latched, _⟩ => absurd (unlatched.symm.trans latched) (by decide))
        (table.trans ((if_neg (by simp [here])).trans (if_pos unlatched)))
      rwa [quiet free (.inr (by rw [now.1]; rfl))]
    · rw [quiet free (.inl (by simp [ContactOpen, here, closed]))]
      refine placed (fun ⟨_, _, _, unheld, _⟩ => absurd (hold.symm.trans unheld) (by decide)) (table.trans ?_)
      rw [if_neg (by simp [here]), if_neg (by simp [closed]), if_pos (.inl hold)]
    · rw [quiet free (.inl (by simp [ContactOpen, here, closed]))]
      refine placed (fun ⟨_, _, _, _, settled⟩ => settle settled) (table.trans ?_)
      rw [if_neg (by simp [here]), if_neg (by simp [closed]), if_neg (by simp [hold, settle])]

/-- R13, R29: a bay that stands in HELD with its clearance set is one that nothing holds there. -/
theorem Branch.Turned.waits (h : Branch.Turned p r x z) (held : z.dock = .held) (cleared : z.clearance = true) :
    PrimesAtOnce p x := by
  obtain ⟨y, ref, lost, resumes, rfl⟩ := h.steps
  have at' : y.dock = .held ∧ (y.contactsAnswered (some (p.closeTime * 1000)) ref lost).causesAnswered
      (some (p.closeTime * 1000)) = y := by
    have silent : y.dock = .held → y.contactsAnswered (some (p.closeTime * 1000)) ref lost = y := fun e =>
      Branch.contactsAnswered_of_silent (by rw [e]; rfl) ..
    unfold Branch.causesAnswered at held ⊢
    split at held
    case isTrue free =>
      have before := (Branch.contactsAnswered_later _ ref lost y).held held
      rw [if_pos free]
      exact ⟨before, silent before⟩
    case isFalse =>
      rw [Branch.respond_dock_eq] at held
      cases e : (y.contactsAnswered (some (p.closeTime * 1000)) ref lost).dock <;> rw [e] at held <;> cases held
  obtain ⟨dock, same⟩ := at'
  rw [same] at cleared
  cases resumes with
  | held from_ present latched =>
    simp only [Branch.toHeld, Bool.false_or, Bool.and_eq_true, Bool.not_eq_true', beq_iff_eq] at cleared
    exact ⟨from_, present, latched, cleared.1, cleared.2⟩
  | adopt => cases dock
  | prime from_ => cases from_.symm.trans dock
  | shut from_ => rcases from_ with e | e <;> cases e.symm.trans dock
  | drain from_ => cases from_.symm.trans dock
  | isolated from_ => cases from_.symm.trans dock
  | vacant => cases dock
  | seated => cases dock
  | primes => cases dock

/-- R28: a bay found VACANT with no cause while the rail is not OPEN. -/
theorem Branch.Turned.starts (h : Branch.Turned p r x z) (shut : r ≠ .opened) (vacant : x.dock = .vacant)
    (free : x.causes = []) : z.causes = [] ∧ (x.present = false → z.dock = .vacant) ∧
      (x.present = true → z.dock = .seated ∨ z.dock = .held) := by
  obtain ⟨y, ref, lost, resumes, rfl⟩ := h.steps
  have causes := resumes.same.1.trans free
  cases resumes with
  | vacant from_ away =>
    rw [Branch.answered_of_quiet causes (.inr rfl)]
    exact ⟨causes, fun _ => rfl, fun here => absurd (away.symm.trans here) (by decide)⟩
  | seated from_ present =>
    rw [Branch.answered_of_quiet causes (.inr rfl)]
    exact ⟨causes, fun away => absurd (away.symm.trans present) (by decide), fun _ => .inl rfl⟩
  | held from_ present =>
    rw [Branch.answered_of_quiet causes (.inr rfl)]
    exact ⟨causes, fun away => absurd (away.symm.trans present) (by decide), fun _ => .inr rfl⟩
  | primes _ _ _ _ _ opened => exact absurd opened shut
  | adopt from_ => rcases from_ with e | e <;> cases e.symm.trans vacant
  | prime from_ => cases from_.symm.trans vacant
  | shut from_ => rcases from_ with e | e <;> cases e.symm.trans vacant
  | drain from_ => cases from_.symm.trans vacant
  | isolated from_ => cases from_.symm.trans vacant

end

end Sys2Proof.Machine
end

section
/-! SUPPORT. What the blocks of the settings image give (11.4), and the state once every block has taken up its values. -/

namespace Sys2Proof.Machine

open Sys2Proof Sys2Proof.Safety

section
variable {s t u : State} {b d : BranchNo} {blocks : List (List Byte)} {reason : EndReason} {defaulted : Bool}

/-! ## The parameters (R43, R73, R175) -/

theorem parkBranchOf_val (n : Nat) : (parkBranchOf n).val = orDefault 0 11 0 n := by
  unfold parkBranchOf orDefault
  split <;> rename_i h
  · rw [if_pos ⟨Nat.zero_le n, Nat.lt_succ_iff.1 h⟩]
  · rw [if_neg fun range => h (Nat.lt_succ_iff.2 range.2)]
    rfl

theorem loadedParams_block0 (blocks : List (List Byte)) : Block0Gives blocks[0]? (loadedParams blocks) := by
  unfold loadedParams
  generalize blocks[3]? = third
  generalize blocks[0]? = first
  refine ⟨?_, ?_⟩
  · rintro rfl
    cases third <;> rfl
  · rintro y rfl
    cases third <;>
      exact ⟨rfl, rfl, rfl, rfl, parkBranchOf_val _, rfl, rfl, rfl, rfl, rfl, rfl, rfl, rfl, rfl, rfl, rfl, rfl, rfl, rfl, rfl,
        rfl, rfl, rfl, rfl, rfl, rfl, rfl, rfl, rfl, rfl⟩

theorem loadedLimits_block1 (blocks : List (List Byte)) (b : BranchNo) {x : Branch}
    (loaded : (x.tier, x.floor, x.cap, x.fopen) = ((loadedLimits blocks b).tier, (loadedLimits blocks b).floor,
      (loadedLimits blocks b).cap, (loadedLimits blocks b).fopen)) : Block1Gives blocks[1]? b x := by
  unfold loadedLimits at loaded
  generalize blocks[1]? = second at loaded
  simp only [Prod.mk.injEq] at loaded
  obtain ⟨tier, floor, cap, fopen⟩ := loaded
  refine ⟨?_, ?_⟩
  · rintro rfl
    exact ⟨tier, floor, cap, fopen⟩
  · rintro y rfl
    exact ⟨fopen, cap, by rw [cap]; exact floor, tier⟩

theorem loadedParams_block3 (blocks : List (List Byte)) {v : ValveUnit} (fopen : v.bypassFopen = loadedBypassFopen blocks)
    (polarity : v.polarityNext = loadedPolarity blocks) : Block3Gives blocks[3]? (loadedParams blocks) v := by
  unfold loadedBypassFopen at fopen
  unfold loadedPolarity at polarity
  unfold loadedParams
  generalize blocks[3]? = third at *
  generalize blocks[0]? = first
  refine ⟨?_, ?_⟩
  · rintro rfl
    cases first <;> exact ⟨rfl, rfl, rfl, fopen, polarity⟩
  · rintro y rfl
    refine ⟨rfl, rfl, rfl, fopen, fun c low => ?_⟩
    rw [polarity]
    simp only [withBlock, BitVec.getLsbD_ofNat, low, decide_true, Bool.true_and]

theorem loadedK_block2 (blocks : List (List Byte)) (c : ChannelNo) : (blocks[2]? = none → loadedK blocks c = 2400) ∧
    ∀ y, blocks[2]? = some y → loadedK blocks c = orDefault 100 20000 2400 (numberAt y (2 * c.val) 2) := by
  unfold loadedK
  generalize blocks[2]? = z
  exact ⟨by rintro rfl; rfl, by rintro y rfl; rfl⟩

/-! ## The values taken (R74, R75, R175) -/

theorem valuesTaken_frame (blocks : List (List Byte)) (reason : EndReason) (defaulted : Bool) (s : State) :
    valuesTaken blocks reason defaulted s = { s with
      loader := { s.loader with
        loading := false
        next := 0
        taken := []
        blocksTaken := blocks.length
        endReason := reason
        defaulted := defaulted }
      params := loadedParams blocks
      branches := (valuesTaken blocks reason defaulted s).branches
      meter := (valuesTaken blocks reason defaulted s).meter
      valves := { s.valves with
        bypassFopen := loadedBypassFopen blocks
        polarity := if s.loader.afterPowerOn then loadedPolarity blocks else s.valves.polarity
        polarityNext := loadedPolarity blocks
        driven := true }
      alloc := { s.alloc with
        age := 0
        ageState := .fresh
        suspended := decide (s.loader.afterPowerOn = false ∧ .plantStop ∈ s.rail.causes) } } := by
  have suspended : (!s.loader.afterPowerOn && s.rail.causes.contains .plantStop) =
      decide (s.loader.afterPowerOn = false ∧ .plantStop ∈ s.rail.causes) := by
    rw [Bool.eq_iff_iff]
    simp
  rw [← suspended]
  rfl

theorem valuesTaken_br (blocks : List (List Byte)) (reason : EndReason) (defaulted : Bool) (s : State) (b : BranchNo) :
    (valuesTaken blocks reason defaulted s).br b =
      if s.loader.afterPowerOn then (s.br b).loadPowerOn (loadedLimits blocks b)
      else (s.br b).loadWarm (loadedParams blocks).primeFlow (loadedLimits blocks b) := takeValues_br ..

theorem valuesTaken_meter (blocks : List (List Byte)) (reason : EndReason) (defaulted : Bool) (s : State) :
    (valuesTaken blocks reason defaulted s).meter.windowTimer = some (loadedParams blocks).windowLength ∧
      (valuesTaken blocks reason defaulted s).meter.snap = s.meter.snap ∧
      ∀ c, (valuesTaken blocks reason defaulted s).channel c = { s.channel c with
        last := some (s.pins.pickA.getLsbD c.val, s.pins.pickB.getLsbD c.val)
        acc := 0
        qerr := false
        overrange := false
        k := loadedK blocks c } := by
  refine ⟨rfl, rfl, fun c => ?_⟩
  simp only [valuesTaken, startAge, startCounting, takeValues, State.channel, State.updAlloc, State.updMeter, State.updLoader,
    pick_channelTable, pairAt]

end

end Sys2Proof.Machine
end

section
/-! PROOF. A settings block is taken, ends the loading, or is defaulted, and what the end of a loading brings (O42). -/

namespace Sys2Proof.Machine

open Sys2Proof Sys2Proof.Safety

section
variable {s t u v m : State} {b d : BranchNo} {n : StripNo} {blocks : List (List Byte)} {reason : EndReason}
  {defaulted dripFirst : Bool}

/-! ## The bays, the rail and the strips in turn (R28, R29, R142) -/

theorem baysResumed_endKept (blocks : List (List Byte)) (reason : EndReason) (defaulted : Bool) (s : State) :
    EndKept (valuesTaken blocks reason defaulted s) (baysResumed blocks reason defaulted s) :=
  forBranches_endKept resumeDock_endKept _

theorem baysResumed_rail (blocks : List (List Byte)) (reason : EndReason) (defaulted : Bool) (s : State) :
    (baysResumed blocks reason defaulted s).rail = s.rail :=
  forBranches_keeps (fun s : State => s.rail) resumeDock resumeDock_rail _

/-- Each bay takes its turn on the record that the values left. -/
theorem baysResumed_turned (blocks : List (List Byte)) (reason : EndReason) (defaulted : Bool) (s : State) (b : BranchNo) :
    Branch.Turned (loadedParams blocks) s.rail.state ((valuesTaken blocks reason defaulted s).br b)
      ((baysResumed blocks reason defaulted s).br b) := by
  have frame := valuesTaken_frame blocks reason defaulted s
  unfold baysResumed
  generalize valuesTaken blocks reason defaulted s = v at frame ⊢
  have params : v.params = loadedParams blocks := by rw [frame]
  have ready : v.loader.loading = false := by rw [frame]
  have rail : v.rail = s.rail := by rw [frame]
  rw [← params, ← rail]
  refine forBranches_turn (keeps := fun u => EndKept v u ∧ u.rail = v.rail) (fresh := fun d u => u.br d = v.br d)
    (Q := fun d u => Branch.Turned v.params v.rail.state (v.br d) (u.br d)) ⟨.refl v, rfl⟩
    (fun d u kept => ⟨kept.1.trans (resumeDock_endKept d u), (resumeDock_rail d u).trans kept.2⟩) (fun _ => rfl)
    (fun d u e _ other fresh => (resumeDock_others d u e other.symm).trans fresh) (fun d u kept fresh => ?_)
    (fun d u e _ other turned => ?_) b
  · have turned := resumeDock_turned (s := u) (by rw [kept.1.loader, ready]) d
    rwa [kept.1.params, kept.2, fresh] at turned
  · rw [resumeDock_others d u e other.symm]
    exact turned

/-- The state before the enables and the duties at the end of a loading. -/
def railResumed (blocks : List (List Byte)) (reason : EndReason) (defaulted dripFirst : Bool) (s : State) : State :=
  resumeIsolationAndStrips dripFirst (alignRail (baysResumed blocks reason defaulted s))

/-- What follows: the enables, the duties, the gates, and SETTINGS_DONE. -/
def loadingDone (m : State) : State := raiseSup .settingsDone 0 (gateAll (resumeDuties (resumeEnables m)))

theorem endLoading_done (blocks : List (List Byte)) (reason : EndReason) (defaulted dripFirst : Bool) (s : State) :
    endLoading blocks reason defaulted dripFirst s = loadingDone (railResumed blocks reason defaulted dripFirst s) :=
  endLoading_eq ..

theorem railResumed_endKept (blocks : List (List Byte)) (reason : EndReason) (defaulted dripFirst : Bool) (s : State) :
    EndKept (valuesTaken blocks reason defaulted s) (railResumed blocks reason defaulted dripFirst s) :=
  ((baysResumed_endKept blocks reason defaulted s).trans (alignRail_endKept _)).trans
    (resumeIsolationAndStrips_endKept dripFirst _)

theorem railResumed_later (blocks : List (List Byte)) (reason : EndReason) (defaulted dripFirst : Bool) (s : State) :
    BaysLater (baysResumed blocks reason defaulted s) (railResumed blocks reason defaulted dripFirst s) :=
  (alignRail_later _).trans (resumeIsolationAndStrips_later dripFirst _)

/-! ## The enables, the duties and the gates (R87, R90, R91, R13) -/

/-- R87: the end of a power-on loading sets the enables 0 to 12 unless the trip level is ASSERTED. -/
abbrev SetsEnables (m : State) : Prop := m.loader.afterPowerOn = true ∧ m.iso.tripAsserted = false

theorem resumeEnables_br (m : State) (b : BranchNo) : (resumeEnables m).br b =
    if SetsEnables m then { m.br b with enable := true } else m.br b := by
  unfold resumeEnables SetsEnables
  dsimp only
  cases m.loader.afterPowerOn with
  | false => rfl
  | true =>
    rw [if_pos rfl]
    cases tripped : m.iso.tripAsserted with
    | true => simp [tripped]
    | false =>
      simp only [State.updValves_iso, tripped, Bool.false_eq_true, if_false, and_self, if_true]
      exact setEnables_br ..

theorem resumeEnables_frame (m : State) : resumeEnables m = { m with
    branches := (resumeEnables m).branches
    valves := { m.valves with
      bypassEnable := if m.loader.afterPowerOn = true then true else m.valves.bypassEnable
      railEnable := if SetsEnables m then true else m.valves.railEnable } } := by
  unfold resumeEnables SetsEnables
  dsimp only
  cases power : m.loader.afterPowerOn with
  | false => simp
  | true =>
    rw [if_pos rfl]
    cases tripped : m.iso.tripAsserted with
    | true => simp [tripped, State.updValves]
    | false => simp [tripped, State.updValves, setEnables, State.mapBranches]

theorem loadingDone_frame (m : State) : loadingDone m = { m with
    branches := (loadingDone m).branches
    attn := (loadingDone m).attn
    valves := { m.valves with
      bypassEnable := if m.loader.afterPowerOn = true then true else m.valves.bypassEnable
      railEnable := if SetsEnables m then true else m.valves.railEnable
      railCommanded := railDuty m.rail.state
      bypassCommanded := bypassDuty m.alloc.bypassTarget m.valves.bypassFopen } } := by
  have enables := resumeEnables_frame m
  obtain ⟨branches, attn, gated⟩ := gateAll_baysOnly (resumeDuties (resumeEnables m))
  unfold loadingDone
  rw [gated]
  generalize resumeEnables m = e at enables ⊢
  rw [enables]
  rfl

/-- The record of a bay as the enables and the duties leave it. -/
theorem resumeDuties_enables_br (m : State) (b : BranchNo) : (resumeDuties (resumeEnables m)).br b =
    ((if SetsEnables m then { m.br b with enable := true } else m.br b) : Branch).redrive := by
  rw [resumeDuties_br, resumeEnables_br]

theorem loadingDone_br (m : State) (b : BranchNo) : (loadingDone m).br b =
    if gateOpen (resumeDuties (resumeEnables m)) b = true then
      ((resumeDuties (resumeEnables m)).br b).toPriming m.params
    else (resumeDuties (resumeEnables m)).br b := by
  have params : (resumeDuties (resumeEnables m)).params = m.params := by
    rw [show (resumeDuties (resumeEnables m)).params = (resumeEnables m).params from rfl, resumeEnables_frame]
  rw [loadingDone, ← params]
  generalize resumeDuties (resumeEnables m) = u
  have told : (raiseSup .settingsDone 0 (gateAll u)).br b = (gateAll u).br b :=
    congrArg (Vec.pick · b) (raiseSup_branches ..)
  rw [told, gateAll_br]

theorem loadingDone_later (m : State) : BaysLater m (loadingDone m) := by
  have gated := ((resumeEnables_later m).trans (resumeDuties_later _)).trans (gateAll_later _)
  unfold loadingDone
  generalize gateAll (resumeDuties (resumeEnables m)) = g at gated ⊢
  exact gated.trans (.of_branches rfl)

theorem loadingDone_grows (m : State) : AttnGrows m (loadingDone m) := by
  have before : AttnGrows m (gateAll (resumeDuties (resumeEnables m))) := .of_attn (by
    rw [gateAll_attn, show (resumeDuties (resumeEnables m)).attn = (resumeEnables m).attn from rfl, resumeEnables_frame])
  exact before.trans (raiseSup_grows ..)

theorem loadingDone_commanded (m : State) (b : BranchNo) : ((loadingDone m).br b).commanded = ((loadingDone m).br b).duty := by
  rw [loadingDone_br]
  split
  · exact (Branch.redrive_driven _).1
  · rw [resumeDuties_br]
    exact (Branch.redrive_driven _).1

theorem loadingDone_enable (m : State) (b : BranchNo) :
    ((loadingDone m).br b).enable = if SetsEnables m then true else (m.br b).enable := by
  have driven : ((resumeDuties (resumeEnables m)).br b).enable = if SetsEnables m then true else (m.br b).enable := by
    rw [resumeDuties_enables_br]
    split <;> rfl
  rw [loadingDone_br]
  split
  · exact driven
  · exact driven

/-- A bay that no gate lets prime stands as it was. -/
theorem loadingDone_stands (waits : m.rail.state ≠ .opened ∨ ¬((m.br b).dock = .held ∧ (m.br b).clearance = true)) :
    ((loadingDone m).br b).dock = (m.br b).dock ∧ ((loadingDone m).br b).dockTimer = (m.br b).dockTimer ∧
      ((loadingDone m).br b).causes = (m.br b).causes ∧ ((loadingDone m).br b).grant = (m.br b).grant := by
  have bay := resumeDuties_enables_br m b
  have rail : (resumeDuties (resumeEnables m)).rail = m.rail := by
    rw [show (resumeDuties (resumeEnables m)).rail = (resumeEnables m).rail from rfl, resumeEnables_frame]
  rw [loadingDone_br, if_neg, bay]
  · split <;> exact ⟨rfl, rfl, rfl, rfl⟩
  · rw [gateOpen_iff, bay, rail]
    rintro ⟨held, cleared, opened, -⟩
    obtain shut | unheld := waits
    · exact shut opened
    · refine unheld ⟨?_, ?_⟩
      · split at held <;> exact held
      · split at cleared <;> exact cleared

/-! ## The settings and the Allocator's fields (R74, R75, R78) -/

theorem valuesTaken_limits (blocks : List (List Byte)) (reason : EndReason) (defaulted : Bool) (s : State) (b : BranchNo) :
    let x := (valuesTaken blocks reason defaulted s).br b
    (x.tier, x.floor, x.cap, x.fopen) = ((loadedLimits blocks b).tier, (loadedLimits blocks b).floor,
      (loadedLimits blocks b).cap, (loadedLimits blocks b).fopen) ∧ x.restricted = none ∧ x.takeUp = 0 ∧
      (x.dock, x.causes, x.hold, x.wires) = ((s.br b).dock, (s.br b).causes, (s.br b).hold, (s.br b).wires) := by
  intro x
  have loaded : x = _ := valuesTaken_br blocks reason defaulted s b
  rw [loaded]
  split <;> exact ⟨rfl, rfl, rfl, rfl⟩

/-- A bay's record from the values to the end: the turn, and what comes later. -/
structure Branch.Ends (x z : Branch) : Prop where
  steps : ∃ y, x.TurnKept y ∧ y.Later z

theorem endLoading_ends (blocks : List (List Byte)) (reason : EndReason) (defaulted dripFirst : Bool) (s : State)
    (b : BranchNo) : Branch.Ends ((valuesTaken blocks reason defaulted s).br b)
      ((endLoading blocks reason defaulted dripFirst s).br b) := by
  refine ⟨_, (baysResumed_turned blocks reason defaulted s b).kept, ?_⟩
  rw [endLoading_done]
  exact ((railResumed_later blocks reason defaulted dripFirst s).trans (loadingDone_later _)).br b

theorem Branch.Ends.limits {x z : Branch} (h : Branch.Ends x z) :
    (z.tier, z.floor, z.cap, z.fopen) = (x.tier, x.floor, x.cap, x.fopen) := by
  obtain ⟨y, turned, later⟩ := h.steps
  have after := later.limits
  simp only [Prod.mk.injEq] at after
  obtain ⟨tier, floor, cap, fopen, -⟩ := after
  rw [tier, floor, cap, fopen, turned.limits]

/-- R74, R75: what stands of the Allocator's fields at the end. -/
structure Branch.AllocatorEnds (x z : Branch) : Prop where
  restricted : x.restricted = none → z.restricted = none
  takeUp : x.takeUp = 0 → z.takeUp = 0
  grant : x.grant = 0 → z.grant = 0
  powered : x.request = x.floor → z.request = z.floor
  request : x.causes = [] ∨ x.dock = .isolating ∨ x.dock = .isolated → z.dock ≠ .vacant → z.request = x.request
  adopting : z.dock = .adopting → x.dock ≠ .priming ∧ z.grant = x.grant
  priming : x.dock = .priming → z.dock = .priming → z.grant = x.grant

theorem Branch.Ends.allocator {x z : Branch} (h : Branch.Ends x z) : Branch.AllocatorEnds x z := by
  obtain ⟨y, turned, later⟩ := h.steps
  have after := later.limits
  simp only [Prod.mk.injEq] at after
  obtain ⟨-, floor, -, -, request⟩ := after
  exact
    { restricted := fun none => later.restricted (turned.restricted none)
      takeUp := fun none => later.takeUp (turned.takeUp none)
      grant := fun none => later.grant (turned.grant none)
      powered := fun e => by rw [request, floor, turned.powered e]
      request := fun from_ occupied => request.trans (turned.request from_ fun vacant => occupied (later.vacant.2 vacant))
      adopting := fun e => by
        obtain ⟨before, grant⟩ := later.adopting e
        exact ⟨fun primes => (turned.priming primes).2.1 before, grant.trans (turned.adopting before)⟩
      priming := fun primes e => by
        obtain ⟨unheld, -, same⟩ := turned.priming primes
        obtain ⟨before, grant⟩ := (later.priming e).resolve_left unheld
        exact grant.trans (same before) }

/-- The units as they stand at the end of a loading. -/
structure UnitsEnd (blocks : List (List Byte)) (reason : EndReason) (defaulted : Bool) (s t : State) : Prop where
  loader : t.loader = { s.loader with
    loading := false
    next := 0
    taken := []
    blocksTaken := blocks.length
    endReason := reason
    defaulted := defaulted }
  params : t.params = loadedParams blocks
  meter : t.meter = (valuesTaken blocks reason defaulted s).meter
  alloc : t.alloc = { s.alloc with
    age := 0
    ageState := .fresh
    suspended := decide (s.loader.afterPowerOn = false ∧ .plantStop ∈ s.rail.causes) }
  strips : t.drip.strips = s.drip.strips
  valves : t.valves = { s.valves with
    bypassFopen := loadedBypassFopen blocks
    polarity := if s.loader.afterPowerOn = true then loadedPolarity blocks else s.valves.polarity
    polarityNext := loadedPolarity blocks
    driven := true
    bypassEnable := if s.loader.afterPowerOn = true then true else s.valves.bypassEnable
    railEnable := if SetsEnables s then true else s.valves.railEnable
    railCommanded := railDuty t.rail.state
    bypassCommanded := bypassDuty s.alloc.bypassTarget (loadedBypassFopen blocks) }
  enables : ∀ b, (t.br b).enable = if SetsEnables s then true else (s.br b).enable

theorem railResumed_setsEnables (blocks : List (List Byte)) (reason : EndReason) (defaulted dripFirst : Bool) (s : State) :
    SetsEnables (railResumed blocks reason defaulted dripFirst s) ↔ SetsEnables s := by
  have kept := railResumed_endKept blocks reason defaulted dripFirst s
  have frame := valuesTaken_frame blocks reason defaulted s
  generalize valuesTaken blocks reason defaulted s = v at kept frame
  rw [SetsEnables, kept.loader, kept.trip, frame]

theorem endLoading_units (blocks : List (List Byte)) (reason : EndReason) (defaulted dripFirst : Bool) (s : State) :
    UnitsEnd blocks reason defaulted s (endLoading blocks reason defaulted dripFirst s) := by
  have kept := railResumed_endKept blocks reason defaulted dripFirst s
  have sets := railResumed_setsEnables blocks reason defaulted dripFirst s
  have frame := valuesTaken_frame blocks reason defaulted s
  have wires := fun b => (valuesTaken_limits blocks reason defaulted s b).2.2.2
  rw [endLoading_done]
  generalize railResumed blocks reason defaulted dripFirst s = m at kept sets
  have done := loadingDone_frame m
  have enable := loadingDone_enable m
  generalize loadingDone m = t at done enable
  have loader := kept.loader
  have params := kept.params
  have alloc := kept.alloc
  have strips := kept.strips
  have valves := kept.valves
  generalize meter : (valuesTaken blocks reason defaulted s).meter = vm at frame
  have kmeter := kept.meter.trans meter
  have enabled : ∀ b, (m.br b).enable = (s.br b).enable := fun b => by
    have same := wires b
    simp only [Prod.mk.injEq] at same
    exact wires_enable ((kept.wires.br b).trans same.2.2.2)
  rw [frame] at loader params alloc strips valves
  simp only [sets] at done enable
  have unit : m.valves = { { m.valves with railCommanded := 0 } with railCommanded := m.valves.railCommanded } := rfl
  rw [valves] at unit
  refine ⟨?_, ?_, ?_, ?_, ?_, ?_, fun b => ?_⟩
  · rw [done, loader]
  · rw [done, params]
  · rw [done, kmeter, meter]
  · rw [done, alloc]
  · rw [done, strips]
  · have rail : t.rail = m.rail := by rw [done]
    have bypass : t.valves = { m.valves with
        bypassEnable := if m.loader.afterPowerOn = true then true else m.valves.bypassEnable
        railEnable := if SetsEnables s then true else m.valves.railEnable
        railCommanded := railDuty m.rail.state
        bypassCommanded := bypassDuty m.alloc.bypassTarget m.valves.bypassFopen } := by rw [done]
    rw [bypass, rail, unit, loader, alloc]
  · rw [enable, enabled]

theorem endLoading_limits (blocks : List (List Byte)) (reason : EndReason) (defaulted dripFirst : Bool) (s : State)
    (b : BranchNo) :
    let z := (endLoading blocks reason defaulted dripFirst s).br b
    (z.tier, z.floor, z.cap, z.fopen) = ((loadedLimits blocks b).tier, (loadedLimits blocks b).floor,
      (loadedLimits blocks b).cap, (loadedLimits blocks b).fopen) :=
  (endLoading_ends blocks reason defaulted dripFirst s b).limits.trans (valuesTaken_limits blocks reason defaulted s b).1

theorem endLoading_settings (blocks : List (List Byte)) (reason : EndReason) (defaulted dripFirst : Bool) (s : State) :
    SettingsTaken blocks (endLoading blocks reason defaulted dripFirst s) := by
  have units := endLoading_units blocks reason defaulted dripFirst s
  have limits := endLoading_limits blocks reason defaulted dripFirst s
  have channel : ∀ c, ((endLoading blocks reason defaulted dripFirst s).channel c).k = loadedK blocks c := fun c => by
    rw [State.channel, units.meter]
    exact congrArg MeterChannel.k ((valuesTaken_meter blocks reason defaulted s).2.2 c)
  generalize endLoading blocks reason defaulted dripFirst s = t at units limits channel
  refine ⟨?_, fun b => loadedLimits_block1 blocks b (limits b), ?_, fun c => ?_⟩
  · rw [units.params]
    exact loadedParams_block0 blocks
  · rw [units.params]
    exact loadedParams_block3 blocks (by rw [units.valves]) (by rw [units.valves])
  · rw [channel]
    exact loadedK_block2 blocks c

/-- R74, R75: the request and the grant that the values give. -/
theorem valuesTaken_allocator (blocks : List (List Byte)) (reason : EndReason) (defaulted : Bool) (s : State) (b : BranchNo) :
    let x := (valuesTaken blocks reason defaulted s).br b
    (s.loader.afterPowerOn = true → x.request = x.floor ∧ x.grant = 0) ∧
    (s.loader.afterPowerOn = false → x.request = max x.floor (min x.cap (s.br b).request) ∧
      x.grant = if (s.br b).dock = .priming then
          min (min (s.br b).grant x.cap) (min (loadedParams blocks).primeFlow x.cap)
        else min (s.br b).grant x.cap) := by
  intro x
  have loaded : x = _ := valuesTaken_br blocks reason defaulted s b
  refine ⟨fun power => ?_, fun warm => ?_⟩
  · rw [loaded, if_pos power]
    exact ⟨rfl, rfl⟩
  · rw [loaded, if_neg (by simp [warm])]
    exact ⟨rfl, rfl⟩

theorem endLoading_commanded (blocks : List (List Byte)) (reason : EndReason) (defaulted dripFirst : Bool) (s : State)
    (b : BranchNo) : ((endLoading blocks reason defaulted dripFirst s).br b).commanded =
      ((endLoading blocks reason defaulted dripFirst s).br b).duty := by
  rw [endLoading_done]
  exact loadingDone_commanded ..

theorem endLoading_allocator (blocks : List (List Byte)) (reason : EndReason) (defaulted dripFirst : Bool) (s : State) :
    AllocatorResumes s (endLoading blocks reason defaulted dripFirst s) := by
  have units := endLoading_units blocks reason defaulted dripFirst s
  have ends := endLoading_ends blocks reason defaulted dripFirst s
  have commanded := endLoading_commanded blocks reason defaulted dripFirst s
  generalize endLoading blocks reason defaulted dripFirst s = t at units ends commanded
  refine ⟨units.alloc, fun b => ?_⟩
  obtain ⟨-, restricted, takeUp, same⟩ := valuesTaken_limits blocks reason defaulted s b
  obtain ⟨power, warm⟩ := valuesTaken_allocator blocks reason defaulted s b
  have kept := (ends b).allocator
  have limits := (ends b).limits
  generalize (valuesTaken blocks reason defaulted s).br b = x at restricted takeUp same power warm kept limits
  simp only [Prod.mk.injEq] at same limits
  obtain ⟨dock, causes, -, -⟩ := same
  obtain ⟨-, floor, cap, -⟩ := limits
  refine ⟨kept.restricted restricted, kept.takeUp takeUp, commanded b, fun p => ?_, fun w occupied from_ => ?_,
    fun w adopts => ?_, fun w primes primed => ?_⟩
  · exact ⟨kept.powered (power p).1, kept.grant (power p).2⟩
  · rw [← causes, ← dock] at from_
    rw [kept.request from_ occupied, (warm w).1, floor, cap]
  · obtain ⟨other, grant⟩ := kept.adopting adopts
    rw [dock] at other
    rw [grant, (warm w).2, if_neg other, cap]
  · rw [← dock] at primes
    rw [kept.priming primes primed, (warm w).2, if_pos (dock ▸ primes), cap, units.params]

end

end Sys2Proof.Machine
end

section
/-! PROOF. The rail, the wet strips and the bays at the end of a loading, and the read of a settings block (O42). -/

namespace Sys2Proof.Machine

open Sys2Proof Sys2Proof.Safety

section
variable {s t u v m : State} {b d : BranchNo} {n : StripNo} {blocks : List (List Byte)} {reason : EndReason}
  {defaulted dripFirst : Bool}

/-! ## The rail (R142, R143, R126) -/

theorem resumeStrips_of_dry (dry : ∀ n, (s.strip n).state ≠ .wet) : resumeStrips s = s :=
  List.foldlRecOn (motive := fun u => u = s) allStrips _ rfl fun u same n _ => by
    rw [same, if_neg (dry n)]

/-- With no strip WET the rail alone is resumed after the bays. -/
theorem railResumed_of_dry (dry : ∀ n, (s.strip n).state ≠ .wet) (blocks : List (List Byte)) (reason : EndReason)
    (defaulted dripFirst : Bool) : railResumed blocks reason defaulted dripFirst s =
      resumeIsolation (alignRail (baysResumed blocks reason defaulted s)) := by
  have kept := (baysResumed_endKept blocks reason defaulted s).trans (alignRail_endKept _)
  have frame : (valuesTaken blocks reason defaulted s).drip = s.drip := by rw [valuesTaken_frame]
  unfold railResumed resumeIsolationAndStrips
  generalize alignRail (baysResumed blocks reason defaulted s) = a at kept ⊢
  have before : ∀ n, (a.strip n).state ≠ .wet := fun n => by
    rw [State.strip, kept.strips, frame]
    exact dry n
  have after : ∀ n, ((resumeIsolation a).strip n).state ≠ .wet := fun n => by
    rw [State.strip, (resumeIsolation_endKept a).strips]
    exact before n
  split
  · rw [resumeStrips_of_dry before]
  · rw [resumeStrips_of_dry after]

theorem alignRail_rail (s : State) : (alignRail s).rail = s.rail := by
  unfold alignRail
  split
  · rfl
  · exact addRailToOccupied_rail s

/-- What the Isolation Controller finds once the bays have resumed. -/
structure BaysAligned (blocks : List (List Byte)) (s a : State) : Prop where
  rail : a.rail = s.rail
  power : a.loader.afterPowerOn = s.loader.afterPowerOn
  ready : a.loader.loading = false
  trip : a.iso.tripAsserted = s.iso.tripAsserted
  params : a.params = loadedParams blocks

theorem alignRail_aligned (blocks : List (List Byte)) (reason : EndReason) (defaulted : Bool) (s : State) :
    BaysAligned blocks s (alignRail (baysResumed blocks reason defaulted s)) := by
  have kept := (baysResumed_endKept blocks reason defaulted s).trans (alignRail_endKept _)
  have rail := (alignRail_rail _).trans (baysResumed_rail blocks reason defaulted s)
  have frame := valuesTaken_frame blocks reason defaulted s
  generalize alignRail (baysResumed blocks reason defaulted s) = a at kept rail ⊢
  generalize valuesTaken blocks reason defaulted s = v at kept frame
  exact ⟨rail, by rw [kept.loader, frame], by rw [kept.loader, frame], by rw [kept.trip, frame], by rw [kept.params, frame]⟩

theorem endLoading_rail (blocks : List (List Byte)) (reason : EndReason) (defaulted dripFirst : Bool) (s : State) :
    (endLoading blocks reason defaulted dripFirst s).rail = (railResumed blocks reason defaulted dripFirst s).rail := by
  rw [endLoading_done, loadingDone_frame]

/-- R142, R143: the Isolation Controller at the end of a loading, with no strip WET. -/
theorem resumeIsolation_rail (aligned : BaysAligned blocks s u) :
    (s.loader.afterPowerOn = true → s.rail.state = .closed → s.rail.causes = [] →
      (s.iso.tripAsserted = true → (resumeIsolation u).rail.state = .closed ∧ (resumeIsolation u).rail.causes = [.tripLine]) ∧
      (s.iso.tripAsserted = false → (resumeIsolation u).rail.state = .opening ∧ (resumeIsolation u).rail.causes = [] ∧
        (resumeIsolation u).rail.timer = some ((loadedParams blocks).railOpenTime * 1000))) ∧
    (s.loader.afterPowerOn = false → (resumeIsolation u).rail = { s.rail with
      timer :=
        if s.rail.state = .closing then some ((loadedParams blocks).railCloseTime * 1000)
        else if s.rail.state = .opening then some ((loadedParams blocks).railOpenTime * 1000)
        else none }) := by
  obtain ⟨rail, power, ready, trip, params⟩ := aligned
  unfold resumeIsolation
  rw [power, trip, ← params, ← rail]
  refine ⟨fun p closed free => ⟨fun asserted => ?_, fun negated => ?_⟩, fun w => ?_⟩
  · rw [if_pos p, if_pos asserted]
    have answers := addRailCause_answers (c := .tripLine) (s := u) (by simp [free])
    rw [answers.state, answers.causes, closed, free]
    exact ⟨rfl, rfl⟩
  · rw [if_pos p, if_neg (by simp [negated]), if_pos (by simp [closed, free])]
    exact ⟨rfl, free, if_neg (by simp [ready])⟩
  · rw [if_neg (by simp [w]), State.updRail]
    refine congrArg (fun timer => { u.rail with timer := timer }) ?_
    cases u.rail.state <;> rfl

theorem endLoading_railResumes (blocks : List (List Byte)) (reason : EndReason) (defaulted dripFirst : Bool) (s : State) :
    RailResumes s (endLoading blocks reason defaulted dripFirst s) := by
  have held := endLoading_railHeldLaw blocks reason defaulted dripFirst s
  have rail := endLoading_rail blocks reason defaulted dripFirst s
  have units := endLoading_units blocks reason defaulted dripFirst s
  obtain ⟨power, warm⟩ := resumeIsolation_rail (alignRail_aligned blocks reason defaulted s)
  have dried := fun dry => congrArg State.rail (railResumed_of_dry (s := s) dry blocks reason defaulted dripFirst)
  generalize endLoading blocks reason defaulted dripFirst s = t at held rail units
  have commanded : t.valves.railCommanded = railDuty t.rail.state := by rw [units.valves]
  refine ⟨fun p closed free dry => ?_, fun w dry => ?_, held⟩
  · rw [commanded, units.params, rail, dried dry]
    refine ⟨fun asserted => ?_, fun negated => ?_⟩
    · obtain ⟨state, causes⟩ := (power p closed free).1 asserted
      rw [state]
      exact ⟨rfl, causes, rfl⟩
    · obtain ⟨state, causes, timer⟩ := (power p closed free).2 negated
      rw [state]
      exact ⟨rfl, causes, timer, rfl⟩
  · rw [units.params, rail, dried dry]
    exact warm w

/-! ## The strips then WET (R123) -/

/-- R123: what stands once a strip has been taken as entering WET. -/
structure StripTaken (n : StripNo) (t : State) : Prop where
  tray : ∀ b, n = trayStrip b → (t.br b).dock ≠ .vacant → BranchCause.trayWet ∈ (t.br b).causes
  common : CommonRole t n → SupEntry t .commonWet n.val ∧ (t.params.wetAction = .rail → .commonRail ∈ t.rail.causes)

/-- What keeps a strip taken: the bays as later acts leave them, sets that grow, and the parameters. -/
structure KeepsTaken (s t : State) : Prop where
  bays : BaysLater s t
  grows : AttnGrows s t
  params : t.params = s.params
  rail : ∀ c ∈ s.rail.causes, c ∈ t.rail.causes

theorem commonRole_later (later : BaysLater s t) (n : StripNo) : CommonRole t n ↔ CommonRole s n := by
  simp only [CommonRole, (later.br _).vacant]

theorem StripTaken.later (h : StripTaken n s) (k : KeepsTaken s t) : StripTaken n t where
  tray b same occupied := (k.bays.br b).causes _ (h.tray b same ((k.bays.br b).vacant.not.1 occupied))
  common role := by
    obtain ⟨told, rail⟩ := h.common ((commonRole_later k.bays n).1 role)
    refine ⟨k.grows.noted told, fun action => k.rail _ (rail ?_)⟩
    rwa [k.params] at action

theorem addRailCause_railCauses (c : RailCause) (s : State) : ∀ d ∈ s.rail.causes, d ∈ (addRailCause c s).rail.causes := by
  intro d there
  by_cases held : c ∈ s.rail.causes
  · rwa [addRailCause_of_mem held]
  · rw [(addRailCause_answers held).causes]
    exact List.mem_append_left _ there

theorem stripEntersWet_railCauses (n : StripNo) (s : State) :
    ∀ d ∈ s.rail.causes, d ∈ (stripEntersWet n s).rail.causes := by
  have common : ∀ d ∈ s.rail.causes, d ∈ (commonWet n s).rail.causes := by
    cases action : s.params.wetAction with
    | alarm => rw [commonWet_alarm action]; exact fun _ => id
    | locate => rw [commonWet_locate action]; exact fun _ => id
    | rail => rw [commonWet_ofRail action]; exact addRailCause_railCauses .commonRail (raiseSup .commonWet n.val s)
  unfold stripEntersWet
  split
  · split
    · exact common
    · intro d there
      rwa [addBranchCause_rail]
  · exact common

theorem resumeIsolation_railCauses (s : State) : ∀ d ∈ s.rail.causes, d ∈ (resumeIsolation s).rail.causes := by
  unfold resumeIsolation
  split
  · split
    · exact addRailCause_railCauses .tripLine s
    · split <;> exact fun _ => id
  · exact fun _ => id

theorem stripEntersWet_keepsTaken (n : StripNo) (s : State) : KeepsTaken s (stripEntersWet n s) :=
  ⟨stripEntersWet_later n s, stripEntersWet_grows n s, (stripEntersWet_endKept n s).params, stripEntersWet_railCauses n s⟩

theorem resumeIsolation_keepsTaken (s : State) : KeepsTaken s (resumeIsolation s) :=
  ⟨resumeIsolation_later s, (resumeIsolation_endKept s).grows, (resumeIsolation_endKept s).params,
    resumeIsolation_railCauses s⟩

theorem loadingDone_keepsTaken (m : State) : KeepsTaken m (loadingDone m) where
  bays := loadingDone_later m
  grows := loadingDone_grows m
  params := by rw [loadingDone_frame]
  rail := by
    rw [loadingDone_frame]
    exact fun _ => id

/-- R116, R117: a strip taken as entering WET, in either role. -/
theorem stripEntersWet_taken (n : StripNo) (s : State) : StripTaken n (stripEntersWet n s) := by
  have later := stripEntersWet_later n s
  refine ⟨fun b same occupied => ?_, fun role => ?_⟩
  · subst same
    rw [stripEntersWet_tray ((later.br b).vacant.not.1 occupied)]
    exact (addBranchCause_leak rfl b false s).1
  · rw [stripEntersWet_common ((commonRole_later later n).1 role)]
    refine ⟨?_, fun action => (commonWet_closesRail ?_ n).1⟩
    · cases action : s.params.wetAction with
      | alarm => rw [commonWet_alarm action]; exact supEntry_raiseSup ..
      | locate => rw [commonWet_locate action]; exact supEntry_raiseSup .commonWet n.val s
      | rail => rw [commonWet_ofRail action]; exact (addRailCause_grows ..).noted (supEntry_raiseSup ..)
    · rwa [(commonWet_endKept n s).params] at action

/-- R123: every strip then WET is taken, each in its turn. -/
theorem resumeStrips_taken (wet : (s.strip n).state = .wet) : StripTaken n (resumeStrips s) := by
  have loop : ∀ (ns : List StripNo) (u : State), (u.strip n).state = .wet → n ∈ ns ∨ StripTaken n u →
      StripTaken n (ns.foldl (fun u n => if (u.strip n).state = .wet then stripEntersWet n u else u) u) := by
    intro ns
    induction ns with
    | nil => exact fun u _ taken => taken.resolve_left nofun
    | cons i ns ih =>
      intro u wet taken
      have kept : KeepsTaken u (if (u.strip i).state = .wet then stripEntersWet i u else u) := by
        split
        · exact stripEntersWet_keepsTaken i u
        · exact ⟨.refl u, .refl u, rfl, fun _ => id⟩
      refine ih _ ?_ ?_ <;> beta_reduce
      · split
        · rwa [stripEntersWet_strip]
        · exact wet
      · rcases taken with there | taken
        · by_cases here : n = i
          · subst here
            rw [if_pos wet]
            exact .inr (stripEntersWet_taken n u)
          · exact .inl ((List.mem_cons.1 there).resolve_left here)
        · exact .inr (taken.later kept)
  exact loop allStrips s wet (.inl (mem_allStrips n))

theorem endLoading_stripsTaken (blocks : List (List Byte)) (reason : EndReason) (defaulted dripFirst : Bool) (s : State) :
    WetStripsTaken s (endLoading blocks reason defaulted dripFirst s) := by
  intro n wet
  have taken : StripTaken n (endLoading blocks reason defaulted dripFirst s) := by
    rw [endLoading_done]
    refine StripTaken.later ?_ (loadingDone_keepsTaken _)
    have kept := (baysResumed_endKept blocks reason defaulted s).trans (alignRail_endKept _)
    have frame : (valuesTaken blocks reason defaulted s).drip = s.drip := by rw [valuesTaken_frame]
    unfold railResumed resumeIsolationAndStrips
    generalize alignRail (baysResumed blocks reason defaulted s) = a at kept ⊢
    have before : (a.strip n).state = .wet := by
      rw [State.strip, kept.strips, frame]
      exact wet
    split
    · exact (resumeStrips_taken before).later (resumeIsolation_keepsTaken _)
    · refine resumeStrips_taken ?_
      rw [State.strip, (resumeIsolation_endKept a).strips]
      exact before
  exact ⟨taken.tray, taken.common⟩

/-! ## The bays (R28, R29) -/

theorem bayResumes_congr {s' t' : State}
    (before : ((s'.br b).dock, (s'.br b).causes, (s'.br b).present, (s'.br b).latched, (s'.br b).hold) =
      ((s.br b).dock, (s.br b).causes, (s.br b).present, (s.br b).latched, (s.br b).hold))
    (after : ((t'.br b).dock, (t'.br b).dockTimer, (t'.br b).causes, (t'.br b).grant) =
      ((t.br b).dock, (t.br b).dockTimer, (t.br b).causes, (t.br b).grant)) (params : t'.params = t.params)
    (h : BayResumes s t b) : BayResumes s' t' b := by
  simp only [Prod.mk.injEq] at before after
  obtain ⟨dock, causes, present, latched, hold⟩ := before
  obtain ⟨dock', timer', causes', grant'⟩ := after
  unfold BayResumes ContactOpen at h ⊢
  dsimp only at h ⊢
  rw [dock, causes, present, latched, hold, dock', timer', causes', grant', params]
  exact h

/-- The table of R29 says nothing of a bay that primes at once from HELD. -/
theorem bayResumes_of_primesAtOnce (h : PrimesAtOnce t.params (s.br b)) : BayResumes s t b := by
  obtain ⟨resting, present, latched, free, settled⟩ := h
  have outside : ∀ ds : List DockState, (∀ d ∈ ds, d.resting = false) → (s.br b).dock ∉ ds := fun ds out there => by
    rw [out _ there] at resting
    cases resting
  have shut : ¬ContactOpen (s.br b) := by simp [ContactOpen, present, latched]
  have moving : ∀ {d : DockState}, d.resting = false → (s.br b).dock ≠ d := fun out same => by
    rw [same, out] at resting
    cases resting
  refine ⟨fun closed => absurd closed (outside _ (by decide)), fun _ => ⟨fun _ => ⟨fun e => absurd e (outside _ (by decide)),
    fun e => absurd e (moving rfl), fun e => absurd e (moving rfl), fun e => absurd e (moving rfl),
    fun e => absurd e (moving rfl)⟩, fun opened => absurd opened shut, fun _ => ⟨fun away => ?_, fun _ unlatched => ?_,
      fun _ _ hold => ?_, fun _ _ _ settle => absurd settled settle⟩⟩⟩
  · exact absurd (away.symm.trans present) (by decide)
  · exact absurd (unlatched.symm.trans latched) (by decide)
  · exact absurd (hold.symm.trans free) (by decide)

theorem alignRail_of_opened (opened : s.rail.state = .opened) : alignRail s = s := if_pos opened

theorem resumeIsolation_branches_of_warm (warm : s.loader.afterPowerOn = false) :
    (resumeIsolation s).branches = s.branches := by
  rw [resumeIsolation, if_neg (by simp [warm])]
  rfl

theorem resumeIsolation_alignRail_br (warm : s.loader.afterPowerOn = false) (opened : s.rail.state = .opened) (b : BranchNo) :
    (resumeIsolation (alignRail s)).br b = s.br b := by
  rw [alignRail_of_opened opened]
  exact congrArg (Vec.pick · b) (resumeIsolation_branches_of_warm warm)

theorem baysResumed_power (blocks : List (List Byte)) (reason : EndReason) (defaulted : Bool) (s : State) :
    (baysResumed blocks reason defaulted s).loader.afterPowerOn = s.loader.afterPowerOn := by
  rw [(baysResumed_endKept blocks reason defaulted s).loader, valuesTaken_frame]

/-- After a warm restart with the rail OPEN and no strip WET nothing happens to a bay between its turn and its gate. -/
theorem railResumed_br_of_warm (warm : s.loader.afterPowerOn = false) (opened : s.rail.state = .opened)
    (dry : ∀ n, (s.strip n).state ≠ .wet) (blocks : List (List Byte)) (reason : EndReason) (defaulted dripFirst : Bool)
    (b : BranchNo) :
    (railResumed blocks reason defaulted dripFirst s).br b = (baysResumed blocks reason defaulted s).br b := by
  have power := (baysResumed_power blocks reason defaulted s).trans warm
  have rail := (congrArg Rail.state (baysResumed_rail blocks reason defaulted s)).trans opened
  rw [railResumed_of_dry dry]
  exact resumeIsolation_alignRail_br power rail b

theorem endLoading_bayResumes (warm : s.loader.afterPowerOn = false) (opened : s.rail.state = .opened)
    (dry : ∀ n, (s.strip n).state ≠ .wet) (blocks : List (List Byte)) (reason : EndReason) (defaulted dripFirst : Bool)
    (b : BranchNo) : BayResumes s (endLoading blocks reason defaulted dripFirst s) b := by
  have turned := baysResumed_turned blocks reason defaulted s b
  obtain ⟨-, -, -, same⟩ := valuesTaken_limits blocks reason defaulted s b
  have loaded : (valuesTaken blocks reason defaulted s).params = loadedParams blocks := by rw [valuesTaken_frame]
  have rparams := (baysResumed_endKept blocks reason defaulted s).params.trans loaded
  have params := (endLoading_units blocks reason defaulted dripFirst s).params
  have bay := railResumed_br_of_warm warm opened dry blocks reason defaulted dripFirst b
  rw [endLoading_done] at params ⊢
  generalize railResumed blocks reason defaulted dripFirst s = m at bay params ⊢
  have stands := loadingDone_stands (m := m) (b := b)
  generalize loadingDone m = t at params stands ⊢
  rw [bay] at stands
  generalize baysResumed blocks reason defaulted s = u at turned rparams stands
  generalize valuesTaken blocks reason defaulted s = v at turned same
  simp only [Prod.mk.injEq] at same
  obtain ⟨dock, causes, hold, wires⟩ := same
  by_cases primes : (u.br b).dock = .held ∧ (u.br b).clearance = true
  · obtain ⟨resting, present, latched, free, settled⟩ := turned.waits primes.1 primes.2
    refine bayResumes_of_primesAtOnce ⟨dock ▸ resting, ?_, ?_, hold ▸ free, by rwa [params]⟩
    · rwa [← wires_present wires]
    · rwa [← wires_latched wires]
  · obtain ⟨dock', timer', causes', grant'⟩ := stands (.inr primes)
    rw [← rparams] at turned
    refine bayResumes_congr ?_ ?_ (params.trans rparams.symm) turned.bayResumes
    · rw [dock, causes, hold, wires_present wires, wires_latched wires]
    · rw [dock', timer', causes', grant']

/-- R126: RAIL for the occupied bays, on a record: a VACANT bay is passed over, and one that waits with no cause is isolated. -/
structure Branch.RailReceived (x y : Branch) : Prop where
  vacant : x.dock = .vacant → y = x
  waits : x.dock = .seated ∨ x.dock = .held → x.causes = [] →
    y.dock = .isolated ∧ y.causes = [.rail] ∧ y.dockTimer = none

theorem addCauseCore_railReceived (b : BranchNo) (s : State) : Branch.RailReceived (s.br b)
    ((if (s.br b).dock = .vacant then s else addCauseCore b .rail false s).br b) := by
  refine ⟨fun vacant => by rw [if_pos vacant], fun waits free => ?_⟩
  have occupied : (s.br b).dock ≠ .vacant := by rcases waits with e | e <;> rw [e] <;> decide
  rw [if_neg occupied, addCauseCore_br_same b .rail false s (by simp [free])]
  have isolated : ∀ x : Branch, x.dock = .seated ∨ x.dock = .held → x.respond (closeTimer s) = x.toIsolated := fun x from_ => by
    rw [Branch.respond]
    rcases from_ with e | e <;> rw [e]
  rw [isolated { s.br b with causes := (s.br b).causes ++ [.rail] } waits]
  exact ⟨rfl, by rw [free]; rfl, rfl⟩

theorem addRailToOccupied_railReceived (s : State) (b : BranchNo) :
    Branch.RailReceived (s.br b) ((addRailToOccupied s).br b) := by
  refine forBranches_turn (keeps := fun _ => True) (fresh := fun d u => u.br d = s.br d)
    (Q := fun d u => Branch.RailReceived (s.br d) (u.br d)) trivial (fun _ _ _ => trivial) (fun _ => rfl)
    (fun d u e _ other fresh => ?_) (fun d u _ fresh => ?_) (fun d u e _ other received => ?_) b
  · split
    · exact fresh
    · rwa [addCauseCore_br_ne d .rail false u other]
  · have received := addCauseCore_railReceived d u
    rw [← fresh]
    exact received
  · split
    · exact received
    · rwa [addCauseCore_br_ne d .rail false u other]

/-- R142: with the rail CLOSED the Isolation Controller leaves the bays and does not open the rail at once. -/
theorem resumeIsolation_of_closed (power : s.loader.afterPowerOn = true) (closed : s.rail.state = .closed) :
    (resumeIsolation s).branches = s.branches ∧ (resumeIsolation s).rail.state ≠ .opened := by
  have shut : s.rail.state ≠ .opened := by rw [closed]; decide
  unfold resumeIsolation
  rw [if_pos power]
  split
  · by_cases held : RailCause.tripLine ∈ s.rail.causes
    · rw [addRailCause_of_mem held]
      exact ⟨rfl, shut⟩
    · have answers := addRailCause_answers held
      refine ⟨answers.branches shut, ?_⟩
      rw [answers.state, closed]
      decide
  · split
    · exact ⟨rfl, nofun⟩
    · exact ⟨rfl, shut⟩

theorem alignRail_railReceived (closed : s.rail.state = .closed) (b : BranchNo) :
    Branch.RailReceived (s.br b) ((alignRail s).br b) := by
  rw [alignRail, if_neg (by rw [closed]; decide)]
  exact addRailToOccupied_railReceived s b

/-- After a power-on with the rail CLOSED and no strip WET a bay gets RAIL alone between its turn and the end. -/
theorem railResumed_br_of_closed (power : s.loader.afterPowerOn = true) (closed : s.rail.state = .closed)
    (dry : ∀ n, (s.strip n).state ≠ .wet) (blocks : List (List Byte)) (reason : EndReason) (defaulted dripFirst : Bool)
    (b : BranchNo) : (railResumed blocks reason defaulted dripFirst s).rail.state ≠ .opened ∧
      Branch.RailReceived ((baysResumed blocks reason defaulted s).br b)
        ((railResumed blocks reason defaulted dripFirst s).br b) := by
  have received := alignRail_railReceived ((congrArg Rail.state (baysResumed_rail blocks reason defaulted s)).trans closed) b
  have aligned := alignRail_aligned blocks reason defaulted s
  rw [railResumed_of_dry dry]
  generalize alignRail (baysResumed blocks reason defaulted s) = a at received aligned ⊢
  obtain ⟨branches, shut⟩ := resumeIsolation_of_closed (aligned.power.trans power)
    ((congrArg Rail.state aligned.rail).trans closed)
  have same : (resumeIsolation a).br b = a.br b := congrArg (Vec.pick · b) branches
  rw [same]
  exact ⟨shut, received⟩

theorem endLoading_bayStarts (power : s.loader.afterPowerOn = true) (closed : s.rail.state = .closed)
    (dry : ∀ n, (s.strip n).state ≠ .wet) (blocks : List (List Byte)) (reason : EndReason) (defaulted dripFirst : Bool)
    (b : BranchNo) : BayStarts s (endLoading blocks reason defaulted dripFirst s) b := by
  intro vacant free
  have turned := baysResumed_turned blocks reason defaulted s b
  obtain ⟨-, -, -, same⟩ := valuesTaken_limits blocks reason defaulted s b
  obtain ⟨shut, received⟩ := railResumed_br_of_closed power closed dry blocks reason defaulted dripFirst b
  rw [endLoading_done]
  generalize railResumed blocks reason defaulted dripFirst s = m at shut received ⊢
  obtain ⟨dock', timer', causes', -⟩ := loadingDone_stands (m := m) (b := b) (.inl shut)
  generalize valuesTaken blocks reason defaulted s = v at turned same
  simp only [Prod.mk.injEq] at same
  obtain ⟨dock, causes, -, wires⟩ := same
  obtain ⟨none, away, here⟩ := turned.starts (by rw [closed]; decide) (dock.trans vacant) (causes.trans free)
  rw [wires_present wires] at away here
  rw [dock', timer', causes']
  refine ⟨fun absent => ?_, fun present => ?_⟩
  · rw [received.vacant (away absent)]
    exact ⟨away absent, none⟩
  · exact received.waits (here present) none

/-! ## The read of a block (R175) -/

theorem readNextBlock_ends (acked dripFirst : Bool) (s : State) :
    let x := Memory.readAll s.eeprom (64 * s.loader.next.val) 64
    let sound := (crc16 (x.take 62)).toNat = numberAt x 62 2
    let go := octetAt x 61 = 0x5A ∧ s.loader.next ≠ 3
    (acked = true → sound → go → readNextBlock acked dripFirst s =
      { s with loader := { s.loader with
        next := s.loader.next + 1
        taken := s.loader.taken ++ [x]
        blocksTaken := s.loader.taken.length + 1 } }) ∧
    (¬(acked = true ∧ sound ∧ go) → readNextBlock acked dripFirst s =
      endLoading (s.loader.taken ++ if acked = true ∧ sound then [x] else [])
        (if acked = true ∧ sound then (if octetAt x 61 = 0x5A then .lastBlock else .stop)
          else if acked = false ∧ s.loader.next = 0 then .noMemory else .badCheck)
        (decide ¬(acked = true ∧ sound)) dripFirst s) := by
  intro x sound go
  have checked : blockSound x = true ↔ sound := by simp only [blockSound, beq_iff_eq, sound]
  have read : storedBlock s s.loader.next = x := rfl
  unfold readNextBlock
  dsimp only
  rw [read]
  cases acked with
  | false =>
    refine ⟨nofun, fun _ => ?_⟩
    simp only [Bool.not_false, if_true, Bool.false_eq_true, false_and, if_false, List.append_nil, true_and, not_false_eq_true,
      decide_true]
  | true =>
    by_cases passes : sound
    · simp only [checked.2 passes, passes, Bool.not_true, Bool.false_eq_true, if_false, if_true, and_self, true_and, not_true,
        decide_false, forall_const, takeBlock, bne_iff_ne]
      refine ⟨fun ⟨continues, below⟩ => ?_, fun ends => ?_⟩
      · rw [if_neg (not_not.2 continues), if_neg below, List.length_append]
        rfl
      · by_cases continues : octetAt x 61 = 0x5A
        · rw [if_neg (not_not.2 continues), if_pos (not_not.1 fun below => ends ⟨continues, below⟩), if_pos continues]
        · rw [if_pos continues, if_neg continues]
    · refine ⟨fun _ passes' => absurd passes' passes, fun _ => ?_⟩
      simp only [Bool.not_true, Bool.false_eq_true, if_false, mt checked.1 passes, passes, and_false, List.append_nil,
        not_false_eq_true, decide_true, false_and, Bool.true_eq_false]

theorem endLoading_told (blocks : List (List Byte)) (reason : EndReason) (defaulted dripFirst : Bool) (s : State) :
    SupEntry (endLoading blocks reason defaulted dripFirst s) .settingsDone 0 := by
  rw [endLoading_done, loadingDone]
  exact supEntry_raiseSup ..

theorem UnitsEnd.channel (h : UnitsEnd blocks reason defaulted s t) (c : ChannelNo) : t.channel c = { s.channel c with
    last := some (s.pins.pickA.getLsbD c.val, s.pins.pickB.getLsbD c.val)
    acc := 0
    qerr := false
    overrange := false
    k := loadedK blocks c } := by
  rw [State.channel, h.meter]
  exact (valuesTaken_meter blocks reason defaulted s).2.2 c

/-- R88: the polarity in force, and what the enables 0 to 12 become. -/
theorem UnitsEnd.drives (h : UnitsEnd blocks reason defaulted s t) :
    t.valves.polarity = (if s.loader.afterPowerOn = true then t.valves.polarityNext else s.valves.polarity) ∧
    (s.loader.afterPowerOn = true → t.valves.bypassEnable = true ∧
      (s.iso.tripAsserted = false → t.valves.railEnable = true ∧ ∀ b, (t.br b).enable = true) ∧
      (s.iso.tripAsserted = true → t.valves.railEnable = s.valves.railEnable ∧
        ∀ b, (t.br b).enable = (s.br b).enable)) ∧
    (s.loader.afterPowerOn = false → t.valves.bypassEnable = s.valves.bypassEnable ∧
      t.valves.railEnable = s.valves.railEnable ∧ ∀ b, (t.br b).enable = (s.br b).enable) := by
  rw [h.valves]
  refine ⟨rfl, fun power => ⟨if_pos power, fun negated => ?_, fun asserted => ?_⟩, fun warm => ⟨?_, ?_, fun b => ?_⟩⟩
  · have sets : SetsEnables s := ⟨power, negated⟩
    exact ⟨if_pos sets, fun b => (h.enables b).trans (if_pos sets)⟩
  · have stays : ¬SetsEnables s := fun sets => absurd (sets.2.symm.trans asserted) (by decide)
    exact ⟨if_neg stays, fun b => (h.enables b).trans (if_neg stays)⟩
  · exact if_neg (by simp [warm])
  · exact if_neg fun sets => absurd (sets.1.symm.trans warm) (by decide)
  · exact (h.enables b).trans (if_neg fun sets => absurd (sets.1.symm.trans warm) (by decide))

/-- What the end of a loading brings, unit by unit. -/
structure LoadingEnds (blocks : List (List Byte)) (reason : EndReason) (defaulted : Bool) (s t : State) : Prop where
  told : SupEntry t .settingsDone 0
  units : UnitsEnd blocks reason defaulted s t
  settings : SettingsTaken blocks t
  allocator : AllocatorResumes s t
  rail : RailResumes s t
  strips : WetStripsTaken s t
  resumes : (∀ n, (s.strip n).state ≠ .wet) → s.loader.afterPowerOn = false → s.rail.state = .opened → ∀ b, BayResumes s t b
  starts : (∀ n, (s.strip n).state ≠ .wet) → s.loader.afterPowerOn = true → s.rail.state = .closed → ∀ b, BayStarts s t b

theorem endLoading_brings (blocks : List (List Byte)) (reason : EndReason) (defaulted dripFirst : Bool) (s : State) :
    LoadingEnds blocks reason defaulted s (endLoading blocks reason defaulted dripFirst s) where
  told := endLoading_told ..
  units := endLoading_units ..
  settings := endLoading_settings ..
  allocator := endLoading_allocator ..
  rail := endLoading_railResumes ..
  strips := endLoading_stripsTaken blocks reason defaulted dripFirst s
  resumes dry warm opened b := endLoading_bayResumes warm opened dry blocks reason defaulted dripFirst b
  starts dry power closed b := endLoading_bayStarts power closed dry blocks reason defaulted dripFirst b

/-- R175: with no block taken every parameter and every branch is at its default. -/
theorem LoadingEnds.defaults (h : LoadingEnds [] reason defaulted s t) : t.params = Params.default ∧
    ∀ b, (t.br b).tier = 0 ∧ (t.br b).floor = 150 ∧ (t.br b).cap = 2500 ∧ (t.br b).fopen = 3000 :=
  ⟨h.units.params, fun b => (h.settings.2.1 b).1 rfl⟩

/-- Settles O42. -/
theorem settingsBlocksAreTakenOrDefaulted : Obligations.SettingsBlocksAreTakenOrDefaulted := by
  unfold Obligations.SettingsBlocksAreTakenOrDefaulted
  intro s acked dripFirst x sound go
  obtain ⟨taken, ended⟩ := readNextBlock_ends acked dripFirst s
  refine ⟨fun idle => ?_, fun loading free => ⟨fun a p g => ?_, fun ends => ?_⟩⟩
  · refine congrArg Host.Outcome.next (if_neg ?_)
    rcases idle with ready | busy
    · simp [ready]
    · simp [Option.isNone_iff_eq_none, busy]
  all_goals
    have reads : exec (.settingsBlockRead acked dripFirst) s = .next (readNextBlock acked dripFirst s) :=
      congrArg Host.Outcome.next (if_pos (by simp [loading, free]))
    rw [reads]
  · rw [taken a p g]
  · rw [ended ends]
    have brings := endLoading_brings (s.loader.taken ++ if acked = true ∧ sound then [x] else [])
      (if acked = true ∧ sound then (if octetAt x 61 = 0x5A then .lastBlock else .stop)
        else if acked = false ∧ s.loader.next = 0 then .noMemory else .badCheck)
      (decide ¬(acked = true ∧ sound)) dripFirst s
    refine ⟨_, rfl, ?_⟩
    generalize endLoading _ _ _ dripFirst s = t at brings
    have loader := brings.units.loader
    have channel := brings.units.channel
    obtain ⟨polarity, power, warm⟩ := brings.units.drives
    refine ⟨by rw [loader], brings.told, by rw [loader], by rw [loader]; exact decide_eq_true_iff, ?_, ?_, ?_, fun c => ?_, ?_,
      by rw [brings.units.alloc], by rw [brings.units.valves], power, warm, fun fails none => ?_, brings.settings, polarity,
      brings.allocator, brings.rail, brings.strips, fun dry => ⟨brings.resumes dry, brings.starts dry⟩⟩
    · rw [loader]
      dsimp only
      rw [List.length_append]
      split <;> rfl
    · rw [brings.units.meter, brings.units.params]
      exact (valuesTaken_meter ..).1
    · rw [brings.units.meter]
      exact (valuesTaken_meter ..).2.1
    · rw [channel c]
    · rw [BypassDutyLaw, brings.units.valves, brings.units.alloc]
      rfl
    · rw [none, if_neg fails] at brings
      exact LoadingEnds.defaults brings

end

end Sys2Proof.Machine
end
